-- ==== Sys2Proof/Word.lean ====
section
/-! DEFINITION. The word types of the EJ1648 and the plain data that commands carry as operands
(names of paths, feeds, ports, terminations, messages). 00_scope.md R7; 17_register_access.md R422. -/

namespace Sys2Proof

/-- A 32-bit register or store word (R7, R289). -/
abbrev Word := BitVec 32
/-- One byte. -/
abbrev Byte := BitVec 8
/-- The seventeen ports: 0 to 15 are P0 to P15, 16 is PU (00_scope.md, "Roles"). -/
abbrev PortId := Fin 17
/-- The sixteen downstream ports P0 to P15. -/
abbrev DPort := Fin 16
/-- The aux outputs AX0 and AX1 (R98). -/
abbrev AxId := Fin 2
/-- The twenty-one meters in record-mask order (R286): 0 to 15 Pn, 16 PU, 17 FA, 18 FB, 19 AX0, 20 AX1. -/
abbrev MeterId := Fin 21
/-- PU as a port number. -/
abbrev PU : PortId := 16

/-- The access paths to the registers (R32). -/
inductive Path where
  | loader | i2c | usb
  deriving DecidableEq, Repr

/-- The feeds that take part in selection (R74); FT is not selected and has no code. -/
inductive FeedId where
  | fa | fb | fc
  deriving DecidableEq, Repr

/-- A power path: the pair of a port (PU included), or of an aux output (R98, R107). -/
inductive PathRef where
  | port (p : PortId)
  | ax (a : AxId)
  deriving DecidableEq, Repr

/-- What one CC line of a receptacle shows (Type-C terminations as the hub distinguishes them, R136, R145). -/
inductive CcTerm where
  | open | ra | rd | rpDefault | rp15 | rp30
  deriving DecidableEq, Repr

/-- How a VDDC turn-on ends (R210). -/
inductive VddcResult where
  | ok | noAck | noPowerGood | badVout
  deriving DecidableEq, Repr

/-- Causes that trip a feed pair (R79, R83, R84). -/
inductive FeedTripCause where
  | brakeCurve | fastTrip | gate | soaBudget
  deriving DecidableEq, Repr

/-- How a PMBus transaction ended on the wire (R200, R204). -/
inductive PmbAck where
  | ok | noAck | badPec | stretched
  deriving DecidableEq, Repr

/-- USB transfer type of a non-periodic split (R253, R261). -/
inductive NpType where
  | control | bulk
  deriving DecidableEq, Repr

/-- Handshake or result of one full-speed transaction (R254). -/
inductive XactResult where
  | ack | nak | stall | data | error
  deriving DecidableEq, Repr

/-- The speed of a USB device or of PU (HP_STATUS.SPEED, HUB_STATUS.SPEED). -/
inductive UsbSpeed where
  | none | low | full | high
  deriving DecidableEq, Repr

/-- The answer of a device to an LPM transaction (R240). -/
inductive LpmAnswer where
  | ack | nyet | stall | none
  deriving DecidableEq, Repr

/-- The answer of a partner to a structured VDM (R323). -/
inductive VdmAnswer where
  | ack (vdos : List Word)
  | busy
  | nak
  deriving DecidableEq, Repr

/-- A time of TB0: seconds and nanoseconds (R304). -/
structure TbTime where
  sec : Nat
  ns  : Nat
  deriving DecidableEq, Repr

/-- The VBUS levels a falling VSNS crosses (R181, R193, R196, R125). -/
inductive VbusLevel where
  | below08 | below3 | belowSafe5V
  deriving DecidableEq, Repr

/-- Wake sources by name (R389). -/
inductive WakeSrc where
  | wakeN | i2c | usbResume | usbReset | cadUp | typec | pd | prot | alarm | vinWarn | feed
  deriving DecidableEq, Repr

/-- Why a wake attempt fails (R401). -/
inductive WakeFailCause where
  | vddcNoAck | vddcPg | x24 | pllu | vddcVout
  deriving DecidableEq, Repr

/-- Lasting fault conditions that can end (R408). -/
inductive FaultCond where
  | tempCrit | tempHigh | vinOv | x24Stop
  deriving DecidableEq, Repr

/-- The PU power-supply paths into VAUX5 (R14, R15). -/
inductive VauxSource where
  | none | buck | puVbus | vtan
  deriving DecidableEq, Repr

/-- A message that answers the hub's own request (row PD_RESPONSE_RX). -/
inductive PdResponse where
  | eprEnterAck | eprEnterSucceeded | eprEnterFailed | keepAliveAck
  | status | sourceInfo | revision (rev : Word) | extCaps | notSupported
  deriving DecidableEq, Repr

end Sys2Proof
end

