-- ==== Sys2Proof/Syntax.lean ====
section
/-! DEFINITION. The commands of the block: one constructor per row of spec/opcode_table.json, in the table's order.
Operands are what the row's rule reads: the writing path and the word written, a port, a measured value, a received message. -/

namespace Sys2Proof

/-- The commands (spec/opcode_table.json); each docstring names the row's rule. -/
inductive Instr where
  /-- SUPPLY_GOOD_EVAL (R41). -/
  | supplyGoodEval (vin puVbus vtan : Nat) (puRp : CcTerm) (straps : BitVec 3)
  /-- RESET_N_LOW (R40). -/
  | resetNLow
  /-- VAUX5_BROWNOUT (R40). -/
  | vaux5Brownout
  /-- GLB_RESET_COLD (R25). -/
  | glbResetCold (path : Path) (v : Word)
  /-- GLB_RESET_WARM (R25). -/
  | glbResetWarm (path : Path) (v : Word)
  /-- X24_READY (R21). -/
  | x24Ready
  /-- X24_STOP (R22). -/
  | x24Stop
  /-- X32_CRYSTAL_FAIL (R23). -/
  | x32CrystalFail
  /-- VDDC_TURN_ON_DONE (R210). -/
  | vddcTurnOnDone (r : VddcResult)
  /-- STORE_FILL_DONE (R293). -/
  | storeFillDone
  /-- FLASH_HEADERS_READ (R60). -/
  | flashHeadersRead (jedec : BitVec 24) (content : List (Nat × Byte))
  /-- SLOT_VALIDATED (R59). -/
  | slotValidated
  /-- SIGNATURE_VERIFIED (R67). -/
  | signatureVerified
  /-- LADDER_CONVERTERS_OFF (R44). -/
  | ladderConvertersOff
  /-- LEVEL_UP_TO_2 (R46). -/
  | levelUpTo2
  /-- UPSTREAM_CONNECT (R70). -/
  | upstreamConnect
  /-- HUB_CONNECT_WRITE (R70). -/
  | hubConnectWrite (path : Path) (v : Word)
  /-- HUB_CONNECT_DISCONNECT (R244). -/
  | hubConnectDisconnect (path : Path) (v : Word)
  /-- CONNECT_REEVALUATE (R244). -/
  | connectReevaluate
  /-- BRIDGE_MODE_END (R50). -/
  | bridgeModeEnd
  /-- DYN_NO_EPR (R51). -/
  | dynNoEpr
  /-- CAUSE_RECORD_PROGRAMMED (R54). -/
  | causeRecordProgrammed
  /-- CAUSE_AREA_ERASE_START (R55). -/
  | causeAreaEraseStart
  /-- CAUSE_AREA_ERASE_DONE (R55). -/
  | causeAreaEraseDone
  /-- NVM_READ (R487). -/
  | nvmRead (path : Path) (v : Word)
  /-- NVM_PROGRAM (R72). -/
  | nvmProgram (path : Path) (v : Word)
  /-- NVM_ERASE_4K (R72). -/
  | nvmErase4k (path : Path) (v : Word)
  /-- NVM_ERASE_64K (R72). -/
  | nvmErase64k (path : Path) (v : Word)
  /-- NVM_VERIFY_SLOT (R59). -/
  | nvmVerifySlot (path : Path) (v : Word)
  /-- NVM_READ_ID (R487). -/
  | nvmReadId (path : Path) (v : Word)
  /-- NVM_OTP_PROGRAM (R487). -/
  | nvmOtpProgram (path : Path) (v : Word)
  /-- NVM_BAD_OP (R73). -/
  | nvmBadOp (path : Path) (v : Word)
  /-- NVM_OP_DONE (R73). -/
  | nvmOpDone (jedec : BitVec 24) (stuckLow : Word)
  /-- NVM_OP_TIMEOUT (R73). -/
  | nvmOpTimeout
  /-- FEED_WINDOW_ENTER (R75). -/
  | feedWindowEnter (f : FeedId)
  /-- FEED_WINDOW_EXIT (R75). -/
  | feedWindowExit (f : FeedId)
  /-- FEED_QUALIFIED (R75). -/
  | feedQualified (f : FeedId)
  /-- FEED_REVERT_EXPIRE (R78). -/
  | feedRevertExpire (f : FeedId)
  /-- VIN_UVLO (R79). -/
  | vinUvlo (vin : Nat)
  /-- FEED_REVERSE_CURRENT (R79). -/
  | feedReverseCurrent
  /-- VIN_BROWNOUT_HOLD_EXPIRE (R79). -/
  | vinBrownoutHoldExpire
  /-- SWITCHOVER_OLD_OFF (R80). -/
  | switchoverOldOff
  /-- SWITCHOVER_CONFIRM_TIMEOUT (R82). -/
  | switchoverConfirmTimeout (oldPresent : Bool)
  /-- FEED_PAIR_CONDUCTS (R80). -/
  | feedPairConducts (f : FeedId)
  /-- FEED_PAIR_FULLY_ON (R80). -/
  | feedPairFullyOn (f : FeedId)
  /-- FEED_LIVE_TURNON_TIMEOUT (R83). -/
  | feedLiveTurnonTimeout (f : FeedId)
  /-- FEED_RAMP_END (R85). -/
  | feedRampEnd (f : FeedId)
  /-- FEED_GATE_CHECK_FAIL (R85). -/
  | feedGateCheckFail (f : FeedId)
  /-- FEED_SHORTED_PASS (R85). -/
  | feedShortedPass (f : FeedId)
  /-- FEED_TRIP (R84). -/
  | feedTrip (f : FeedId) (cause : FeedTripCause)
  /-- FEED_COOLDOWN_EXPIRE (R84). -/
  | feedCooldownExpire (f : FeedId)
  /-- FEED_UNLOCK (R85). -/
  | feedUnlock (path : Path) (v : Word)
  /-- VIN_OVERVOLTAGE (R88). -/
  | vinOvervoltage (vin : Nat)
  /-- BELL_RING (R89). -/
  | bellRing (vin : Nat)
  /-- BELL_CLEAR (R90). -/
  | bellClear (vin durUs : Nat)
  /-- DEGRADED_SET (R91). -/
  | degradedSet
  /-- DEGRADED_CLEAR (R91). -/
  | degradedClear
  /-- TANDEM_ENTER (R94). -/
  | tandemEnter (vtan : Nat)
  /-- FT_PRESENT_CHANGE (R77). -/
  | ftPresentChange (vtan : Nat)
  /-- AX_OFF_VSNS_CHECK (R99). -/
  | axOffVsnsCheck (a : AxId) (vsns : Nat)
  /-- AX_PGOOD_RELEASE (R100). -/
  | axPgoodRelease (a : AxId)
  /-- PATH_RAMP_START (R108). -/
  | pathRampStart (x : PathRef) (vsns : Nat)
  /-- PATH_RAMP_DONE (R108). -/
  | pathRampDone (x : PathRef)
  /-- PATH_FAST_TRIP (R103). -/
  | pathFastTrip (x : PathRef)
  /-- BRAKE_TIMER_EXPIRE (R118). -/
  | brakeTimerExpire (x : PathRef) (k : Fin 8)
  /-- SOA_BUDGET_EXHAUSTED (R114). -/
  | soaBudgetExhausted (x : PathRef)
  /-- RAMP_TIMEOUT (R111). -/
  | rampTimeout (p : PortId)
  /-- RAMP_OVERSHOOT (R126). -/
  | rampOvershoot (p : PortId)
  /-- PATH_LIMIT_ENTER (R108). -/
  | pathLimitEnter (x : PathRef)
  /-- PATH_LIMIT_EXIT (R108). -/
  | pathLimitExit (x : PathRef)
  /-- PATH_DISCHARGED (R108). -/
  | pathDischarged (x : PathRef)
  /-- BACKOFF_EXPIRE (R121). -/
  | backoffExpire (x : PathRef)
  /-- RETRY_COUNT_RESET (R121). -/
  | retryCountReset (x : PathRef)
  /-- GATE_CHECK_FAIL (R124). -/
  | gateCheckFail (p : PortId)
  /-- OUTPUT_PRESENT_FAIL (R125). -/
  | outputPresentFail (p : PortId)
  /-- PP_UNLOCK (R123). -/
  | ppUnlock (path : Path) (p : PortId) (v : Word)
  /-- SNAPSHOT_TAKEN (R131). -/
  | snapshotTaken
  /-- MT_E_LO_READ (R132). -/
  | mtELoRead (path : Path) (m : MeterId)
  /-- METER_TICK (R288). -/
  | meterTick
  /-- TC_CC_CHANGE (R137). -/
  | tcCcChange (p : PortId) (cc1 cc2 : CcTerm)
  /-- TC_DRP_TOGGLE (R138). -/
  | tcDrpToggle (p : PortId)
  /-- TC_CC_DEBOUNCE_EXPIRE (R138). -/
  | tcCcDebounceExpire (p : PortId) (vbus : Nat)
  /-- TC_DRP_TRY_EXPIRE (R138). -/
  | tcDrpTryExpire (p : PortId)
  /-- TC_TRY_TIMEOUT (R138). -/
  | tcTryTimeout (p : PortId)
  /-- TC_DRP_TRY_WAIT_EXPIRE (R138). -/
  | tcDrpTryWaitExpire (p : PortId)
  /-- TC_DETACH (R150). -/
  | tcDetach (p : PortId)
  /-- VBUS_LATE (R146). -/
  | vbusLate (p : PortId)
  /-- TC_ERROR_RECOVERY_EXPIRE (R151). -/
  | tcErrorRecoveryExpire (p : PortId)
  /-- TC_CMD_ERR_RECOVERY (R151). -/
  | tcCmdErrRecovery (path : Path) (p : PortId) (v : Word)
  /-- TC_CMD_MOIST_TEST (R154). -/
  | tcCmdMoistTest (path : Path) (p : PortId) (v : Word)
  /-- VCONN_OC (R148). -/
  | vconnOc (p : PortId)
  /-- VCONN_TOTAL_OC (R148). -/
  | vconnTotalOc
  /-- CC_OVP (R152). -/
  | ccOvp (p : PortId) (mv : Nat)
  /-- CC_OVP_CLEAR (R152). -/
  | ccOvpClear (p : PortId)
  /-- SBU_OVP (R152). -/
  | sbuOvp (p : PortId) (mv : Nat)
  /-- SBU_OVP_CLEAR (R152). -/
  | sbuOvpClear (p : PortId)
  /-- MOIST_TEST_DUE (R154). -/
  | moistTestDue (p : PortId)
  /-- MOIST_TEST_DONE (R153). -/
  | moistTestDone (p : PortId) (cc1 cc2 sbu1 sbu2 : Nat)
  /-- MASS_WET_CLEAR (R157). -/
  | massWetClear
  /-- DEEP_CC_POLL (R158). -/
  | deepCcPoll (p : DPort) (cc1 cc2 : CcTerm)
  /-- PD_SOURCE_CAPS_RX (R177). -/
  | pdSourceCapsRx (p : PortId) (rev2 epr : Bool) (pdos : List Word)
  /-- PD_REQUEST_RX (R171). -/
  | pdRequestRx (p : PortId) (rev2 : Bool) (rdo : Word)
  /-- PD_EPR_REQUEST_RX (R171). -/
  | pdEprRequestRx (p : PortId) (rdo pdo : Word)
  /-- PD_ACCEPT_RX (R162). -/
  | pdAcceptRx (p : PortId)
  /-- PD_REJECT_RX (R162). -/
  | pdRejectRx (p : PortId)
  /-- PD_WAIT_RX (R164). -/
  | pdWaitRx (p : PortId)
  /-- PD_PS_RDY_RX (R162). -/
  | pdPsRdyRx (p : PortId)
  /-- PD_SOFT_RESET_RX (R165). -/
  | pdSoftResetRx (p : PortId)
  /-- PD_HARD_RESET_RX (R181). -/
  | pdHardResetRx (p : PortId)
  /-- PD_GET_SOURCE_CAP_RX (R162). -/
  | pdGetSourceCapRx (p : PortId) (epr : Bool)
  /-- PD_GET_SINK_CAP_RX (R195). -/
  | pdGetSinkCapRx (p : PortId) (epr : Bool)
  /-- PD_SINK_CAPS_RX (R195). -/
  | pdSinkCapsRx (p : PortId) (pdo1 : Word)
  /-- PD_PR_SWAP_RX (R192). -/
  | pdPrSwapRx (p : PortId)
  /-- PD_VCONN_SWAP_RX (R191). -/
  | pdVconnSwapRx (p : PortId)
  /-- PD_DR_SWAP_RX (R191). -/
  | pdDrSwapRx (p : PortId)
  /-- PD_FR_SWAP_RX (R196). -/
  | pdFrSwapRx (p : PortId)
  /-- PD_EPR_MODE_ENTER_RX (R173). -/
  | pdEprModeEnterRx (p : PortId)
  /-- PD_EPR_MODE_EXIT_RX (R174). -/
  | pdEprModeExitRx (p : PortId)
  /-- PD_EPR_KEEPALIVE_RX (R174). -/
  | pdEprKeepaliveRx (p : PortId)
  /-- PD_ALERT_RX (R162). -/
  | pdAlertRx (p : PortId) (ado : Word)
  /-- PD_GET_STATUS_RX (R197). -/
  | pdGetStatusRx (p : PortId)
  /-- PD_GET_SOURCE_INFO_RX (R198). -/
  | pdGetSourceInfoRx (p : PortId)
  /-- PD_GET_REVISION_RX (R162). -/
  | pdGetRevisionRx (p : PortId)
  /-- PD_GET_SRC_CAP_EXT_RX (R162). -/
  | pdGetSrcCapExtRx (p : PortId)
  /-- PD_GET_SNK_CAP_EXT_RX (R162). -/
  | pdGetSnkCapExtRx (p : PortId)
  /-- PD_BIST_RX (R162). -/
  | pdBistRx (p : PortId) (carrier : Bool)
  /-- PD_UNSUPPORTED_RX (R162). -/
  | pdUnsupportedRx (p : PortId)
  /-- PD_UNCHUNKED_EXT_RX (R161). -/
  | pdUnchunkedExtRx (p : PortId)
  /-- PD_SOP2_RX (R160). -/
  | pdSop2Rx (p : PortId)
  /-- PD_IGNORED_RX (R162). -/
  | pdIgnoredRx (p : PortId)
  /-- PD_SVDM_RX (R162). -/
  | pdSvdmRx (p : PortId) (header : Word)
  /-- PD_GOODCRC_RX (R167). -/
  | pdGoodcrcRx (p : PortId)
  /-- PD_SENDER_RESPONSE_TIMEOUT (R165). -/
  | pdSenderResponseTimeout (p : PortId)
  /-- PD_CABLE_DISCOVER_RETRY (R167). -/
  | pdCableDiscoverRetry (p : PortId)
  /-- PD_SEND_SOURCE_CAP_REPEAT (R167). -/
  | pdSendSourceCapRepeat (p : PortId)
  /-- PD_SRC_TRANSITION_EXPIRE (R178). -/
  | pdSrcTransitionExpire (p : PortId)
  /-- PD_TRANSITION_SETTLED (R178). -/
  | pdTransitionSettled (p : PortId)
  /-- PD_TRANSITION_WINDOW_EXPIRE (R179). -/
  | pdTransitionWindowExpire (p : PortId)
  /-- PD_PS_HARD_RESET_EXPIRE (R181). -/
  | pdPsHardResetExpire (p : PortId)
  /-- PD_SRC_RECOVER_EXPIRE (R181). -/
  | pdSrcRecoverExpire (p : PortId)
  /-- PD_EPR_KEEPALIVE_EXPIRE (R174). -/
  | pdEprKeepaliveExpire (p : PortId)
  /-- PD_PU_KEEPALIVE_DUE (R177). -/
  | pdPuKeepaliveDue
  /-- PD_SINK_TX_EXPIRE (R194). -/
  | pdSinkTxExpire (p : PortId)
  /-- PD_SINK_REQUEST_EXPIRE (R164). -/
  | pdSinkRequestExpire
  /-- PD_PS_SOURCE_TIMEOUT (R193). -/
  | pdPsSourceTimeout (p : PortId)
  /-- PD_FRS_NOMSG (R196). -/
  | pdFrsNomsg (p : PortId)
  /-- PD_HRST_WITHHELD (R166). -/
  | pdHrstWithheld
  /-- PD_EPR_EXIT_TIMEOUT (R175). -/
  | pdEprExitTimeout (p : PortId)
  /-- PD_CMD_SOFT_RESET (R199). -/
  | pdCmdSoftReset (path : Path) (p : PortId) (v : Word)
  /-- PD_CMD_HARD_RESET (R199). -/
  | pdCmdHardReset (path : Path) (p : PortId) (v : Word)
  /-- PD_CMD_PR_SWAP (R192). -/
  | pdCmdPrSwap (path : Path) (p : PortId) (v : Word)
  /-- PD_CMD_VCONN_SWAP (R191). -/
  | pdCmdVconnSwap (path : Path) (p : PortId) (v : Word)
  /-- PD_CMD_SEND_CAPS (R170). -/
  | pdCmdSendCaps (path : Path) (p : PortId) (v : Word)
  /-- PD_CMD_GET_SINK_CAP (R195). -/
  | pdCmdGetSinkCap (path : Path) (p : PortId) (v : Word)
  /-- PD_CMD_EPR_EXIT (R175). -/
  | pdCmdEprExit (path : Path) (p : PortId) (v : Word)
  /-- BM_RECOMPUTE (R184). -/
  | bmRecompute (vinAvg : Nat)
  /-- RENEG_TIMEOUT (R189). -/
  | renegTimeout (p : PortId)
  /-- BM_RAISE_DELAY_EXPIRE (R190). -/
  | bmRaiseDelayExpire
  /-- PMB_TRANSACTION_DONE (R204). -/
  | pmbTransactionDone (ack : PmbAck) (data : BitVec 16)
  /-- PMB_RETRY_DUE (R204). -/
  | pmbRetryDue
  /-- PMB_VOUT_RETRY_DUE (R204). -/
  | pmbVoutRetryDue
  /-- PMB_TON_MAX_EXPIRE (R204). -/
  | pmbTonMaxExpire
  /-- PMB_OFF_CONFIRM_TIMEOUT (R204). -/
  | pmbOffConfirmTimeout
  /-- PMB_STRETCH_TIMEOUT (R200). -/
  | pmbStretchTimeout
  /-- PMB_VERIFY_WRITE (R207). -/
  | pmbVerifyWrite (path : Path) (v : Word)
  /-- PMB_ALERT (R211). -/
  | pmbAlert (addr : BitVec 7) (pecOk : Bool) (ack : PmbAck) (status : BitVec 16)
  /-- PMB_ALERT_REPEAT (R211). -/
  | pmbAlertRepeat (stillLow : Bool)
  /-- PMB_ALERT_STORM_EXPIRE (R211). -/
  | pmbAlertStormExpire (addr : BitVec 7)
  /-- PMB_BUS_STUCK (R213). -/
  | pmbBusStuck
  /-- PMB_BUS_RECOVERY_DUE (R213). -/
  | pmbBusRecoveryDue
  /-- PMB_STUCK_CLEAR (R213). -/
  | pmbStuckClear
  /-- PMB_SW_GO (R214). -/
  | pmbSwGo (path : Path) (v : Word)
  /-- USB_GET_DESCRIPTOR (R215). -/
  | usbGetDescriptor (dtype index : Byte) (len : Nat)
  /-- USB_SET_ADDRESS (R37). -/
  | usbSetAddress (addr : BitVec 7)
  /-- USB_SET_CONFIGURATION (R243). -/
  | usbSetConfiguration (cfg : Byte)
  /-- USB_SET_INTERFACE (R247). -/
  | usbSetInterface (alt : Byte)
  /-- USB_GET_STATUS (R216). -/
  | usbGetStatus
  /-- USB_DEVICE_FEATURE (R237). -/
  | usbDeviceFeature (set : Bool)
  /-- HUB_GET_HUB_STATUS (R224). -/
  | hubGetHubStatus
  /-- HUB_GET_PORT_STATUS (R245). -/
  | hubGetPortStatus (port : Nat)
  /-- HUB_HUB_FEATURE (R220). -/
  | hubHubFeature (set : Bool) (feature : Nat)
  /-- HUB_CLASS_STALL (R220). -/
  | hubClassStall (request : Byte)
  /-- PORT_RESET_REQUEST (R230). -/
  | portResetRequest (port : Nat)
  /-- PORT_RESET_DONE (R230). -/
  | portResetDone (port : Nat) (speed : UsbSpeed)
  /-- PORT_SUSPEND_REQUEST (R232). -/
  | portSuspendRequest (port : Nat)
  /-- PORT_RESUME_REQUEST (R232). -/
  | portResumeRequest (port : Nat)
  /-- PORT_RESUME_DONE (R232). -/
  | portResumeDone (port : Nat)
  /-- PORT_POWER_FEATURE (R223). -/
  | portPowerFeature (set : Bool) (port : Nat)
  /-- PORT_ENABLE_CLEAR (R231). -/
  | portEnableClear (port : Nat)
  /-- PORT_TEST_REQUEST (R220). -/
  | portTestRequest (port : Nat) (selector : Byte)
  /-- PORT_FEATURE_STALL (R220). -/
  | portFeatureStall (port feature : Nat)
  /-- PORT_CHANGE_CLEAR (R245). -/
  | portChangeClear (port feature : Nat)
  /-- PORT_L1_REQUEST (R240). -/
  | portL1Request (port : Nat) (besl : BitVec 4) (rwe : Bool) (dev : BitVec 7) (ans : LpmAnswer)
  /-- PORT_L1_CLEAR (R241). -/
  | portL1Clear (port : Nat)
  /-- PORT_CONNECT_DETECT (R228). -/
  | portConnectDetect (p : DPort) (speed : UsbSpeed)
  /-- PORT_DISCONNECT_DETECT (R229). -/
  | portDisconnectDetect (p : DPort)
  /-- PORT_BABBLE (R231). -/
  | portBabble (p : DPort)
  /-- UPSTREAM_BUS_RESET (R242). -/
  | upstreamBusReset (hs : Bool)
  /-- UPSTREAM_DETACH (R244). -/
  | upstreamDetach
  /-- GLOBAL_SUSPEND (R233). -/
  | globalSuspend
  /-- HOST_RESUME (R234). -/
  | hostResume
  /-- REMOTE_WAKE_K (R235). -/
  | remoteWakeK (p : DPort)
  /-- REMOTE_WAKE_EVENT (R237). -/
  | remoteWakeEvent
  /-- LPM_TOKEN (R238). -/
  | lpmToken (linkState : BitVec 4) (rwe : Bool)
  /-- L1_RESUME (R238). -/
  | l1Resume
  /-- L1_REMOTE_WAKE (R239). -/
  | l1RemoteWake
  /-- PORT_L1_DEVICE_EXIT (R241). -/
  | portL1DeviceExit (p : DPort)
  /-- SOF_RECEIVED (R314). -/
  | sofReceived (frame : BitVec 11)
  /-- SOF_MISSED (R314). -/
  | sofMissed
  /-- TT_START_SPLIT (R253). -/
  | ttStartSplit (p : DPort) (ty : NpType) (dirIn : Bool) (addr : BitVec 7) (ep : BitVec 4) (data : List Byte) (crcOk : Bool)
  /-- TT_COMPLETE_SPLIT (R255). -/
  | ttCompleteSplit (p : DPort) (ty : NpType) (dirIn : Bool) (addr : BitVec 7) (ep : BitVec 4)
  /-- TT_PERIODIC_START_SPLIT (R256). -/
  | ttPeriodicStartSplit (p : DPort) (iso dirIn : Bool) (addr : BitVec 7) (ep : BitVec 4) (data : List Byte)
  /-- TT_PERIODIC_COMPLETE_SPLIT (R257). -/
  | ttPeriodicCompleteSplit (p : DPort) (dirIn : Bool) (addr : BitVec 7) (ep : BitVec 4) (last : Bool)
  /-- TT_FRAME_START (R252). -/
  | ttFrameStart (p : DPort)
  /-- TT_TRANSACTION_END (R254). -/
  | ttTransactionEnd (p : DPort) (r : XactResult) (data1 : Bool) (data : List Byte)
  /-- TT_RECORD_EXPIRE (R257). -/
  | ttRecordExpire (p : DPort) (k : Fin 16)
  /-- TT_STALE (R255). -/
  | ttStale (p : DPort) (k : Fin 4)
  /-- TT_CLEAR_TT_BUFFER (R261). -/
  | ttClearTtBuffer (ttPort : Nat) (wValue : BitVec 16)
  /-- TT_RESET_TT (R261). -/
  | ttResetTt (ttPort : Nat)
  /-- TT_STOP_TT (R261). -/
  | ttStopTt (ttPort : Nat)
  /-- TT_GET_TT_STATE (R262). -/
  | ttGetTtState (ttPort len : Nat)
  /-- HP_TT_CMD_RESET (R263). -/
  | hpTtCmdReset (path : Path) (p : DPort) (v : Word)
  /-- HP_TT_CMD_CLEAR_NP (R263). -/
  | hpTtCmdClearNp (path : Path) (p : DPort) (v : Word)
  /-- EFN_VENDOR_READ (R275). -/
  | efnVendorRead (wValue wIndex : BitVec 16) (len : Nat)
  /-- EFN_VENDOR_WRITE (R275). -/
  | efnVendorWrite (wValue wIndex : BitVec 16) (len : Nat) (data : List Byte)
  /-- EFN_VENDOR_EVQ_READ (R277). -/
  | efnVendorEvqRead (wValue wIndex : BitVec 16) (len : Nat)
  /-- EFN_VENDOR_KEYED_WRITE (R276). -/
  | efnVendorKeyedWrite (wValue wIndex : BitVec 16) (len : Nat) (data : List Byte)
  /-- EFN_ACCESS_HOLD_TIMEOUT (R278). -/
  | efnAccessHoldTimeout
  /-- EFN_STANDARD_REQUEST (R266). -/
  | efnStandardRequest (bmRequestType bRequest : Byte) (wValue wIndex : BitVec 16) (len : Nat)
  /-- EFN_SET_HALT (R273). -/
  | efnSetHalt (e : Fin 7)
  /-- EFN_CLEAR_HALT (R273). -/
  | efnClearHalt (e : Fin 7)
  /-- EFN_BULK_OUT (R271). -/
  | efnBulkOut (e : Fin 7) (data : List Byte)
  /-- EFN_PING (R271). -/
  | efnPing (e : Fin 7)
  /-- EFN_BULK_IN (R272). -/
  | efnBulkIn (e : Fin 7)
  /-- EFN_BULK_IN_ACK (R272). -/
  | efnBulkInAck (e : Fin 7)
  /-- EFN_PORT_RESET (R285). -/
  | efnPortReset (lost : Bool)
  /-- BATCH_RECEIVED (R281). -/
  | batchReceived
  /-- BATCH_ABORT (R281). -/
  | batchAbort
  /-- BATCH_READ (R280). -/
  | batchRead
  /-- BATCH_WRITE (R280). -/
  | batchWrite
  /-- BATCH_WRITE_N (R280). -/
  | batchWriteN
  /-- BATCH_RMW (R280). -/
  | batchRmw
  /-- BATCH_POLL (R282). -/
  | batchPoll (timedOut : Bool)
  /-- BATCH_KEYED_WRITE (R280). -/
  | batchKeyedWrite
  /-- BATCH_DELAY (R280). -/
  | batchDelay
  /-- BATCH_EVQ_POP (R280). -/
  | batchEvqPop (timedOut : Bool)
  /-- BATCH_DONE (R283). -/
  | batchDone
  /-- EVQ_PUSH_MESSAGE (R283). -/
  | evqPushMessage
  /-- EFN_CARVE_APPLY (R269). -/
  | efnCarveApply (path : Path) (v : Word)
  /-- STORE_WINDOW_READ (R289). -/
  | storeWindowRead (path : Path) (addr : BitVec 19)
  /-- STORE_WINDOW_WRITE (R290). -/
  | storeWindowWrite (path : Path) (addr : BitVec 19) (v : Word)
  /-- SCRUB_SLOT (R300). -/
  | scrubSlot
  /-- STO_CMD_CLR_LOG (R299). -/
  | stoCmdClrLog (path : Path) (v : Word)
  /-- STO_CMD_CLR_CNT (R299). -/
  | stoCmdClrCnt (path : Path) (v : Word)
  /-- STO_ECCLOG_CLEAR (R299). -/
  | stoEcclogClear (path : Path) (k : Fin 16) (v : Word)
  /-- STO_FLIP_ARM (R301). -/
  | stoFlipArm (path : Path) (v : Word)
  /-- STO_RETIRE_WRITE (R302). -/
  | stoRetireWrite (path : Path) (k : Fin 16) (v : Word)
  /-- HOLDOVER_EXPIRE (R310). -/
  | holdoverExpire
  /-- TPULSE_FIRE (R321). -/
  | tpulseFire
  /-- TPULSE_END (R321). -/
  | tpulseEnd
  /-- TPULSE_INPUT_EDGE (R321). -/
  | tpulseInputEdge (rising : Bool)
  /-- TIM_SW_CAP (R318). -/
  | timSwCap (path : Path) (v : Word)
  /-- TIM_CAP_STAT_READ (R319). -/
  | timCapStatRead (path : Path) (u : Fin 3)
  /-- TIM_TB0_NS_READ (R320). -/
  | timTb0NsRead (path : Path)
  /-- TIM_TB3_LO_READ (R320). -/
  | timTb3LoRead (path : Path)
  /-- TB3_ALARM (R315). -/
  | tb3Alarm
  /-- TB_READVANCE (R316). -/
  | tbReadvance
  /-- CAD_DISCOVERY_START (R322). -/
  | cadDiscoveryStart (p : DPort)
  /-- CAD_VDM_RESPONSE (R323). -/
  | cadVdmResponse (p : DPort) (ans : VdmAnswer)
  /-- CAD_VDM_TIMEOUT (R323). -/
  | cadVdmTimeout (p : DPort)
  /-- CAD_VDM_BUSY_RETRY (R323). -/
  | cadVdmBusyRetry (p : DPort)
  /-- CAD_DISCOVER_IDENTITY_RX (R324). -/
  | cadDiscoverIdentityRx
  /-- CAD_DISCOVER_SVIDS_RX (R324). -/
  | cadDiscoverSvidsRx
  /-- CAD_DISCOVER_MODES_RX (R324). -/
  | cadDiscoverModesRx
  /-- CAD_ENTER_MODE_RX (R324). -/
  | cadEnterModeRx (vdo : Word)
  /-- CAD_EXIT_MODE_RX (R329). -/
  | cadExitModeRx (p : PortId)
  /-- CAD_ATTENTION_RX (R328). -/
  | cadAttentionRx (p : DPort) (vdo : Word)
  /-- CAD_ATTENTION_REPEAT (R327). -/
  | cadAttentionRepeat
  /-- CAD_EXIT_MODE_TIMEOUT (R329). -/
  | cadExitModeTimeout (p : DPort)
  /-- CL_CMD_ENTER (R323). -/
  | clCmdEnter (path : Path) (p : PortId) (v : Word)
  /-- CL_CMD_RETRAIN (R348). -/
  | clCmdRetrain (path : Path) (p : PortId) (v : Word)
  /-- CAD_RECEIVER_LOCK (R346). -/
  | cadReceiverLock (p : PortId)
  /-- CAD_TRAIN_ATTEMPT_FAIL (R346). -/
  | cadTrainAttemptFail (p : PortId)
  /-- CAD_UP_FRAME_RX (R346). -/
  | cadUpFrameRx
  /-- CAD_LOSS_OF_LOCK (R347). -/
  | cadLossOfLock (p : PortId)
  /-- CAD_RETRAIN_SET_RX (R348). -/
  | cadRetrainSetRx (ver : Fin 2)
  /-- CAD_RETRAIN_TIMEOUT (R349). -/
  | cadRetrainTimeout (p : PortId)
  /-- CAD_FRAME_RX (R338). -/
  | cadFrameRx (p : PortId) (codeOk : Bool) (bytes : List Byte)
  /-- CAD_SYNC_RX (R351). -/
  | cadSyncRx (p : PortId) (bytes : List Byte)
  /-- CAD_DELAY_REQ_RX (R352). -/
  | cadDelayReqRx (p : PortId) (bytes : List Byte)
  /-- CAD_DELAY_RESP_RX (R353). -/
  | cadDelayRespRx (p : PortId) (bytes : List Byte)
  /-- CAD_BELL_RX (R359). -/
  | cadBellRx (p : PortId) (bytes : List Byte)
  /-- CAD_ECHO_RX (R344). -/
  | cadEchoRx (p : PortId) (bytes : List Byte)
  /-- CAD_FRAME_TX_DONE (R340). -/
  | cadFrameTxDone (p : PortId)
  /-- CAD_SYNC_DUE (R355). -/
  | cadSyncDue
  /-- CAD_DELAY_REQ_DUE (R353). -/
  | cadDelayReqDue
  /-- CAD_DELAY_RESP_MISS (R353). -/
  | cadDelayRespMiss
  /-- CAD_SYNC_ABSENT (R355). -/
  | cadSyncAbsent
  /-- CAD_TAIL_WRITE (R364). -/
  | cadTailWrite (path : Path) (q : Fin 18) (v : Word)
  /-- CAD_DESC_PREPARED (R366). -/
  | cadDescPrepared (q : Fin 18)
  /-- CAD_LAUNCH_TIME (R367). -/
  | cadLaunchTime (q : Fin 18)
  /-- CAD_DESC_COMPLETE (R371). -/
  | cadDescComplete (q : Fin 18)
  /-- CAD_QUEUE_RESUME (R370). -/
  | cadQueueResume (path : Path) (q : Fin 18) (v : Word)
  /-- CAD_QUEUE_FLUSH (R370). -/
  | cadQueueFlush (path : Path) (q : Fin 18) (v : Word)
  /-- CAD_RX_RD_WRITE (R374). -/
  | cadRxRdWrite (path : Path) (p : PortId) (v : Word)
  /-- CAD_EP2_REQUEST (R376). -/
  | cadEp2Request
  /-- CAD_EP_RECORD_ACK (R378). -/
  | cadEpRecordAck (ep3 : Bool)
  /-- IDLE_ENTER (R381). -/
  | idleEnter
  /-- AUTO_SLEEP_DUE (R384). -/
  | autoSleepDue
  /-- AUTO_DEEP_DUE (R384). -/
  | autoDeepDue
  /-- PWR_CMD_DEEP (R384). -/
  | pwrCmdDeep (path : Path) (v : Word)
  /-- PWR_CMD_OFF (R384). -/
  | pwrCmdOff (path : Path) (v : Word)
  /-- PWR_CMD_BLOCKED (R384). -/
  | pwrCmdBlocked
  /-- POWER_ENTRY_DONE (R385). -/
  | powerEntryDone
  /-- WAKE_SOURCE (R389). -/
  | wakeSource (src : WakeSrc) (port : Option PortId)
  /-- WAKE_DONE (R393). -/
  | wakeDone (badBanks : BitVec 4)
  /-- WAKE_ATTEMPT_FAIL (R401). -/
  | wakeAttemptFail (cause : WakeFailCause)
  /-- WAKE_RETRY_DUE (R401). -/
  | wakeRetryDue
  /-- SENTINEL_MESSAGE (R387). -/
  | sentinelMessage (p : PortId) (msg : List Byte)
  /-- SENTINEL_KEEPALIVE (R387). -/
  | sentinelKeepalive (p : PortId)
  /-- I2C_ADDRESS_MATCH (R390). -/
  | i2cAddressMatch (addr : BitVec 7)
  /-- DPHY_POWER_DOWN (R395). -/
  | dphyPowerDown (b : Bool)
  /-- DPHY_POWER_UP (R395). -/
  | dphyPowerUp (b : Bool)
  /-- RETENTION_RELOAD_DONE (R399). -/
  | retentionReloadDone (bank : Fin 4)
  /-- WAKE_N_OFF_EXIT (R403). -/
  | wakeNOffExit
  /-- TEMP_CRIT (R404). -/
  | tempCrit (celsius : Int)
  /-- TEMP_HIGH (R404). -/
  | tempHigh (celsius : Int)
  /-- FAULT_N_PULSE_END (R409). -/
  | faultNPulseEnd
  /-- RESET_LOOP_WINDOW_EXPIRE (R407). -/
  | resetLoopWindowExpire
  /-- RECOVERY_AUTO_END (R411). -/
  | recoveryAutoEnd
  /-- FLT_CMD_END_RECOVERY (R411). -/
  | fltCmdEndRecovery (path : Path) (v : Word)
  /-- RECOVERY_RELEASE_DUE (R412). -/
  | recoveryReleaseDue
  /-- FLT_CAP_CLEAR (R410). -/
  | fltCapClear (path : Path) (v : Word)
  /-- EVQ_POP (R419). -/
  | evqPop (path : Path)
  /-- EVQ_POP_BLOCK_TIMEOUT (R419). -/
  | evqPopBlockTimeout (path : Path)
  /-- EVQ_CMD_FLUSH (R418). -/
  | evqCmdFlush (path : Path) (v : Word)
  /-- I2C_WRITE_TRANSACTION (R425). -/
  | i2cWriteTransaction (addr : BitVec 7) (bytes : List Byte) (stopped : Bool)
  /-- I2C_READ_TRANSACTION (R426). -/
  | i2cReadTransaction (addr : BitVec 7) (bytes : List Byte) (nread : Nat)
  /-- I2C_STRETCH_TIMEOUT (R428). -/
  | i2cStretchTimeout
  /-- I2C_ABANDON (R429). -/
  | i2cAbandon
  /-- REGISTER_WRITE (R7). -/
  | registerWrite (path : Path) (addr : BitVec 24) (v : Word)
  /-- W1C_WRITE (R7). -/
  | w1cWrite (path : Path) (addr : BitVec 24) (v : Word)
  /-- GLB_COMMIT (R433). -/
  | glbCommit (path : Path) (v : Word)
  /-- GLB_DISCARD (R435). -/
  | glbDiscard (path : Path) (v : Word)
  /-- GLB_COMMIT_AT_ARM (R436). -/
  | glbCommitAtArm (path : Path) (v : Word)
  /-- GLB_COMMIT_AT_CANCEL (R437). -/
  | glbCommitAtCancel (path : Path) (v : Word)
  /-- COMMIT_AT_FIRED (R436). -/
  | commitAtFired
  /-- GLB_LOCKRING_WRITE (R438). -/
  | glbLockringWrite (path : Path) (v : Word)
  /-- LOCKRING_EXPIRE (R438). -/
  | lockringExpire (path : Path)
  /-- PU_CL_XS_STAT_READ (R353). -/
  | puClXsStatRead (path : Path)
  /-- INTERNAL_LDOS_READY (R26). -/
  | internalLdosReady
  /-- VBUS_THRESHOLD_CROSS (R181). -/
  | vbusThresholdCross (p : PortId) (l : VbusLevel)
  /-- VIN_36V_CROSSING (R140). -/
  | vin36vCrossing (rising : Bool) (vin : Nat)
  /-- METER_SAMPLE (R128). -/
  | meterSample (v i : List Int)
  /-- FAULT_CONDITION_END (R408). -/
  | faultConditionEnd (c : FaultCond)
  /-- PD_NO_GOODCRC (R189). -/
  | pdNoGoodcrc (p : PortId)
  /-- PD_CABLE_IDENTITY_RX (R167). -/
  | pdCableIdentityRx (p : DPort) (vdos : List Word)
  /-- PD_RESPONSE_RX (R177). -/
  | pdResponseRx (p : PortId) (r : PdResponse)
  deriving DecidableEq, Repr

end Sys2Proof
end

