-- ==== Sys2Proof/WellFormed.lean ====
section
/-! DEFINITION. Which commands are well formed: the lengths, ranges and alignments that hold before a command reaches the
hub. `exec` is total and gives an ill-formed command a meaning too; this says what a sender can send. -/

namespace Sys2Proof

/-- A voltage an absolute maximum rating allows on VIN, in mV (R459). -/
def vinRated (mv : Nat) : Bool := decide (mv ≤ 100000)

/-- A voltage an absolute maximum rating allows on CC and SBU, in mV (R459). -/
def ccRated (mv : Nat) : Bool := decide (mv ≤ 58000)

/-- A 24-bit address of a register, word aligned (R424). -/
def wordAddr (a : BitVec 24) : Bool := decide (a.toNat % 4 = 0)

/-- A low-speed or full-speed interrupt, control or bulk packet (R253). -/
def npData (l : List Byte) : Bool := decide (l.length ≤ 64)

/-- One packet of a high-speed bulk endpoint (R271). -/
def bulkData (l : List Byte) : Bool := decide (l.length ≤ 512)

/-- The share of a periodic transaction in one microframe (R256). -/
def periodicData (l : List Byte) : Bool := decide (l.length ≤ 188)

/-- A frame of a type, header to CRC (R333, R334): 22 bytes and its payload of 0 to 64. -/
def frameOf (ty : Byte) (l : List Byte) : Bool :=
  decide (22 ≤ l.length ∧ l.length ≤ 86 ∧ l.length = 22 + (l.getD 10 0).toNat) && l.head? == some ty

/-- Well-formed commands. -/
def Instr.wf : Instr → Bool
  | .supplyGoodEval vin _ _ _ _ => vinRated vin
  | .flashHeadersRead _ content => content.all fun e => decide (e.1 < 0x1000000)
  | .vinUvlo vin => vinRated vin
  | .vinOvervoltage vin => vinRated vin
  | .bellRing vin => vinRated vin
  | .bellClear vin _ => vinRated vin
  | .vin36vCrossing _ vin => vinRated vin
  | .ccOvp _ mv => ccRated mv
  | .sbuOvp _ mv => ccRated mv
  | .pdSourceCapsRx _ _ epr pdos => decide (0 < pdos.length ∧ pdos.length ≤ if epr then 11 else 7)
  | .pdCableIdentityRx _ vdos => decide (vdos.length ≤ 7)
  | .ttStartSplit _ _ _ _ _ data _ => npData data
  | .ttPeriodicStartSplit _ _ _ _ _ data => periodicData data
  | .ttTransactionEnd _ _ _ data => decide (data.length ≤ 1023)
  | .efnVendorWrite _ _ len data => decide (data.length ≤ len)
  | .efnVendorKeyedWrite _ _ len data => decide (data.length ≤ len)
  | .efnBulkOut _ data => bulkData data
  | .cadSyncRx _ bytes => frameOf 0x01 bytes
  | .cadDelayReqRx _ bytes => frameOf 0x02 bytes
  | .cadDelayRespRx _ bytes => frameOf 0x03 bytes
  | .cadBellRx _ bytes => frameOf 0x12 bytes
  | .cadEchoRx _ bytes => frameOf 0x3F bytes
  | .registerWrite _ addr _ => wordAddr addr
  | .w1cWrite _ addr _ => wordAddr addr
  | .meterSample v i => decide (v.length = 21 ∧ i.length = 21)
  | _ => true

end Sys2Proof
end

