-- ==== Sys2Proof/Decode.lean ====
section
/-! DEFINITION. Decoding of command words. The table gives its rows no bits: a command reaches the hub as a register
access, a message, a measured value or a timer's end, and no word spells one. -/

namespace Sys2Proof

/-- The command a word of `nbits` bits spells; no row of the table gives bits, so every word is refused. -/
def decodeTableWord (_nbits _w : Nat) : Option Instr := none

end Sys2Proof
end

