-- ==== Sys2Proof/Config.lean ====
section
/-! DEFINITION. What an implementation fixes and the spec leaves open: opaque constants with no body. -/

namespace Sys2Proof.Config

/-- OTP word 17, RECOV_FACTORY, "programmed by Laritu" (R68); the spec gives no value. -/
opaque recovFactory : Word

/-- What an uncorrectable-or-worse word with three or more flipped bits is classified as (R294): 0 clean (missed),
1 corrected (miscorrected), 2 uncorrectable; a function of the stored data and of the flips. -/
opaque eccMany : Word → Word → BitVec 7 → Fin 3

/-- The data a miscorrection delivers (R294). -/
opaque eccData : Word → Word → BitVec 7 → Word

/-- A free word for each use of the free counter. -/
opaque freeWord : Nat → Word

/-- Whether an inexact mean is rounded up: R129 gives the mean and not its rounding. A function of dividend and divisor. -/
opaque roundUp : Int → Nat → Bool

/-- VCONN's measured current in mA on a port, by the free counter and the nanoseconds of TB1 (R148): no command carries it. -/
opaque vconnMa : Nat → Nat → Nat → Nat

end Sys2Proof.Config
end

