-- ==== Sys2Proof/Machine/State.lean ====
section
/-! DEFINITION. The state of the hub as plain data: the register file, the pending buffers, the queue of
waiting commands, and every piece of state the spec names or implies that no register holds by itself.
Every field's default is its value in `State.reset`. -/

namespace Sys2Proof.Machine

/-- Sparse data by number, strictly rising keys, no entry equal to what an unlisted key reads as
(the default is given to `get` and `set` in Ops.lean). -/
abbrev SMap (β : Type) := List (Nat × β)

/-! ### Registers, buffers and paths (17_register_access.md) -/

/-- One entry of a pending buffer: the register's address, the bits buffered and their values (R432). -/
structure PendEntry where
  addr : Nat
  mask : Word
  val  : Word
  deriving DecidableEq, Repr

/-- A path's pending buffer (R432); `ovf` is GLB_PEND_x.OVF. -/
structure PendBuf where
  entries : List PendEntry := []
  ovf     : Bool := false
  deriving DecidableEq, Repr

/-- What one access path keeps for itself (R430, R432, R438). -/
structure PathState where
  pend    : PendBuf := {}
  /-- the lockring is open on this path (R438) -/
  lockOpen : Bool := false
  /-- the latched words by register address; 0 where the path has made no acting read (R430) -/
  latch   : SMap Word := []
  /-- a blocking EVQ_POP waits on this path (R419) -/
  popWait : Bool := false
  deriving DecidableEq, Repr

/-- The armed timed commit (R436). -/
structure CommitAt where
  path   : Path
  groups : BitVec 16
  at_    : TbTime
  deriving DecidableEq, Repr

/-- A read that clock stretching holds: the bytes its PEC covers before the data, the bytes read, the register of the
next word, the words left and the bytes the controller asks for (R426, R428). -/
structure HeldRead where
  hdr   : List Byte
  got   : List Byte
  addr  : Nat
  left  : Nat
  nread : Nat
  bad   : Bool
  deriving DecidableEq, Repr

/-- The I²C target engine (R424 to R429): what it last answered, and a transaction it holds. -/
structure I2cEngine where
  /-- acknowledgements of the last transaction, address byte first -/
  acks   : List Bool := []
  /-- the bytes returned by the last read -/
  reply  : List Byte := []
  /-- a write held while SCL is stretched or its access stalls: first address and words (R386, R390, R428) -/
  heldWrite : Option (Nat × List Word) := none
  heldRead : Option HeldRead := none
  /-- the engine and RC8 were started by an address match (R390) -/
  matched : Bool := false
  deriving DecidableEq, Repr

/-! ### Global state -/

/-- Phases of the release order and start ladder (R26, R44). -/
inductive Phase where
  | unpowered | ldos | x24 | vddc | fill | loader | signature | converters | up | off
  deriving DecidableEq, Repr

/-- The slots of the flash (R57). -/
inductive Slot where
  | a | b
  deriving DecidableEq, Repr

structure Glb where
  phase    : Phase := .unpowered
  /-- the service level, 0 to 2 (R46) -/
  level    : Fin 3 := 0
  levelSet : Bool := false
  /-- GLB_STATUS.LOADING -/
  loading  : Bool := false
  /-- COMPAT_LEVEL of the applied image -/
  compat   : Byte := 0
  /-- the sampled straps (R456) -/
  straps   : BitVec 3 := 0
  commitAt : Option CommitAt := none
  /-- the reset-cause entry has been queued since the last reset (R40) -/
  causeDone : Bool := false
  deriving DecidableEq, Repr

/-! ### Power states (15_power_states.md) -/

/-- PWR_STATUS.STATE (R379). OFF is a phase, since no register reads in it. -/
inductive PwrState where
  | run | idle | sleep | deep | entering | waking | wakeFail
  deriving DecidableEq, Repr

/-- Where an entry leads (R385). -/
inductive EntryTarget where
  | sleep | deep | off
  deriving DecidableEq, Repr

/-- One retention bank: the saved words and whether its CRC still holds (R396, R398). -/
structure RetBank where
  saved : SMap Word := []
  valid : Bool := false
  deriving DecidableEq, Repr

structure Pwr where
  st       : PwrState := .run
  target   : EntryTarget := .sleep
  /-- the state a wake runs from (PWR_WAKE_REC.FROM) -/
  from_    : PwrState := .run
  /-- a PWR_CMD request that waits up to 100 ms (R384) -/
  request  : Option EntryTarget := none
  /-- a wake source arrived during the entry (R386) -/
  wakePend : Bool := false
  /-- attempts made by the present wake (R401) -/
  attempts : Fin 4 := 0
  /-- the next attempt is due 10 ms after a failure (R401) -/
  retryDue : Bool := false
  vaux     : VauxSource := .none
  ldosOk   : Bool := false
  x24Run   : Bool := false
  x24Ready : Bool := false
  rc8Run   : Bool := false
  pmbCtrl  : Bool := false
  vddcOn   : Bool := false
  dphyA    : Bool := false
  dphyB    : Bool := false
  afeOn    : Bool := false
  banks    : Vector RetBank 4 := Vector.replicate 4 {}
  /-- banks being reloaded (R399) -/
  reload   : BitVec 4 := 0
  /-- TB3 of detection is in PWR_WAKE_T3; this says a first source was recorded in this wake (R392) -/
  srcSeen  : Bool := false
  /-- wake sources detected by the command being carried out (R388, R389); empty between commands -/
  noticed  : List (WakeSrc × Option PortId) := []
  deriving DecidableEq, Repr

/-! ### Event queue and faults (16_faults.md) -/

/-- One event before it has its SEQ (R415). -/
structure EvEntry where
  source : Byte
  code   : BitVec 16
  detail : Word
  at_    : TbTime
  lost   : Bool := false
  deriving DecidableEq, Repr

/-- One entry held in the EVQ region: its store address and, for a LOST entry, its count. -/
structure EvMeta where
  addr  : Nat
  lost  : Option Nat
  deriving DecidableEq, Repr

structure Evq where
  held    : List EvMeta := []
  /-- the pages that hold the queue, in ring order, at most sixteen (R292) -/
  pages   : List Nat := []
  /-- the next entry slot of the ring -/
  wr      : Nat := 0
  /-- the AON buffer of 16 entries (R417) -/
  aonBuf  : List EvEntry := []
  /-- losses to be announced before the next entry (R33, R418) -/
  lostNext : Nat := 0
  seq     : BitVec 7 := 0
  deriving DecidableEq, Repr

/-- The sources of R404. -/
inductive FSrc where
  | tempCrit | vinOv | x24Stop | vddc | ctrlUe | convOn
  | portLock | feedLock | axLock | vconnOc | ccOvp | sbuOvp | massWet | pmbFaulty | pmbStuck | tempHigh
  | ttOverrun | cadFailed | cadTooDeep | cadLateError | cadNoPages | regTimeout | x32Rc | retReset | wakeFail
  | poisonTt | poisonEfn | poisonRegUsb | poisonRegI2c | poisonCad | poisonPd | poisonEvq | ttNoPage
  deriving DecidableEq, Repr

/-- A fault that has been detected and not yet collected in this core cycle (R406, R410): its source, port, the address of
its access, the requester (15 none) and the access type (0 none, 1 read, 2 write, 3 read-modify-write). -/
structure FaultDue where
  src  : FSrc
  port : Option PortId := none
  addr : Nat := 0
  req  : Nat := 15
  acc  : Nat := 0
  deriving DecidableEq, Repr

structure Flt where
  /-- faults detected by the command being carried out; empty between commands -/
  due      : List FaultDue := []
  /-- TB3 stamps of the warm resets caused by reactions (R407) -/
  resets   : List Nat := []
  demoted  : Bool := false
  pulse    : Bool := false
  recovery : Bool := false
  /-- the paths still to be released (R412) -/
  release  : List PathRef := []
  /-- releases have begun (R412) -/
  releasing : Bool := false
  tempCrit : Bool := false
  vinOv    : Bool := false
  x24Stop  : Bool := false
  tempHigh : Bool := false
  /-- FAULT_N held low by a failed wake (R401, R409) -/
  wakeHold : Bool := false
  deriving DecidableEq, Repr

/-! ### Feeds (03_feeds.md) -/

/-- Feed states (03_feeds.md, "Feed states"). -/
inductive FeedState where
  | disabled | absent | qualifying | ready | active | tripped | cooldown | locked
  deriving DecidableEq, Repr

/-- Last cause of a feed or aux output (FEED_FSTATE). -/
inductive FeedCause where
  | none | brakeCurve | fastTrip | gate | shortedPass | overvoltage | soaBudget | safeState
  deriving DecidableEq, Repr

/-- A feed or aux pair's gate. -/
inductive Gate where
  | off | discharging | charging | conducting | full
  deriving DecidableEq, Repr

structure FeedLine where
  st    : FeedState := .absent
  cause : FeedCause := .none
  gate  : Gate := .off
  /-- turned on onto a live bus (R83); otherwise onto a bus below 30 V -/
  live  : Bool := false
  /-- the ramp onto a low bus has ended (R85) -/
  rampEnded : Bool := false
  /-- inside its window now (R75) -/
  inWindow : Bool := false
  /-- TB3 stamps of trips (R84) -/
  trips : List Nat := []
  deriving DecidableEq, Repr

/-- Power-path states (R107). -/
inductive PpState where
  | off | ramp | on | limit | tripped | cooldown | locked
  deriving DecidableEq, Repr

structure AxPath where
  st      : PpState := .off
  cause   : FeedCause := .none
  retries : Fin 16 := 0
  counted : Bool := true
  gateFull : Bool := false
  /-- AXn_PGOOD released (R100) -/
  pgood   : Bool := false
  /-- the 10 ms off check is pending (R99) -/
  offCheck : Bool := false
  backoffDone : Bool := false
  deriving DecidableEq, Repr

structure Feed where
  fa : FeedLine := {}
  fb : FeedLine := {}
  fc : FeedLine := {}
  /-- FEED_STATUS.SEL: the driving feed -/
  sel : Option FeedId := none
  switching : Bool := false
  /-- the pair being turned off by a switchover -/
  old : Option FeedId := none
  /-- the state the old feed takes once its pair is confirmed off (R80) -/
  oldNext : FeedState := .absent
  /-- old pair is off, waiting for the new pair (R80) -/
  new_ : Option FeedId := none
  /-- a locked feed that goes on driving the bus through its failed pair (R82) -/
  failed : Option FeedId := none
  /-- TB3 stamp of the end of the last switchover (R211) -/
  lastSwitch : Option Nat := none
  heldG1 : List PendEntry := []
  ftPresent : Bool := false
  tandem : Bool := false
  degraded : Bool := false
  bell : Bool := false
  /-- the Rd rule holds on the downstream ports (R140) -/
  rdRule : Bool := true
  /-- VIN has stayed below 36 V since a crossing (R140) -/
  below36 : Bool := true
  /-- and for longer than the brown-out hold time -/
  below36Held : Bool := false
  /-- total feed loss declared and not ended (R92, R95) -/
  totalLoss : Bool := false
  formerTandem : List DPort := []
  /-- last VIN in mV (FEED_VIN.VIN is in 10 mV) and last VTAN in mV -/
  vin  : Nat := 0
  vtan : Nat := 0
  ax : Vector AxPath 2 := Vector.replicate 2 {}
  deriving DecidableEq, Repr

/-- Steps of the dynamo hand-over (R49, R52). -/
inductive DynStep where
  | idle | req5 | ramp | enterEpr | req48 | ended
  deriving DecidableEq, Repr

structure Dyn where
  step : DynStep := .idle
  /-- bridge mode armed (R50) -/
  bridge : Bool := false
  deriving DecidableEq, Repr

/-! ### PMBus (07_pmbus_link.md) -/

inductive TgtState where
  | absent | unverified | verified | faulty
  deriving DecidableEq, Repr

inductive TgtCause where
  | none | noAck | pec | status | format | noFeed | vout | timeout | busy
  deriving DecidableEq, Repr

structure Target where
  addr     : BitVec 7
  role     : Byte
  required : Bool
  st       : TgtState := .unverified
  cause    : TgtCause := .none
  status   : BitVec 16 := 0
  /-- last READ_VOUT in mV -/
  vout     : Nat := 0
  /-- VOUT_MODE exponent, once read (R203) -/
  exp      : Option Int := none
  /-- the voltage commanded and confirmed, in mV; 0 when off -/
  confirmed : Nat := 0
  deriving DecidableEq, Repr

/-- The commands of R202. -/
inductive PmbCmd where
  | opOn | opOff | onOffConfig | clearFaults | voutMode | voutCommand (mv : Nat)
  | transitionRate (slew : Nat) | statusWord | readVout
  | soft (code : Byte) (read : Bool) (len : BitVec 2) (data : BitVec 16)
  deriving DecidableEq, Repr

/-- Why a command was raised: what its end means to its owner. -/
inductive PmbWhy where
  | pathOn | pathOff | shortedOff | verify (step : Nat) | pdChange | slew | software | vddc | resetOff
  | transFail | cooldown5 | alert
  deriving DecidableEq, Repr

/-- The transaction of a command that is next or on the wire: the command itself, the read that confirms it, or the
CLEAR_FAULTS that comes before a repeat (R204). -/
inductive TxnPhase where
  | send | confirm | clear
  deriving DecidableEq, Repr

/-- A command in progress, by the transaction that is next (R204, R212). -/
structure Txn where
  cls : Fin 7
  tgt : Nat
  cmd : PmbCmd
  why : PmbWhy
  attempts : Nat := 0
  busyReads : Nat := 0
  phase : TxnPhase := .send
  /-- TB3 at the acknowledgement that is being confirmed -/
  since : Nat := 0
  /-- the time for its re-reads has ended: the read under way decides -/
  late : Bool := false
  /-- an off command of its target was raised: nothing of it follows what is on the wire (R212) -/
  cut : Bool := false
  deriving DecidableEq, Repr

structure Pmb where
  targets : List Target := []
  queue   : List Txn := []
  wire    : Option Txn := none
  /-- commands that wait for their repeat (100 µs) or re-read (100 µs or 1 ms), the first due first -/
  delayed : List Txn := []
  /-- commands behind an earlier one of their target (R212) -/
  blocked : List Txn := []
  stuck   : Bool := false
  /-- recovery clocks have been sent once (R213) -/
  recovering : Bool := false
  alertLow : Bool := false
  /-- alert responses of the last second: address and TB3 stamp, newest first (R211) -/
  responders : List (BitVec 7 × Nat) := []
  /-- addresses whose alerts are ignored (R211) -/
  storms   : List (BitVec 7) := []
  swBusy  : Bool := false
  deriving DecidableEq, Repr

/-! ### Loader, flash and image (02_startup_and_image.md) -/

/-- A running operation, with the address, length and data it was started with. -/
inductive NvmOp where
  | read (addr len : Nat) | program (addr : Nat) (data : List Byte) | erase (addr len : Nat) | verifySlot (s : Slot)
  | readId | otpProgram (word : Nat) (data : Word)
  deriving DecidableEq, Repr

structure Nvm where
  /-- the flash contents; an unlisted byte reads 0xFF (erased, or not driven: R487) -/
  flash : SMap Byte := []
  /-- the JEDEC ID the data lines hold -/
  jedec : BitVec 24 := 0xFFFFFF
  /-- the OTP words (R68) -/
  otp   : SMap Word := []
  op    : Option NvmOp := none
  /-- the background erase of the cause area runs (R55) -/
  causeErase : Bool := false
  /-- a Hard Reset cause record waits to be programmed: the port (R54, R56) -/
  causePend : Option PortId := none
  /-- a new record was found at this start (R55) -/
  causeNew : Bool := false
  /-- the candidates still to be examined, first first (R60) -/
  order : List Slot := []
  active : Option Slot := none
  deriving DecidableEq, Repr

/-- What an applied image fixes beyond the registers (R62, R64). -/
structure Img where
  applied : Bool := false
  /-- USB_DESC -/
  vid : BitVec 16 := 0
  pid : BitVec 16 := 0
  bcd : BitVec 16 := 0
  holdConnect : Bool := false
  coupled : Bool := false
  strings : List (List Byte) := []
  /-- CADENCE record present, and its SVID -/
  svid : Option (BitVec 16) := none
  /-- PORT_POLICY ENABLED by port, bit 16 = PU -/
  enabled : BitVec 17 := 0
  eprClass : BitVec 17 := 0
  tandemCap : BitVec 17 := 0
  /-- RETENTION addresses accepted into bank 0 (R397) -/
  retention : List Nat := []
  deriving DecidableEq, Repr

/-! ### Store (11_central_store.md) -/

/-- A store word: its data bits as stored, and which data and check bits differ from the codeword written (R294). -/
structure StoCell where
  data : Word
  dErr : Word := 0
  cErr : BitVec 7 := 0
  deriving DecidableEq, Repr

structure Sto where
  /-- words by word number; an unlisted word is zero and clean, as the fill leaves it (R293) -/
  mem : SMap StoCell := []
  fillDone : Bool := false
  /-- the next word of the scrub pass (R300) -/
  scrubPos : Nat := 0
  /-- page counts of EFN, TT, CAD, PD, EVQ, MTR (R291) -/
  rgn : Vector Nat 6 := #v[16, 64, 192, 34, 16, 32]
  /-- pages allocated by the allocators of TT, CAD, PD and MTR -/
  alloc : List Nat := []
  /-- a run of "none" answers is going on in this region (R292) -/
  emptyRun : BitVec 7 := 0
  /-- the path whose next window write is flipped (R301) -/
  armed : Option Path := none
  deriving DecidableEq, Repr

/-! ### USB hub (08_usb_hub.md) -/

inductive UsbDevState where
  | detached | pullUp | default_ | addressed | configured
  deriving DecidableEq, Repr

/-- The hub's last answer on PU: a data stage, a handshake or a stall. -/
inductive UsbAnswer where
  | none | ack | nak | nyet | stall | err | noHandshake
  | data (bytes : List Byte) (crcOk : Bool) (data1 : Bool)
  deriving DecidableEq, Repr

inductive UState where
  | poweredOff | disconnected | disabled | enabled | suspended | resuming | resetting | l1 | testing
  deriving DecidableEq, Repr

/-- wPortChange bits the hub keeps (R245). -/
structure PortChange where
  connection : Bool := false
  enable : Bool := false
  suspend : Bool := false
  overCurrent : Bool := false
  reset : Bool := false
  l1 : Bool := false
  deriving DecidableEq, Repr

/-- The USB side of one hub port (R229). -/
structure UPort where
  ust   : UState := .poweredOff
  conn  : Bool := false
  power : Bool := false
  oc    : Bool := false
  speed : UsbSpeed := .none
  chg   : PortChange := {}
  suspSel : Bool := false
  suspGlob : Bool := false
  /-- a suspend asked for while resuming (R232) -/
  suspPend : Bool := false
  /-- a selective resume to run after the host's resume ends (R235, R236) -/
  wakePend : Bool := false
  /-- the resume in progress ends an L1, so C_PORT_L1 is set (R241) -/
  resumeL1 : Bool := false
  deriving DecidableEq, Repr

structure Hub where
  st    : UsbDevState := .detached
  speed : UsbSpeed := .none
  addr  : BitVec 7 := 0
  alt   : Bool := false
  suspended : Bool := false
  l1    : Bool := false
  l1Rwe : Bool := false
  rwakeEn : Bool := false
  /-- resume signalling is being driven or repeated (R234, R235) -/
  resuming : Bool := false
  localLost : Bool := true
  cLocal : Bool := false
  /-- C_HUB_OVER_CURRENT, always 0 (R224) has no field -/
  recovery : Bool := false
  testMode : Bool := false
  p17   : UPort := {}
  answer : UsbAnswer := .none
  deriving DecidableEq, Repr

/-! ### Transaction translators (09_transaction_translators.md) -/

inductive TtState where
  | idle | run | stopped | unavailable
  deriving DecidableEq, Repr

inductive NpState where
  | free | queued | running | done
  deriving DecidableEq, Repr

structure NpBuf where
  st   : NpState := .free
  res  : Option XactResult := none
  ty   : NpType := .control
  dirIn : Bool := false
  addr : BitVec 7 := 0
  ep   : BitVec 4 := 0
  /-- bytes held in the buffer's store page -/
  len  : Nat := 0
  data1 : Bool := false
  /-- acceptance order (R254) -/
  order : Nat := 0
  stale : Bool := false
  /-- freed on the wire: the result is discarded (R261) -/
  dropped : Bool := false
  /-- its OUT or SETUP data were poisoned: the packet went out with its CRC inverted (R259) -/
  bad : Bool := false
  /-- TB3 when it entered its present state -/
  since : Nat := 0
  deriving DecidableEq, Repr

inductive PrState where
  | waiting | running | ended
  deriving DecidableEq, Repr

/-- A periodic record (R256, R257). -/
structure PRecord where
  /-- its number, 0 to 15 -/
  slot : Nat
  st   : PrState := .waiting
  iso  : Bool
  dirIn : Bool
  addr : BitVec 7
  ep   : BitVec 4
  /-- word of the ring where its data begin, and their length in bytes -/
  off  : Nat
  len  : Nat
  res  : Option XactResult := none
  data1 : Bool := false
  /-- its OUT data were poisoned (R259) -/
  bad : Bool := false
  /-- discarded while on the wire: it ends there without a result (R263) -/
  dropped : Bool := false
  deriving DecidableEq, Repr

structure Tt where
  st   : TtState := .idle
  /-- store pages NP, P0 and P1 (R248); none before they are assigned -/
  pages : List Nat := []
  np   : Vector NpBuf 4 := Vector.replicate 4 {}
  recs : List PRecord := []
  nextOrder : Nat := 0
  /-- word of the periodic ring, 0 to 447, for the next data -/
  ring : Nat := 0
  /-- endpoints whose last start-split was answered NAK (R255) -/
  naked : List (BitVec 7 × BitVec 4 × Bool) := []
  /-- frame number of the last SOF or keep-alive sent downstream (R252) -/
  frame : BitVec 11 := 0
  deriving DecidableEq, Repr

/-! ### Embedded function (10_embedded_function.md) -/

inductive EfnState where
  | detached | default_ | addressed | configured | suspended
  deriving DecidableEq, Repr

structure EpBuf where
  halted : Bool := false
  toggle : Bool := false
  /-- bytes held, and the ring offset of the oldest -/
  fill : Nat := 0
  rd   : Nat := 0
  /-- lengths of what is held, oldest first: the packets of an OUT endpoint, the messages of EP1 IN, the records of the
  other IN endpoints -/
  xfers : List Nat := []
  /-- bytes of the oldest already consumed, or acknowledged -/
  part : Nat := 0
  /-- length of the packet sent and not acknowledged, and whether one is -/
  sent : Option Nat := none
  /-- IN: the last packet acknowledged was full, so the transfer goes on -/
  more : Bool := false
  /-- consecutive poisoned reads and their page (R274) -/
  poisonRun : Nat := 0
  poisonPage : Nat := 0
  deriving DecidableEq, Repr

inductive BatchState where
  | idle | receiving | executing | responseUnread
  deriving DecidableEq, Repr

structure Efn where
  st   : EfnState := .detached
  addr : BitVec 7 := 0
  eps  : Vector EpBuf 7 := Vector.replicate 7 {}
  batch : BatchState := .idle
  /-- the batch being executed: its bytes, the index and byte offset of the next command -/
  bytes : List Byte := []
  index : Nat := 0
  off   : Nat := 0
  /-- response words built so far, the first failing index and whether a failure skips the rest -/
  resp  : List Byte := []
  firstErr : Byte := 0xFF
  skipping : Bool := false
  executed : Nat := 0
  discardResp : Bool := false
  /-- an EP0 register request held with NAK (R278): request code, address, length, data -/
  held : Option (Byte × Nat × Nat × List Byte) := none
  mtrLostFlag : Bool := false
  logLostFlag : Bool := false
  deriving DecidableEq, Repr

/-! ### Time (12_time_bases.md) -/

structure Tb0 where
  sec  : BitVec 48 := 0
  ns   : BitVec 32 := 0
  frac : BitVec 24 := 0
  deriving DecidableEq, Repr

structure Tb2 where
  valid : Bool := false
  frame : BitVec 11 := 0
  uframe : BitVec 3 := 0
  pos   : BitVec 13 := 0
  /-- consecutive agreeing SOFs and consecutive missed SOFs (R314) -/
  agree : Nat := 0
  missed : Nat := 0
  /-- tenths of a 60 MHz period past POS -/
  phase : Nat := 0
  deriving DecidableEq, Repr

structure Tim where
  tb0 : Tb0 := {}
  tb1 : BitVec 64 := 0
  tb3 : BitVec 48 := 0
  /-- phase of X32 against the 5 ns tick, in 1/128 ns (the model's own) -/
  x32Phase : Nat := 0
  shadow0 : Tb0 := {}
  shadow1 : BitVec 64 := 0
  shadow3 : BitVec 48 := 0
  /-- TIME has come up and waits for the next X32 edge (R316) -/
  readvance : Bool := false
  tb2 : Tb2 := {}
  discOk : Bool := false
  /-- the committed increment that waits for DISC_OK (R309) -/
  incHeld : Option Word := none
  undisc : Bool := true
  x32Rc  : Bool := false
  tpPulse : Bool := false
  /-- next whole second to pulse in TP_MODE 2 (R311) -/
  tpNext : Nat := 0
  deriving DecidableEq, Repr

/-! ### Cadence Link (13_cadence_link.md, 14_cadence_queues.md) -/

inductive LState where
  | off | discover | noMode | train | up | retrain | failed
  deriving DecidableEq, Repr

/-- CL_STATUS.CAUSE. -/
inductive LCause where
  | none | nak | noResponse | noSvid | badVdo | noLock | noEcho | noPages | detach | hardReset
  | exitMode | retrainFail | sbuOvp | sleep | disabled | errRecovery
  deriving DecidableEq, Repr

/-- Discovery steps (R322). -/
inductive DiscStep where
  | identity | svids | modes | enter
  deriving DecidableEq, Repr

/-- What put a frame into an output queue (R340); `train` frames are those of R346. -/
inductive FrameKind where
  | bell | sync | delayReq | launch (q : Fin 18) | fwdUrgent | other | train
  deriving DecidableEq, Repr

/-- A frame that waits for an output, or is on its wire. Class 3 and 4 frames lie in a forwarding slot of the store. -/
structure OutFrame where
  kind  : FrameKind
  /-- header and payload of a frame without a slot; on the wire, with the CRC -/
  bytes : List Byte := []
  /-- store byte address of the forwarding slot (R360), and the bytes it holds -/
  slot  : Option Nat := none
  len   : Nat := 0
  /-- TSTAMP, and the receive stamp in TB1 for the residence time (R340, R356) -/
  tstamp : Bool := false
  rx1   : BitVec 64 := 0
  /-- sent with an inverted CRC and the POISON flag (R297) -/
  poison : Bool := false
  deriving DecidableEq, Repr

inductive LqState where
  | off | run | halted
  deriving DecidableEq, Repr

/-- The outcome of one port for a descriptor (R369, R371). -/
inductive PortOutcome where
  | waiting | onTime | lateSent | lateDropped | lateError | linkDown | sendLate | onWire (late : Bool)
  deriving DecidableEq, Repr

/-- A prepared descriptor (R366): its eight words as read, the SEQ and frame built, and the outcomes so far. -/
structure HeadDesc where
  words : List Word
  seq   : BitVec 16
  frame : List Byte
  /-- outcome by port of the mask -/
  out   : List (PortId × PortOutcome)
  /-- a status that ends the descriptor unsent (BAD_DESC, POISON, LINK_DOWN, FLUSHED, NO_TIER) -/
  dead  : Option Byte := none
  /-- TB1 when it came to the head (R367) -/
  since : BitVec 64 := 0
  /-- order of the TAIL write that handed it over (R35, R367) -/
  order : Nat := 0
  actual : Option TbTime := none
  deriving DecidableEq, Repr

structure LaunchQ where
  st   : LqState := .off
  base : Nat := 0
  tail : BitVec 16 := 0
  done : BitVec 16 := 0
  seq  : BitVec 16 := 0
  /-- the descriptor at the head -/
  head : Option HeadDesc := none
  /-- descriptors launched or excused on every port and not written back, oldest first -/
  flight : List HeadDesc := []
  /-- TAIL writes whose descriptors are not all prepared: the new TAIL and the order of the write -/
  handed : List (BitVec 16 × Nat) := []
  /-- broadcast: ports excused from every descriptor before this count (R372) -/
  excused : List (PortId × BitVec 16) := []
  /-- payload pool slots of the pending EP2 requests: count and store address (R376) -/
  pool : List (BitVec 16 × Nat) := []
  deriving DecidableEq, Repr

structure RxRing where
  alloc : Bool := false
  base  : Nat := 0
  wr    : BitVec 16 := 0
  rd    : BitVec 16 := 0
  /-- the next record written carries LOST, RETRAINED -/
  lost  : Bool := false
  retrained : Bool := false
  /-- counts of records released unsent out of their turn (R378) -/
  skip  : List (BitVec 16) := []
  /-- the owner in effect is the register paths: a committed OWNER waits for EP3 (R361) -/
  own   : Bool := false
  deriving DecidableEq, Repr

structure Link where
  st     : LState := .off
  cause  : LCause := .none
  ver    : Fin 3 := 0
  disc   : DiscStep := .identity
  busy   : Nat := 0
  /-- the alternate mode is entered -/
  entered : Bool := false
  /-- version to enter, object position of the Mode VDO -/
  objPos : Fin 8 := 0
  locked : Bool := false
  /-- some receiver locked in one of the attempts (R346) -/
  everLocked : Bool := false
  echoes : Fin 4 := 0
  /-- SEQ of the training ECHO last sent (R346) -/
  trainSeq : BitVec 16 := 0
  fails  : Fin 4 := 0
  /-- an Exit Mode was sent and waits for its ACK (R329) -/
  exiting : Bool := false
  /-- PU repeats Attention with this VER (R327, R347) -/
  attention : Option (Fin 3) := none
  /-- the version an acknowledged Enter Mode named, until the GoodCRC of the ACK (R346) -/
  enterVer : Fin 3 := 0
  outQ   : List OutFrame := []
  wire   : Option OutFrame := none
  sbuOff : Bool := false
  lq     : LaunchQ := {}
  rx     : RxRing := {}
  deriving DecidableEq, Repr

/-- The DELAY exchange in progress (R353). -/
structure Exchange where
  t1  : TbTime
  c1  : BitVec 48
  t2  : TbTime
  due : TbTime
  t3  : Option TbTime := none
  seq : BitVec 16 := 0
  deriving DecidableEq, Repr

/-- A completion record of EP2 IN, and the queue and count of the descriptor it releases (R377, R378). -/
structure Completion where
  bytes : List Byte
  slot  : Option (Fin 18 × BitVec 16)
  deriving DecidableEq, Repr

structure Cad where
  tier : Fin 6 := 0
  tooDeep : Bool := false
  seqSync : BitVec 16 := 0
  seqReq  : BitVec 16 := 0
  seqResp : BitVec 16 := 0
  seqBell : BitVec 16 := 0
  /-- the last SYNC on PU carried UNDISC; no SYNC for four intervals (R355) -/
  syncUndisc : Bool := false
  syncAbsent : Bool := false
  /-- DELAY exchanges not ended, oldest first (R353) -/
  xs   : List Exchange := []
  bq   : LaunchQ := {}
  /-- completion records waiting on EP2 IN, oldest first (R377) -/
  completions : List Completion := []
  /-- the ports of the receive records in the EP3 IN buffer, oldest first -/
  ep3Sent : List PortId := []
  /-- EP2 OUT discards up to the next short packet (R376) -/
  ep2Discard : Bool := false
  /-- pages held by the payload pool and by the forwarding slots (R360) -/
  poolPages : List Nat := []
  fwdPages : List Nat := []
  /-- TAIL writes accepted so far -/
  tails : Nat := 0
  deriving DecidableEq, Repr

/-! ### Ports -/

/-- The power path of a port (04_port_power_path.md). -/
inductive PpCause where
  | none | brakeCurve | fastTrip | gate | shortedPass | classA | soaBudget | rampTimeout | safeState
  deriving DecidableEq, Repr

structure Pp where
  st      : PpState := .off
  cause   : PpCause := .none
  retries : Fin 16 := 0
  /-- the last trip counts as a retry (R121) -/
  counted : Bool := true
  /-- the brake timers that run (R118) -/
  brk     : BitVec 8 := 0
  /-- the safe-operating accumulator in quarters of a picojoule (R114) -/
  soa     : Nat := 0
  /-- the output-present check is pending (R125) -/
  check   : Bool := false
  /-- the gate check of full-on is pending (R124) -/
  gateCheck : Bool := false
  backoffDone : Bool := false
  /-- an OFF condition arose while TRIPPED (R109) -/
  offPend : Bool := false
  /-- the Type-C or PD engine calls for VBUS (R108, R146) -/
  call    : Bool := false
  /-- ramp reference start in mV (R110) -/
  rampRef : Nat := 0
  /-- budget-manager limit in 10 mA (R113) -/
  bmIlim  : BitVec 10 := 0x3FF
  deriving DecidableEq, Repr

/-- Type-C states (R137). -/
inductive TcState where
  | disabled | unattachedSnk | attachWaitSnk | attachedSnk | unattachedSrc | attachWaitSrc | attachedSrc
  | trySrc | tryWaitSnk | trySnk | tryWaitSrc | errorRecovery | wet | shed | ccFault | moistTest
  deriving DecidableEq, Repr

inductive MState where
  | dry | wet | drying | held
  deriving DecidableEq, Repr

structure Tc where
  st   : TcState := .unattachedSnk
  cc1  : CcTerm := .open
  cc2  : CcTerm := .open
  orient : Bool := false
  accSeen : Bool := false
  cableRa : Bool := false
  /-- Rp presented as source (R145) -/
  rp   : Fin 4 := 0
  vconn : Bool := false
  /-- when VCONN was turned on, as an order number (R148) -/
  vconnOrder : Nat := 0
  /-- VCONN removed by over-current (R148) -/
  vconnLost : Bool := false
  /-- 250 ms count runs (R146) -/
  vbusCount : Bool := false
  mstate : MState := .dry
  dryCnt : Fin 4 := 0
  wetCnt : BitVec 16 := 0
  /-- TB3 stamp of the last entry to MSTATE WET (R156) -/
  wetAt  : Option Nat := none
  /-- a moisture test fell due in AttachWait (R154) -/
  testPend : Bool := false
  deriving DecidableEq, Repr

/-- PD_STATUS.PSTATE. -/
inductive PState where
  | detached | startup | implicit | ready | transition | swap | hardReset | softReset | frs
  deriving DecidableEq, Repr

/-- Where the source's Hard Reset stands (R181, R182). -/
inductive HrstStep where
  | none | psHardReset | discharge | recover
  deriving DecidableEq, Repr

/-- PD messages the hub sends. -/
inductive PdMsg where
  | sourceCaps (pdos : List Word) | eprSourceCaps (pdos : List Word) | request (rdo : Word)
  | eprRequest (rdo pdo : Word) | getSourceCap | getSinkCap | sinkCaps (pdos : List Word)
  | accept | reject | wait | psRdy | softReset | hardReset | prSwap | vconnSwap | frSwapSignal
  | eprEnter | eprEnterAck | eprEnterSucceeded | eprEnterFailed (reason : Byte) | eprExit
  | eprKeepAlive | eprKeepAliveAck | alert (ado : Word) | getStatus | status (bytes : List Byte)
  | getSourceInfo | sourceInfo (w : Word) | getRevision | revision | srcCapsExt | snkCapsExt
  | getSrcCapExt | notSupported | discoverCable | vdm (vdos : List Word) | bistMode (carrier : Bool)
  deriving DecidableEq, Repr

/-- Where a swap stands (R193). -/
inductive SwapStep where
  | none | sentPr | oldWaitAccept | oldOff | oldWaitPsRdy | newWaitPsRdy | newRamp
  | sentVconn | frsSignal | frsAccepted | frsWaitPsRdy
  deriving DecidableEq, Repr

/-- An explicit contract: the RDO, mV and 10 mA, and I_RATED in 10 mA (R115). -/
structure Contract where
  rdo   : Word
  mv    : Nat
  ma10  : Nat
  rated : Nat
  deriving DecidableEq, Repr

/-- A voltage change (R178): the contract it leads to. -/
structure Trans where
  new : Contract
  /-- the converter has been commanded, and confirmed -/
  sent : Bool := false
  commanded : Bool := false
  deriving DecidableEq, Repr

structure Pd where
  st     : PState := .detached
  /-- the port's two pages of the PD region (R292) -/
  pages  : List Nat := []
  /-- negotiated revision: 0 none, 1 PD 2.0, 2 PD 3.x -/
  rev    : Fin 3 := 0
  source : Bool := false
  vconnSrc : Bool := false
  epr    : Bool := false
  contract : Option Contract := none
  trans  : Option Trans := none
  hrstCnt : Fin 16 := 0
  /-- Hard Resets sent since a message was received (R165) -/
  hrstRun : Nat := 0
  tableErr : Bool := false
  capped : Bool := false
  /-- hard-limited (R189) -/
  bmLimited : Bool := false
  /-- grant G and floor F in mW (R185) -/
  grant  : Nat := 0
  floor  : Nat := 0
  /-- the share the reclaim walk lowered the port to, in mW (R188) -/
  target : Option Nat := none
  /-- mW to be reclaimed for this port's Request (R187) -/
  claim  : Nat := 0
  /-- new capabilities wait for the end of a voltage change (R180) -/
  deferCaps : Bool := false
  /-- PD_TRANS.SLEW changed during a voltage change: written after PS_RDY (R208) -/
  slewPend : Bool := false
  frsCur : BitVec 2 := 0
  snkCapValid : Bool := false
  eprCap : Bool := false
  tandemVdo : Bool := false
  /-- the PDOs last sent, by object position (PD_ADV) -/
  adv    : Vector Word 11 := Vector.replicate 11 0
  /-- messages being sent: the head awaits its GoodCRC -/
  tx     : List PdMsg := []
  /-- a response is awaited (tSenderResponse runs): to which message -/
  await  : Option PdMsg := none
  swap   : SwapStep := .none
  capsCount : Nat := 0
  discCount : Nat := 0
  /-- cable discovery has ended in this attach -/
  discDone : Bool := false
  firstContract : Bool := false
  /-- the path has reached ON in this attach (R167) -/
  started : Bool := false
  /-- tPSHardReset runs; then VSNS below 0.8 V is awaited; then tSrcRecover runs (R181) -/
  hrst   : HrstStep := .none
  /-- an EPR exit runs (R175) -/
  eprExiting : Bool := false
  /-- EPR_Mode (Exit) came at a contract above 20 V: an SPR Request is awaited (R174) -/
  eprExitRx : Bool := false
  sinkTxNG : Bool := false
  /-- exchanges that wait for tSinkTx, or as sink for SinkTxOK (R194) -/
  sinkTxPend : List PdMsg := []
  /-- PU: the request to repeat after Wait (R164) -/
  lastReq : Option PdMsg := none
  /-- PU: PDOs of the source, SPR and EPR -/
  srcCaps : List Word := []
  lastAlert : Word := 0
  /-- OCP, OTP, OVP since the last Status (R197) -/
  evFlags : BitVec 3 := 0
  /-- the hub drives VBUS as the new source of a swap (R182) -/
  drivenNew : Bool := false
  /-- the sentinel's message buffer (R387) -/
  sentinel : Option (List Byte) := none
  /-- tSourceEPRKeepAlive expired in SLEEP: R174 follows after the wake (R387) -/
  kaLost : Bool := false
  /-- BIST runs: carrier or test data (R162) -/
  bist : Option Bool := none
  deriving DecidableEq, Repr

structure Port where
  pp : Pp := {}
  tc : Tc := {}
  pd : Pd := {}
  u  : UPort := {}
  tt : Tt := {}
  cl : Link := {}
  deriving DecidableEq, Repr

/-- One meter (R128, R129). -/
structure Meter where
  v : BitVec 16 := 0
  i : BitVec 16 := 0
  /-- the samples since it last started, newest first, at most 8192 -/
  window : List (Int × Int) := []
  /-- energy in mJ, 48 bits, and the residue in units of 1/32 nJ·1000 (mV·mA per 32 kS/s sample) -/
  energy : BitVec 48 := 0
  residue : Nat := 0
  cnt : Word := 0
  ipeak : BitVec 16 := 0
  vmin : BitVec 16 := 0
  sEnergy : BitVec 48 := 0
  sCnt : Word := 0
  sIpeak : BitVec 16 := 0
  sVmin : BitVec 16 := 0
  deriving DecidableEq, Repr

structure Meters where
  m : Vector Meter 21 := Vector.replicate 21 {}
  /-- MT_SSEQ, equal in every meter -/
  sseq : BitVec 16 := 0
  sStamp : TbTime := ⟨0, 0⟩
  /-- commits that named G10 since the last sample -/
  snapPend : Nat := 0
  deriving DecidableEq, Repr

structure MassWet where
  active : Bool := false
  /-- TB3 stamp of the last wet reading on any port (R157) -/
  lastWet : Nat := 0
  deriving DecidableEq, Repr

/-- The budget manager (06_pd_engine.md). Powers are in mW. -/
structure Bm where
  avail : Nat := 0
  /-- the previous, lower P_avail that shares are still computed from (R190) -/
  heldAvail : Option Nat := none
  cap : Nat := 0
  /-- VIN averaged over 256 ms, in mV (R184) -/
  vinAvg : Nat := 0
  deriving DecidableEq, Repr

/-- The whole hub. -/
structure State where
  pending : List Instr := []
  regs  : SMap Word := []
  loader : PathState := {}
  i2cP  : PathState := {}
  usbP  : PathState := {}
  i2c   : I2cEngine := {}
  glb   : Glb := {}
  pwr   : Pwr := {}
  evq   : Evq := {}
  flt   : Flt := {}
  feed  : Feed := {}
  dyn   : Dyn := {}
  pmb   : Pmb := {}
  nvm   : Nvm := {}
  img   : Img := {}
  sto   : Sto := {}
  hub   : Hub := {}
  efn   : Efn := {}
  tim   : Tim := {}
  cad   : Cad := {}
  ports : Vector Port 17 := Vector.replicate 17 {}
  mt    : Meters := {}
  mass  : MassWet := {}
  bm    : Bm := {}
  /-- the model's own counter: each use of a free value advances it -/
  free  : Nat := 0
  deriving DecidableEq, Repr

/-- Why the machine stops. -/
inductive Fault where
  /-- A command carries a stress outside the absolute maximum ratings, for which R459 gives no effect
  ("may be permanently damaged"). Raised by VIN_OVERVOLTAGE and CC_OVP, SBU_OVP. Safe: the model stops. -/
  | stressBeyondRating
  deriving DecidableEq, Repr

/-- Why a command has no meaning. -/
inductive Refusal where
  /-- The command is not modelled yet; only Dispatch.lean answers it. Safe: no claim follows from it. -/
  | notModelled (mnemonic : String)
  deriving DecidableEq, Repr

/-- The hub before any supply is good: every field at its default (R44, "Before any supply is good"). -/
def State.reset : State := {}

end Sys2Proof.Machine
end

