-- ==== Sys2Proof/Machine/RegMap.lean ====
section
/-! DEFINITION. The register map: the address of every register and every named field, and the table of
access types, reset values, commit groups and ranges. It follows the register tables of the owning chapters and the
address map of 17_register_access.md R442, R443; ranges under 00_scope.md R486. -/

namespace Sys2Proof.Machine

/-- A field of a register: its address, its lowest bit and its width. -/
structure Fld where
  addr : Nat
  lo   : Nat
  w    : Nat
  deriving DecidableEq, Repr

/-- Which instance a row of the port block exists in (R442). -/
inductive Scope where
  | all | pnOnly | puOnly
  deriving DecidableEq, Repr

/-- The commit group of a row (R443): `quad` is G2 to G5 on P0 to P15 and G6 on PU. -/
inductive Group where
  | none | fixed (g : Nat) | quad
  deriving DecidableEq, Repr

/-- A range inside a register: the field at `lo`, `w` bits wide, takes effect in `min`..`max` (R486). -/
structure Clamp where
  lo  : Nat
  w   : Nat
  min : Nat
  max : Nat
  deriving DecidableEq, Repr

/-- One row of the register tables: `cnt` registers from `off` in steps of `step`, the bits of each access type (R7),
the reset word, the commit group and the ranges. Bits in no mask are read-only or reserved. -/
structure RegRow where
  off   : Nat
  cnt   : Nat := 1
  step  : Nat := 4
  rw    : Word := 0
  rwc   : Word := 0
  rwk   : Word := 0
  rwkc  : Word := 0
  w1c   : Word := 0
  wo    : Word := 0
  reset : Word := 0
  grp   : Group := .none
  scope : Scope := .all
  clamp : List Clamp := []
  deriving DecidableEq, Repr

/-- The base of a port block: Pn at 0x01_0000 + n × 0x1000, PU at 0x02_0000 (R442). -/
def portBase (p : PortId) : Nat := 0x10000 + p.val * 0x1000

/-! ### Register addresses -/

namespace R

abbrev NVM_CMD : Nat := 0x6000
abbrev NVM_ADDR : Nat := 0x6004
abbrev NVM_LEN : Nat := 0x6008
abbrev NVM_STATUS : Nat := 0x600c
abbrev NVM_LOAD : Nat := 0x6010
abbrev NVM_SEQ_A : Nat := 0x6014
abbrev NVM_SEQ_B : Nat := 0x6018
abbrev NVM_OTP_ADDR : Nat := 0x6020
abbrev NVM_OTP_DATA : Nat := 0x6024
abbrev NVM_BUF (k : Nat) : Nat := 0x6100 + 4 * k
abbrev FEED_CTRL : Nat := 0x4000
abbrev FEED_VTH : Nat := 0x4004
abbrev FEED_LIM : Nat := 0x4008
abbrev FEED_UNLOCK : Nat := 0x400c
abbrev FEED_STATUS : Nat := 0x4010
abbrev FEED_FSTATE : Nat := 0x4014
abbrev FEED_EVT : Nat := 0x4018
abbrev FEED_BELL_DUR : Nat := 0x401c
abbrev FEED_VIN : Nat := 0x4020
abbrev AX0_CTRL : Nat := 0x4040
abbrev AX1_CTRL : Nat := 0x4060
abbrev AX0_STATUS : Nat := 0x4044
abbrev AX1_STATUS : Nat := 0x4064
abbrev PP_CTRL (p : PortId) : Nat := portBase p + 0x400
abbrev PP_ILIM (p : PortId) : Nat := portBase p + 0x404
abbrev PP_STATUS (p : PortId) : Nat := portBase p + 0x408
abbrev PP_UNLOCK (p : PortId) : Nat := portBase p + 0x40c
abbrev PP_EVT (p : PortId) : Nat := portBase p + 0x410
abbrev PP_IRATED (p : PortId) : Nat := portBase p + 0x414
abbrev PP_SOAE (p : PortId) : Nat := portBase p + 0x418
abbrev PP_BRKCFG (p : PortId) : Nat := portBase p + 0x440
abbrev PP_BRK (p : PortId) (k : Nat) : Nat := portBase p + 0x444 + 4 * k
abbrev MT_CFG (p : PortId) : Nat := portBase p + 0x600
abbrev MT_V (p : PortId) : Nat := portBase p + 0x604
abbrev MT_I (p : PortId) : Nat := portBase p + 0x608
abbrev MT_IAVG (p : PortId) : Nat := portBase p + 0x60c
abbrev MT_P (p : PortId) : Nat := portBase p + 0x610
abbrev MT_EXT (p : PortId) : Nat := portBase p + 0x614
abbrev MT_S_EXT (p : PortId) : Nat := portBase p + 0x634
abbrev MT_E_LO (p : PortId) : Nat := portBase p + 0x618
abbrev MT_S_E_LO (p : PortId) : Nat := portBase p + 0x628
abbrev MT_E_HI (p : PortId) : Nat := portBase p + 0x61c
abbrev MT_S_E_HI (p : PortId) : Nat := portBase p + 0x62c
abbrev MT_CNT (p : PortId) : Nat := portBase p + 0x620
abbrev MT_S_CNT (p : PortId) : Nat := portBase p + 0x630
abbrev MT_SSEQ (p : PortId) : Nat := portBase p + 0x624
abbrev MT_S_TS_S (p : PortId) : Nat := portBase p + 0x638
abbrev MT_S_TS_NS (p : PortId) : Nat := portBase p + 0x63c
abbrev TC_CTRL (p : PortId) : Nat := portBase p + 0x0
abbrev TC_CMD (p : PortId) : Nat := portBase p + 0x4
abbrev TC_STATUS (p : PortId) : Nat := portBase p + 0x8
abbrev TC_CABLE (p : PortId) : Nat := portBase p + 0xc
abbrev TC_MOIST (p : PortId) : Nat := portBase p + 0x10
abbrev TC_MSTAT (p : PortId) : Nat := portBase p + 0x14
abbrev TC_EVT (p : PortId) : Nat := portBase p + 0x18
abbrev TC_MASS_CFG : Nat := 0x20040
abbrev TC_MASS_STATUS : Nat := 0x20044
abbrev PD_CTRL (p : PortId) : Nat := portBase p + 0x200
abbrev PD_TRANS (p : PortId) : Nat := portBase p + 0x204
abbrev PD_CMD (p : PortId) : Nat := portBase p + 0x208
abbrev PD_STATUS (p : PortId) : Nat := portBase p + 0x20c
abbrev PD_CONTRACT (p : PortId) : Nat := portBase p + 0x210
abbrev PD_CONTRACT_V (p : PortId) : Nat := portBase p + 0x214
abbrev PD_GRANT (p : PortId) : Nat := portBase p + 0x218
abbrev PD_PARTNER (p : PortId) : Nat := portBase p + 0x21c
abbrev PD_EVT (p : PortId) : Nat := portBase p + 0x220
abbrev PD_PDOCNT (p : PortId) : Nat := portBase p + 0x23c
abbrev PD_PDO (p : PortId) (k : Nat) : Nat := portBase p + 0x240 + 4 * k
abbrev PD_ADV (p : PortId) (k : Nat) : Nat := portBase p + 0x280 + 4 * k
abbrev PD_BM_CFG : Nat := 0x202c0
abbrev PD_BM_AUX : Nat := 0x202c4
abbrev PD_BM_STATUS : Nat := 0x202c8
abbrev PD_BM_CAP : Nat := 0x202cc
abbrev PMB_CFG : Nat := 0x5000
abbrev PMB_STATUS : Nat := 0x5004
abbrev PMB_VERIFY : Nat := 0x5008
abbrev PMB_EVT : Nat := 0x500c
abbrev PMB_ERRCNT : Nat := 0x5010
abbrev PMB_TGT (k : Nat) : Nat := 0x5040 + 4 * k
abbrev PMB_TST (k : Nat) : Nat := 0x50a0 + 4 * k
abbrev PMB_SW_CTRL : Nat := 0x5100
abbrev PMB_SW_DATA : Nat := 0x5104
abbrev HUB_CONNECT : Nat := 0x8000
abbrev HUB_CFG : Nat := 0x8004
abbrev HUB_STATUS : Nat := 0x8008
abbrev HUB_EVT : Nat := 0x800c
abbrev HUB_P17 : Nat := 0x8010
abbrev HP_CTRL (p : PortId) : Nat := portBase p + 0xa00
abbrev HP_STATUS (p : PortId) : Nat := portBase p + 0xa04
abbrev HP_CHANGE (p : PortId) : Nat := portBase p + 0xa08
abbrev HP_L1 (p : PortId) : Nat := portBase p + 0xa0c
abbrev HP_ERR (p : PortId) : Nat := portBase p + 0xa10
abbrev HP_EVT (p : PortId) : Nat := portBase p + 0xa14
abbrev HP_TT_CTRL (p : PortId) : Nat := portBase p + 0xa40
abbrev HP_TT_CMD (p : PortId) : Nat := portBase p + 0xa44
abbrev HP_TT_STATUS (p : PortId) : Nat := portBase p + 0xa48
abbrev HP_TT_PAGES (p : PortId) : Nat := portBase p + 0xa4c
abbrev HP_TT_ERR (p : PortId) : Nat := portBase p + 0xa50
abbrev HP_TT_EVT (p : PortId) : Nat := portBase p + 0xa54
abbrev HP_TT_NP (p : PortId) (k : Nat) : Nat := portBase p + 0xa60 + 4 * k
abbrev EFN_CTRL : Nat := 0x9000
abbrev EFN_STATUS : Nat := 0x9004
abbrev EFN_CARVE : Nat := 0x9008
abbrev EFN_EVT : Nat := 0x900c
abbrev EFN_EP_BASE (k : Nat) : Nat := 0x9040 + 8 * k
abbrev EFN_EP_SIZE (k : Nat) : Nat := 0x9044 + 8 * k
abbrev EFN_EP_STAT (k : Nat) : Nat := 0x9080 + 4 * k
abbrev EFN_MTR_CTRL : Nat := 0x90c0
abbrev EFN_MTR_STAT : Nat := 0x90c4
abbrev EFN_MLOG_CTRL : Nat := 0x90c8
abbrev EFN_MLOG_WPTR : Nat := 0x90cc
abbrev EFN_ERRCNT : Nat := 0x90d0
abbrev STO_CFG : Nat := 0x7000
abbrev STO_STATUS : Nat := 0x7004
abbrev STO_SCRUB : Nat := 0x7008
abbrev STO_CMD : Nat := 0x700c
abbrev STO_BANK (k : Nat) : Nat := 0x7010 + 4 * k
abbrev STO_EVT : Nat := 0x7020
abbrev STO_UE_LAST : Nat := 0x7024
abbrev STO_FLIP_D : Nat := 0x7030
abbrev STO_FLIP_C : Nat := 0x7034
abbrev STO_ECCLOG (k : Nat) : Nat := 0x7040 + 4 * k
abbrev STO_RETIRE (k : Nat) : Nat := 0x7100 + 4 * k
abbrev STO_RGN (k : Nat) : Nat := 0x7140 + 8 * k
abbrev STO_RGNU (k : Nat) : Nat := 0x7144 + 8 * k
abbrev TIM_CTRL : Nat := 0xa000
abbrev TIM_STATUS : Nat := 0xa004
abbrev TIM_TB0_INC : Nat := 0xa008
abbrev TIM_TB0_ADJ : Nat := 0xa00c
abbrev TIM_TB0_SET_SHI : Nat := 0xa010
abbrev TIM_TP_AT_SHI : Nat := 0xa050
abbrev TIM_TB0_SET_SLO : Nat := 0xa014
abbrev TIM_TP_AT_SLO : Nat := 0xa054
abbrev TIM_TB0_SET_NS : Nat := 0xa018
abbrev TIM_TP_AT_NS : Nat := 0xa058
abbrev TIM_TB0_SHI : Nat := 0xa020
abbrev TIM_TB3_HI : Nat := 0xa044
abbrev TIM_TB0_SLO : Nat := 0xa024
abbrev TIM_TB0_NS : Nat := 0xa028
abbrev TIM_TB1_LO : Nat := 0xa030
abbrev TIM_TB1_HI : Nat := 0xa034
abbrev TIM_TB3_LO : Nat := 0xa040
abbrev TIM_TB0_FRAC : Nat := 0xa02c
abbrev TIM_TB2 : Nat := 0xa038
abbrev TIM_TB3_ALARM_LO : Nat := 0xa048
abbrev TIM_TB3_ALARM_HI : Nat := 0xa04c
abbrev TIM_CMD : Nat := 0xa05c
abbrev TIM_EVT : Nat := 0xa060
abbrev TIM_CAP_STAT (k : Nat) : Nat := 0xa080 + 0x20 * k
abbrev TIM_CAP_SLO (k : Nat) : Nat := 0xa084 + 0x20 * k
abbrev TIM_CAP_NS (k : Nat) : Nat := 0xa088 + 0x20 * k
abbrev TIM_CAP_TB1_LO (k : Nat) : Nat := 0xa08c + 0x20 * k
abbrev TIM_CAP_TB1_HI (k : Nat) : Nat := 0xa090 + 0x20 * k
abbrev TIM_CAP_AUX (k : Nat) : Nat := 0xa094 + 0x20 * k
abbrev CAD_MODE : Nat := 0xb000
abbrev CAD_CTRL : Nat := 0xb004
abbrev CAD_SRC : Nat := 0xb008
abbrev CAD_STATUS : Nat := 0xb00c
abbrev CAD_EVT : Nat := 0xb010
abbrev CAD_HOST : Nat := 0xb014
abbrev CAD_POOL : Nat := 0xb018
abbrev CAD_BQ_CTRL : Nat := 0xb040
abbrev CL_LQ_CTRL (p : PortId) : Nat := portBase p + 0x840
abbrev CAD_BQ_CMD : Nat := 0xb044
abbrev CL_LQ_CMD (p : PortId) : Nat := portBase p + 0x844
abbrev CAD_BQ_TAIL : Nat := 0xb048
abbrev CL_LQ_TAIL (p : PortId) : Nat := portBase p + 0x848
abbrev CAD_BQ_STATUS : Nat := 0xb04c
abbrev CL_LQ_STATUS (p : PortId) : Nat := portBase p + 0x84c
abbrev CL_CTRL (p : PortId) : Nat := portBase p + 0x800
abbrev CL_CMD (p : PortId) : Nat := portBase p + 0x804
abbrev CL_STATUS (p : PortId) : Nat := portBase p + 0x808
abbrev CL_PARTNER (p : PortId) : Nat := portBase p + 0x80c
abbrev CL_ERR0 (p : PortId) : Nat := portBase p + 0x810
abbrev CL_ERR1 (p : PortId) : Nat := portBase p + 0x814
abbrev CL_EVT (p : PortId) : Nat := portBase p + 0x818
abbrev CL_GRP (p : PortId) (k : Nat) : Nat := portBase p + 0x820 + 4 * k
abbrev CL_RX_CTRL (p : PortId) : Nat := portBase p + 0x860
abbrev CL_RX_RD (p : PortId) : Nat := portBase p + 0x864
abbrev CL_RX_STATUS (p : PortId) : Nat := portBase p + 0x868
abbrev CL_RX_LOST (p : PortId) : Nat := portBase p + 0x86c
abbrev CL_XS_STAT : Nat := 0x20900
abbrev PWR_CTRL : Nat := 0x1000
abbrev PWR_WAKE_EN : Nat := 0x1004
abbrev PWR_CMD : Nat := 0x1008
abbrev PWR_STATUS : Nat := 0x100c
abbrev PWR_WAKE_REC : Nat := 0x1010
abbrev PWR_WAKE_T3_LO : Nat := 0x1014
abbrev PWR_WAKE_T3_HI : Nat := 0x1018
abbrev PWR_WAKE_SRC : Nat := 0x101c
abbrev PWR_RET_STATUS : Nat := 0x1020
abbrev PWR_EVT : Nat := 0x1024
abbrev FLT_CFG : Nat := 0x2000
abbrev FLT_PIN : Nat := 0x2004
abbrev FLT_STATUS : Nat := 0x2008
abbrev FLT_CMD : Nat := 0x200c
abbrev FLT_TEMP : Nat := 0x2010
abbrev FLT_CNT_AB : Nat := 0x2014
abbrev FLT_CNT_CD : Nat := 0x2018
abbrev FLT_CAP_INFO : Nat := 0x2020
abbrev FLT_CAP_ADDR : Nat := 0x2024
abbrev FLT_CAP_T0S : Nat := 0x2028
abbrev FLT_CAP_T0NS : Nat := 0x202c
abbrev FLT_CAP_T1LO : Nat := 0x2030
abbrev FLT_CAP_T1HI : Nat := 0x2034
abbrev FLT_REACT (k : Nat) : Nat := 0x2040 + 4 * k
abbrev EVQ_CTRL : Nat := 0x3000
abbrev EVQ_STATUS : Nat := 0x3004
abbrev EVQ_LOST : Nat := 0x3008
abbrev EVQ_SEQ : Nat := 0x300c
abbrev EVQ_POP : Nat := 0x3010
abbrev EVQ_POP_D : Nat := 0x3014
abbrev EVQ_POP_S : Nat := 0x3018
abbrev EVQ_POP_NS : Nat := 0x301c
abbrev EVQ_CMD : Nat := 0x3020
abbrev GLB_ID : Nat := 0x0
abbrev GLB_CAPS : Nat := 0x4
abbrev GLB_STATUS : Nat := 0x8
abbrev GLB_RST_CAUSE : Nat := 0xc
abbrev GLB_LOCKRING : Nat := 0x10
abbrev GLB_COMMIT : Nat := 0x14
abbrev GLB_DISCARD : Nat := 0x18
abbrev GLB_RESET : Nat := 0x1c
abbrev GLB_TEST : Nat := 0x20
abbrev GLB_I2C_CFG : Nat := 0x24
abbrev GLB_PEND_I2C : Nat := 0x28
abbrev GLB_PEND_USB : Nat := 0x2c
abbrev GLB_COMMIT_AT_SHI : Nat := 0x30
abbrev GLB_COMMIT_AT_SLO : Nat := 0x34
abbrev GLB_COMMIT_AT_NS : Nat := 0x38
abbrev GLB_COMMIT_AT : Nat := 0x3c
abbrev GLB_EVT : Nat := 0x40
abbrev GLB_ERRCNT : Nat := 0x44
abbrev CL_XS_T1_SHI : Nat := 0x208c0
abbrev CL_XS_T1_SLO : Nat := 0x208c4
abbrev CL_XS_T1_NS : Nat := 0x208c8
abbrev CL_XS_C1_LO : Nat := 0x208cc
abbrev CL_XS_C1_HI : Nat := 0x208d0
abbrev CL_XS_T2_SHI : Nat := 0x208d4
abbrev CL_XS_T2_SLO : Nat := 0x208d8
abbrev CL_XS_T2_NS : Nat := 0x208dc
abbrev CL_XS_T3_SHI : Nat := 0x208e0
abbrev CL_XS_T3_SLO : Nat := 0x208e4
abbrev CL_XS_T3_NS : Nat := 0x208e8
abbrev CL_XS_T4_SHI : Nat := 0x208ec
abbrev CL_XS_T4_SLO : Nat := 0x208f0
abbrev CL_XS_T4_NS : Nat := 0x208f4
abbrev CL_XS_C2_LO : Nat := 0x208f8
abbrev CL_XS_C2_HI : Nat := 0x208fc

end R

/-- The first address of a brake-curve set: PP_BRKCFG of a port, or the set R101 names. -/
def brkBase : PathRef → Nat
  | .port p => portBase p + 0x440
  | .ax a => 0x4180 + a.val * 0x40

/-- The feeds' brake-curve sets (R101); FC uses PU's path. -/
def feedBrkBase : FeedId → Nat
  | .fa => 0x4100
  | .fb => 0x4140
  | .fc => portBase PU + 0x440

/-- The first address of a meter's registers (R101, 04_port_power_path.md, MT registers). -/
def mtBase (m : MeterId) : Nat :=
  if m.val < 17 then 0x10000 + m.val * 0x1000 + 0x600 else 0x4200 + (m.val - 17) * 0x40

/-! ### Fields -/

namespace F

abbrev NVM_CMD_SLOT : Fld := ⟨R.NVM_CMD, 8, 1⟩
abbrev NVM_CMD_OP : Fld := ⟨R.NVM_CMD, 0, 4⟩
abbrev NVM_ADDR_ADDR : Fld := ⟨R.NVM_ADDR, 0, 24⟩
abbrev NVM_LEN_LEN : Fld := ⟨R.NVM_LEN, 0, 9⟩
abbrev NVM_STATUS_VERDICT : Fld := ⟨R.NVM_STATUS, 8, 8⟩
abbrev NVM_STATUS_RESULT : Fld := ⟨R.NVM_STATUS, 4, 4⟩
abbrev NVM_STATUS_BUSY : Fld := ⟨R.NVM_STATUS, 0, 1⟩
abbrev NVM_LOAD_CAUSE_REC : Fld := ⟨R.NVM_LOAD, 17, 1⟩
abbrev NVM_LOAD_SIGNED_MODE : Fld := ⟨R.NVM_LOAD, 16, 1⟩
abbrev NVM_LOAD_B_RESULT : Fld := ⟨R.NVM_LOAD, 8, 4⟩
abbrev NVM_LOAD_A_RESULT : Fld := ⟨R.NVM_LOAD, 4, 4⟩
abbrev NVM_LOAD_ACTIVE : Fld := ⟨R.NVM_LOAD, 0, 2⟩
abbrev NVM_SEQ_A_SEQ : Fld := ⟨R.NVM_SEQ_A, 0, 32⟩
abbrev NVM_SEQ_B_SEQ : Fld := ⟨R.NVM_SEQ_B, 0, 32⟩
abbrev NVM_OTP_ADDR_WORD : Fld := ⟨R.NVM_OTP_ADDR, 0, 6⟩
abbrev NVM_OTP_DATA_DATA : Fld := ⟨R.NVM_OTP_DATA, 0, 32⟩
abbrev NVM_BUF_DATA (k : Nat) : Fld := ⟨(R.NVM_BUF k), 0, 32⟩
abbrev FEED_CTRL_REVERT : Fld := ⟨R.FEED_CTRL, 16, 8⟩
abbrev FEED_CTRL_PIN : Fld := ⟨R.FEED_CTRL, 12, 2⟩
abbrev FEED_CTRL_ENABLE : Fld := ⟨R.FEED_CTRL, 6, 6⟩
abbrev FEED_CTRL_PRIO : Fld := ⟨R.FEED_CTRL, 0, 6⟩
abbrev FEED_VTH_HOLD : Fld := ⟨R.FEED_VTH, 16, 8⟩
abbrev FEED_VTH_WARN : Fld := ⟨R.FEED_VTH, 0, 7⟩
abbrev FEED_LIM_RAMP : Fld := ⟨R.FEED_LIM, 24, 8⟩
abbrev FEED_LIM_FC_MAX : Fld := ⟨R.FEED_LIM, 16, 8⟩
abbrev FEED_LIM_FB_MAX : Fld := ⟨R.FEED_LIM, 8, 8⟩
abbrev FEED_LIM_FA_MAX : Fld := ⟨R.FEED_LIM, 0, 8⟩
abbrev FEED_UNLOCK_UNLOCK : Fld := ⟨R.FEED_UNLOCK, 0, 6⟩
abbrev FEED_STATUS_TANDEM : Fld := ⟨R.FEED_STATUS, 15, 1⟩
abbrev FEED_STATUS_DEGRADED : Fld := ⟨R.FEED_STATUS, 14, 1⟩
abbrev FEED_STATUS_BELL : Fld := ⟨R.FEED_STATUS, 13, 1⟩
abbrev FEED_STATUS_SWITCHING : Fld := ⟨R.FEED_STATUS, 12, 1⟩
abbrev FEED_STATUS_FT_PRESENT : Fld := ⟨R.FEED_STATUS, 7, 1⟩
abbrev FEED_STATUS_SEL : Fld := ⟨R.FEED_STATUS, 0, 2⟩
abbrev FEED_FSTATE_FC : Fld := ⟨R.FEED_FSTATE, 16, 8⟩
abbrev FEED_FSTATE_FB : Fld := ⟨R.FEED_FSTATE, 8, 8⟩
abbrev FEED_FSTATE_FA : Fld := ⟨R.FEED_FSTATE, 0, 8⟩
abbrev FEED_EVT_EVT : Fld := ⟨R.FEED_EVT, 0, 10⟩
abbrev FEED_BELL_DUR_DUR : Fld := ⟨R.FEED_BELL_DUR, 0, 32⟩
abbrev FEED_VIN_VTAN : Fld := ⟨R.FEED_VIN, 16, 16⟩
abbrev FEED_VIN_VIN : Fld := ⟨R.FEED_VIN, 0, 16⟩
abbrev AX0_CTRL_RETRY : Fld := ⟨R.AX0_CTRL, 0, 8⟩
abbrev AX1_CTRL_RETRY : Fld := ⟨R.AX1_CTRL, 0, 8⟩
abbrev AX0_STATUS_RETRIES : Fld := ⟨R.AX0_STATUS, 8, 4⟩
abbrev AX0_STATUS_CAUSE : Fld := ⟨R.AX0_STATUS, 4, 3⟩
abbrev AX0_STATUS_PGOOD : Fld := ⟨R.AX0_STATUS, 3, 1⟩
abbrev AX0_STATUS_STATE : Fld := ⟨R.AX0_STATUS, 0, 3⟩
abbrev AX1_STATUS_RETRIES : Fld := ⟨R.AX1_STATUS, 8, 4⟩
abbrev AX1_STATUS_CAUSE : Fld := ⟨R.AX1_STATUS, 4, 3⟩
abbrev AX1_STATUS_PGOOD : Fld := ⟨R.AX1_STATUS, 3, 1⟩
abbrev AX1_STATUS_STATE : Fld := ⟨R.AX1_STATUS, 0, 3⟩
abbrev PP_CTRL_EPR_CLASS (p : PortId) : Fld := ⟨(R.PP_CTRL p), 24, 1⟩
abbrev PP_CTRL_RAMP (p : PortId) : Fld := ⟨(R.PP_CTRL p), 16, 8⟩
abbrev PP_CTRL_RETRY_CNT (p : PortId) : Fld := ⟨(R.PP_CTRL p), 12, 4⟩
abbrev PP_CTRL_BACKOFF (p : PortId) : Fld := ⟨(R.PP_CTRL p), 8, 4⟩
abbrev PP_CTRL_FORCE_OFF (p : PortId) : Fld := ⟨(R.PP_CTRL p), 0, 1⟩
abbrev PP_ILIM_BM_ILIM (p : PortId) : Fld := ⟨(R.PP_ILIM p), 16, 10⟩
abbrev PP_ILIM_ILIM (p : PortId) : Fld := ⟨(R.PP_ILIM p), 0, 10⟩
abbrev PP_STATUS_BRK_ACTIVE (p : PortId) : Fld := ⟨(R.PP_STATUS p), 24, 8⟩
abbrev PP_STATUS_SUPPRESS (p : PortId) : Fld := ⟨(R.PP_STATUS p), 12, 1⟩
abbrev PP_STATUS_RETRIES (p : PortId) : Fld := ⟨(R.PP_STATUS p), 8, 4⟩
abbrev PP_STATUS_CAUSE (p : PortId) : Fld := ⟨(R.PP_STATUS p), 4, 4⟩
abbrev PP_STATUS_STATE (p : PortId) : Fld := ⟨(R.PP_STATUS p), 0, 3⟩
abbrev PP_UNLOCK_UNLOCK (p : PortId) : Fld := ⟨(R.PP_UNLOCK p), 0, 1⟩
abbrev PP_EVT_EVT (p : PortId) : Fld := ⟨(R.PP_EVT p), 0, 6⟩
abbrev PP_IRATED_FAST_TH (p : PortId) : Fld := ⟨(R.PP_IRATED p), 16, 12⟩
abbrev PP_IRATED_I_RATED (p : PortId) : Fld := ⟨(R.PP_IRATED p), 0, 10⟩
abbrev PP_SOAE_SOAE (p : PortId) : Fld := ⟨(R.PP_SOAE p), 0, 16⟩
abbrev PP_BRKCFG_FAST (p : PortId) : Fld := ⟨(R.PP_BRKCFG p), 16, 8⟩
abbrev PP_BRKCFG_SOA_MJ (p : PortId) : Fld := ⟨(R.PP_BRKCFG p), 0, 16⟩
abbrev PP_BRK_T_CODE (p : PortId) (k : Nat) : Fld := ⟨(R.PP_BRK p k), 16, 8⟩
abbrev PP_BRK_I_TH (p : PortId) (k : Nat) : Fld := ⟨(R.PP_BRK p k), 0, 16⟩
abbrev TC_CTRL_MPERIOD (p : PortId) : Fld := ⟨(R.TC_CTRL p), 8, 8⟩
abbrev TC_CTRL_MOIST_EN (p : PortId) : Fld := ⟨(R.TC_CTRL p), 5, 1⟩
abbrev TC_CTRL_TRY_EN (p : PortId) : Fld := ⟨(R.TC_CTRL p), 4, 1⟩
abbrev TC_CTRL_RP_ADV (p : PortId) : Fld := ⟨(R.TC_CTRL p), 2, 2⟩
abbrev TC_CTRL_DISABLE (p : PortId) : Fld := ⟨(R.TC_CTRL p), 0, 1⟩
abbrev TC_CMD_MOIST_TEST (p : PortId) : Fld := ⟨(R.TC_CMD p), 1, 1⟩
abbrev TC_CMD_ERR_RECOVERY (p : PortId) : Fld := ⟨(R.TC_CMD p), 0, 1⟩
abbrev TC_STATUS_SINK_ONLY (p : PortId) : Fld := ⟨(R.TC_STATUS p), 11, 1⟩
abbrev TC_STATUS_CABLE_RA (p : PortId) : Fld := ⟨(R.TC_STATUS p), 10, 1⟩
abbrev TC_STATUS_RP (p : PortId) : Fld := ⟨(R.TC_STATUS p), 8, 2⟩
abbrev TC_STATUS_ACC_SEEN (p : PortId) : Fld := ⟨(R.TC_STATUS p), 7, 1⟩
abbrev TC_STATUS_RD_RULE (p : PortId) : Fld := ⟨(R.TC_STATUS p), 6, 1⟩
abbrev TC_STATUS_VCONN_ON (p : PortId) : Fld := ⟨(R.TC_STATUS p), 5, 1⟩
abbrev TC_STATUS_ORIENT (p : PortId) : Fld := ⟨(R.TC_STATUS p), 4, 1⟩
abbrev TC_STATUS_STATE (p : PortId) : Fld := ⟨(R.TC_STATUS p), 0, 4⟩
abbrev TC_CABLE_VCONN_I (p : PortId) : Fld := ⟨(R.TC_CABLE p), 8, 8⟩
abbrev TC_CABLE_EPR_OK (p : PortId) : Fld := ⟨(R.TC_CABLE p), 4, 1⟩
abbrev TC_CABLE_V_50 (p : PortId) : Fld := ⟨(R.TC_CABLE p), 3, 1⟩
abbrev TC_CABLE_I_5A (p : PortId) : Fld := ⟨(R.TC_CABLE p), 2, 1⟩
abbrev TC_CABLE_EMARKED (p : PortId) : Fld := ⟨(R.TC_CABLE p), 1, 1⟩
abbrev TC_CABLE_VALID (p : PortId) : Fld := ⟨(R.TC_CABLE p), 0, 1⟩
abbrev TC_MOIST_SBU2 (p : PortId) : Fld := ⟨(R.TC_MOIST p), 24, 8⟩
abbrev TC_MOIST_SBU1 (p : PortId) : Fld := ⟨(R.TC_MOIST p), 16, 8⟩
abbrev TC_MOIST_CC2 (p : PortId) : Fld := ⟨(R.TC_MOIST p), 8, 8⟩
abbrev TC_MOIST_CC1 (p : PortId) : Fld := ⟨(R.TC_MOIST p), 0, 8⟩
abbrev TC_MSTAT_WET_CNT (p : PortId) : Fld := ⟨(R.TC_MSTAT p), 16, 16⟩
abbrev TC_MSTAT_DRY_CNT (p : PortId) : Fld := ⟨(R.TC_MSTAT p), 2, 2⟩
abbrev TC_MSTAT_MSTATE (p : PortId) : Fld := ⟨(R.TC_MSTAT p), 0, 2⟩
abbrev TC_EVT_EVT (p : PortId) : Fld := ⟨(R.TC_EVT p), 0, 11⟩
abbrev TC_MASS_CFG_SHED : Fld := ⟨R.TC_MASS_CFG, 16, 16⟩
abbrev TC_MASS_CFG_WIN : Fld := ⟨R.TC_MASS_CFG, 8, 4⟩
abbrev TC_MASS_CFG_ACTION : Fld := ⟨R.TC_MASS_CFG, 6, 2⟩
abbrev TC_MASS_CFG_COUNT : Fld := ⟨R.TC_MASS_CFG, 0, 5⟩
abbrev TC_MASS_STATUS_WET_MASK : Fld := ⟨R.TC_MASS_STATUS, 16, 16⟩
abbrev TC_MASS_STATUS_ACTIVE : Fld := ⟨R.TC_MASS_STATUS, 0, 1⟩
abbrev PD_CTRL_MAX_W (p : PortId) : Fld := ⟨(R.PD_CTRL p), 8, 8⟩
abbrev PD_CTRL_REV_2 (p : PortId) : Fld := ⟨(R.PD_CTRL p), 7, 1⟩
abbrev PD_CTRL_TANDEM (p : PortId) : Fld := ⟨(R.PD_CTRL p), 6, 1⟩
abbrev PD_CTRL_PRS_ACCEPT (p : PortId) : Fld := ⟨(R.PD_CTRL p), 5, 1⟩
abbrev PD_CTRL_EPR_EN (p : PortId) : Fld := ⟨(R.PD_CTRL p), 4, 1⟩
abbrev PD_CTRL_EPR_CLASS (p : PortId) : Fld := ⟨(R.PD_CTRL p), 3, 1⟩
abbrev PD_CTRL_PRIO (p : PortId) : Fld := ⟨(R.PD_CTRL p), 0, 3⟩
abbrev PD_TRANS_SLEW (p : PortId) : Fld := ⟨(R.PD_TRANS p), 16, 5⟩
abbrev PD_TRANS_WINDOW (p : PortId) : Fld := ⟨(R.PD_TRANS p), 0, 10⟩
abbrev PD_CMD_EPR_EXIT (p : PortId) : Fld := ⟨(R.PD_CMD p), 6, 1⟩
abbrev PD_CMD_GET_SINK_CAP (p : PortId) : Fld := ⟨(R.PD_CMD p), 5, 1⟩
abbrev PD_CMD_SEND_CAPS (p : PortId) : Fld := ⟨(R.PD_CMD p), 4, 1⟩
abbrev PD_CMD_VCONN_SWAP (p : PortId) : Fld := ⟨(R.PD_CMD p), 3, 1⟩
abbrev PD_CMD_PR_SWAP (p : PortId) : Fld := ⟨(R.PD_CMD p), 2, 1⟩
abbrev PD_CMD_HARD_RESET (p : PortId) : Fld := ⟨(R.PD_CMD p), 1, 1⟩
abbrev PD_CMD_SOFT_RESET (p : PortId) : Fld := ⟨(R.PD_CMD p), 0, 1⟩
abbrev PD_STATUS_HRST_CNT (p : PortId) : Fld := ⟨(R.PD_STATUS p), 12, 4⟩
abbrev PD_STATUS_TABLE_ERR (p : PortId) : Fld := ⟨(R.PD_STATUS p), 11, 1⟩
abbrev PD_STATUS_BM_LIMITED (p : PortId) : Fld := ⟨(R.PD_STATUS p), 10, 1⟩
abbrev PD_STATUS_CAPPED (p : PortId) : Fld := ⟨(R.PD_STATUS p), 9, 1⟩
abbrev PD_STATUS_EPR (p : PortId) : Fld := ⟨(R.PD_STATUS p), 8, 1⟩
abbrev PD_STATUS_VCONN_SRC (p : PortId) : Fld := ⟨(R.PD_STATUS p), 7, 1⟩
abbrev PD_STATUS_SOURCE (p : PortId) : Fld := ⟨(R.PD_STATUS p), 6, 1⟩
abbrev PD_STATUS_REV (p : PortId) : Fld := ⟨(R.PD_STATUS p), 4, 2⟩
abbrev PD_STATUS_PSTATE (p : PortId) : Fld := ⟨(R.PD_STATUS p), 0, 4⟩
abbrev PD_CONTRACT_RDO (p : PortId) : Fld := ⟨(R.PD_CONTRACT p), 0, 32⟩
abbrev PD_CONTRACT_V_I (p : PortId) : Fld := ⟨(R.PD_CONTRACT_V p), 16, 10⟩
abbrev PD_CONTRACT_V_V (p : PortId) : Fld := ⟨(R.PD_CONTRACT_V p), 0, 16⟩
abbrev PD_GRANT_SHARE (p : PortId) : Fld := ⟨(R.PD_GRANT p), 16, 16⟩
abbrev PD_GRANT_GRANT (p : PortId) : Fld := ⟨(R.PD_GRANT p), 0, 16⟩
abbrev PD_PARTNER_TANDEM_VDO (p : PortId) : Fld := ⟨(R.PD_PARTNER p), 4, 1⟩
abbrev PD_PARTNER_EPR_CAP (p : PortId) : Fld := ⟨(R.PD_PARTNER p), 3, 1⟩
abbrev PD_PARTNER_SNKCAP_VALID (p : PortId) : Fld := ⟨(R.PD_PARTNER p), 2, 1⟩
abbrev PD_PARTNER_FRS_CUR (p : PortId) : Fld := ⟨(R.PD_PARTNER p), 0, 2⟩
abbrev PD_EVT_EVT (p : PortId) : Fld := ⟨(R.PD_EVT p), 0, 15⟩
abbrev PD_PDOCNT_N_EPR (p : PortId) : Fld := ⟨(R.PD_PDOCNT p), 4, 3⟩
abbrev PD_PDOCNT_N_SPR (p : PortId) : Fld := ⟨(R.PD_PDOCNT p), 0, 3⟩
abbrev PD_PDO_PDO (p : PortId) (k : Nat) : Fld := ⟨(R.PD_PDO p k), 0, 32⟩
abbrev PD_ADV_PDO (p : PortId) (k : Nat) : Fld := ⟨(R.PD_ADV p k), 0, 32⟩
abbrev PD_BM_CFG_PREEMPT : Fld := ⟨R.PD_BM_CFG, 31, 1⟩
abbrev PD_BM_CFG_DEGR : Fld := ⟨R.PD_BM_CFG, 24, 7⟩
abbrev PD_BM_CFG_EFF : Fld := ⟨R.PD_BM_CFG, 16, 8⟩
abbrev PD_BM_CFG_BUDGET : Fld := ⟨R.PD_BM_CFG, 0, 12⟩
abbrev PD_BM_AUX_RAISE_DLY : Fld := ⟨R.PD_BM_AUX, 24, 8⟩
abbrev PD_BM_AUX_RENEG_TO : Fld := ⟨R.PD_BM_AUX, 16, 8⟩
abbrev PD_BM_AUX_AUX_W : Fld := ⟨R.PD_BM_AUX, 0, 10⟩
abbrev PD_BM_STATUS_GRANTED : Fld := ⟨R.PD_BM_STATUS, 16, 16⟩
abbrev PD_BM_STATUS_AVAIL : Fld := ⟨R.PD_BM_STATUS, 0, 16⟩
abbrev PD_BM_CAP_HARDLIMIT : Fld := ⟨R.PD_BM_CAP, 18, 1⟩
abbrev PD_BM_CAP_DEFICIT : Fld := ⟨R.PD_BM_CAP, 17, 1⟩
abbrev PD_BM_CAP_DEGRADED : Fld := ⟨R.PD_BM_CAP, 16, 1⟩
abbrev PD_BM_CAP_CAP : Fld := ⟨R.PD_BM_CAP, 0, 16⟩
abbrev PMB_CFG_TON_MAX : Fld := ⟨R.PMB_CFG, 8, 8⟩
abbrev PMB_CFG_ALERT_EN : Fld := ⟨R.PMB_CFG, 2, 1⟩
abbrev PMB_CFG_SPEED : Fld := ⟨R.PMB_CFG, 0, 2⟩
abbrev PMB_STATUS_QUEUED : Fld := ⟨R.PMB_STATUS, 8, 8⟩
abbrev PMB_STATUS_INDEX : Fld := ⟨R.PMB_STATUS, 3, 5⟩
abbrev PMB_STATUS_ALERT : Fld := ⟨R.PMB_STATUS, 2, 1⟩
abbrev PMB_STATUS_STUCK : Fld := ⟨R.PMB_STATUS, 1, 1⟩
abbrev PMB_STATUS_BUSY : Fld := ⟨R.PMB_STATUS, 0, 1⟩
abbrev PMB_VERIFY_TGT : Fld := ⟨R.PMB_VERIFY, 0, 24⟩
abbrev PMB_EVT_EVT : Fld := ⟨R.PMB_EVT, 0, 7⟩
abbrev PMB_ERRCNT_PEC : Fld := ⟨R.PMB_ERRCNT, 16, 16⟩
abbrev PMB_ERRCNT_NAK : Fld := ⟨R.PMB_ERRCNT, 0, 16⟩
abbrev PMB_TGT_CAUSE (k : Nat) : Fld := ⟨(R.PMB_TGT k), 28, 4⟩
abbrev PMB_TGT_STATE (k : Nat) : Fld := ⟨(R.PMB_TGT k), 24, 2⟩
abbrev PMB_TGT_REQUIRED (k : Nat) : Fld := ⟨(R.PMB_TGT k), 16, 1⟩
abbrev PMB_TGT_ROLE (k : Nat) : Fld := ⟨(R.PMB_TGT k), 8, 8⟩
abbrev PMB_TGT_ADDR (k : Nat) : Fld := ⟨(R.PMB_TGT k), 0, 7⟩
abbrev PMB_TST_VOUT (k : Nat) : Fld := ⟨(R.PMB_TST k), 16, 16⟩
abbrev PMB_TST_STATUS (k : Nat) : Fld := ⟨(R.PMB_TST k), 0, 16⟩
abbrev PMB_SW_CTRL_BUSY : Fld := ⟨R.PMB_SW_CTRL, 31, 1⟩
abbrev PMB_SW_CTRL_RESULT : Fld := ⟨R.PMB_SW_CTRL, 24, 4⟩
abbrev PMB_SW_CTRL_GO : Fld := ⟨R.PMB_SW_CTRL, 20, 1⟩
abbrev PMB_SW_CTRL_READ : Fld := ⟨R.PMB_SW_CTRL, 19, 1⟩
abbrev PMB_SW_CTRL_LEN : Fld := ⟨R.PMB_SW_CTRL, 17, 2⟩
abbrev PMB_SW_CTRL_CODE : Fld := ⟨R.PMB_SW_CTRL, 8, 9⟩
abbrev PMB_SW_CTRL_INDEX : Fld := ⟨R.PMB_SW_CTRL, 0, 5⟩
abbrev PMB_SW_DATA_DATA : Fld := ⟨R.PMB_SW_DATA, 0, 16⟩
abbrev HUB_CONNECT_DISCONNECT : Fld := ⟨R.HUB_CONNECT, 1, 1⟩
abbrev HUB_CONNECT_CONNECT : Fld := ⟨R.HUB_CONNECT, 0, 1⟩
abbrev HUB_CFG_HOLD_CONNECT : Fld := ⟨R.HUB_CFG, 5, 1⟩
abbrev HUB_CFG_PWR_COUPLED : Fld := ⟨R.HUB_CFG, 4, 1⟩
abbrev HUB_CFG_FS_ONLY : Fld := ⟨R.HUB_CFG, 3, 1⟩
abbrev HUB_CFG_D_L1_EN : Fld := ⟨R.HUB_CFG, 1, 1⟩
abbrev HUB_CFG_U_L1_EN : Fld := ⟨R.HUB_CFG, 0, 1⟩
abbrev HUB_STATUS_ADDR : Fld := ⟨R.HUB_STATUS, 16, 7⟩
abbrev HUB_STATUS_IDENT : Fld := ⟨R.HUB_STATUS, 12, 1⟩
abbrev HUB_STATUS_RWAKE_EN : Fld := ⟨R.HUB_STATUS, 11, 1⟩
abbrev HUB_STATUS_L1 : Fld := ⟨R.HUB_STATUS, 10, 1⟩
abbrev HUB_STATUS_SUSPENDED : Fld := ⟨R.HUB_STATUS, 9, 1⟩
abbrev HUB_STATUS_ALT : Fld := ⟨R.HUB_STATUS, 8, 1⟩
abbrev HUB_STATUS_SPEED : Fld := ⟨R.HUB_STATUS, 4, 2⟩
abbrev HUB_STATUS_USB_STATE : Fld := ⟨R.HUB_STATUS, 0, 3⟩
abbrev HUB_EVT_EVT : Fld := ⟨R.HUB_EVT, 0, 9⟩
abbrev HUB_P17_CHANGE : Fld := ⟨R.HUB_P17, 16, 16⟩
abbrev HUB_P17_PSTAT : Fld := ⟨R.HUB_P17, 0, 16⟩
abbrev HP_CTRL_L1_EN (p : PortId) : Fld := ⟨(R.HP_CTRL p), 1, 1⟩
abbrev HP_CTRL_USB_DIS (p : PortId) : Fld := ⟨(R.HP_CTRL p), 0, 1⟩
abbrev HP_STATUS_USTATE (p : PortId) : Fld := ⟨(R.HP_STATUS p), 28, 4⟩
abbrev HP_STATUS_SPEED (p : PortId) : Fld := ⟨(R.HP_STATUS p), 26, 2⟩
abbrev HP_STATUS_GATED (p : PortId) : Fld := ⟨(R.HP_STATUS p), 25, 1⟩
abbrev HP_STATUS_RWAKE_SEEN (p : PortId) : Fld := ⟨(R.HP_STATUS p), 24, 1⟩
abbrev HP_STATUS_SUSP_KIND (p : PortId) : Fld := ⟨(R.HP_STATUS p), 22, 2⟩
abbrev HP_STATUS_PSTAT (p : PortId) : Fld := ⟨(R.HP_STATUS p), 0, 16⟩
abbrev HP_CHANGE_CHANGE (p : PortId) : Fld := ⟨(R.HP_CHANGE p), 0, 16⟩
abbrev HP_L1_DEV_ADDR (p : PortId) : Fld := ⟨(R.HP_L1 p), 16, 7⟩
abbrev HP_L1_RESULT (p : PortId) : Fld := ⟨(R.HP_L1 p), 8, 3⟩
abbrev HP_L1_RWE (p : PortId) : Fld := ⟨(R.HP_L1 p), 4, 1⟩
abbrev HP_L1_BESL (p : PortId) : Fld := ⟨(R.HP_L1 p), 0, 4⟩
abbrev HP_ERR_RESETS (p : PortId) : Fld := ⟨(R.HP_ERR p), 16, 16⟩
abbrev HP_ERR_DISABLES (p : PortId) : Fld := ⟨(R.HP_ERR p), 0, 16⟩
abbrev HP_EVT_EVT (p : PortId) : Fld := ⟨(R.HP_EVT p), 0, 10⟩
abbrev HP_TT_CTRL_STALE (p : PortId) : Fld := ⟨(R.HP_TT_CTRL p), 0, 8⟩
abbrev HP_TT_CMD_CLEAR_NP (p : PortId) : Fld := ⟨(R.HP_TT_CMD p), 1, 1⟩
abbrev HP_TT_CMD_RESET (p : PortId) : Fld := ⟨(R.HP_TT_CMD p), 0, 1⟩
abbrev HP_TT_STATUS_PREC (p : PortId) : Fld := ⟨(R.HP_TT_STATUS p), 8, 8⟩
abbrev HP_TT_STATUS_NP_DONE (p : PortId) : Fld := ⟨(R.HP_TT_STATUS p), 4, 4⟩
abbrev HP_TT_STATUS_STATE (p : PortId) : Fld := ⟨(R.HP_TT_STATUS p), 0, 2⟩
abbrev HP_TT_PAGES_P1 (p : PortId) : Fld := ⟨(R.HP_TT_PAGES p), 18, 9⟩
abbrev HP_TT_PAGES_P0 (p : PortId) : Fld := ⟨(R.HP_TT_PAGES p), 9, 9⟩
abbrev HP_TT_PAGES_NP (p : PortId) : Fld := ⟨(R.HP_TT_PAGES p), 0, 9⟩
abbrev HP_TT_ERR_OVERRUN (p : PortId) : Fld := ⟨(R.HP_TT_ERR p), 24, 8⟩
abbrev HP_TT_ERR_POISON (p : PortId) : Fld := ⟨(R.HP_TT_ERR p), 16, 8⟩
abbrev HP_TT_ERR_XACT_ERR (p : PortId) : Fld := ⟨(R.HP_TT_ERR p), 0, 16⟩
abbrev HP_TT_EVT_EVT (p : PortId) : Fld := ⟨(R.HP_TT_EVT p), 0, 6⟩
abbrev HP_TT_NP_STATE (p : PortId) (k : Nat) : Fld := ⟨(R.HP_TT_NP p k), 30, 2⟩
abbrev HP_TT_NP_RESULT (p : PortId) (k : Nat) : Fld := ⟨(R.HP_TT_NP p k), 27, 3⟩
abbrev HP_TT_NP_TYPE (p : PortId) (k : Nat) : Fld := ⟨(R.HP_TT_NP p k), 26, 1⟩
abbrev HP_TT_NP_DIR (p : PortId) (k : Nat) : Fld := ⟨(R.HP_TT_NP p k), 25, 1⟩
abbrev HP_TT_NP_ADDR (p : PortId) (k : Nat) : Fld := ⟨(R.HP_TT_NP p k), 16, 7⟩
abbrev HP_TT_NP_EP (p : PortId) (k : Nat) : Fld := ⟨(R.HP_TT_NP p k), 12, 4⟩
abbrev HP_TT_NP_AGE (p : PortId) (k : Nat) : Fld := ⟨(R.HP_TT_NP p k), 0, 12⟩
abbrev EFN_CTRL_EVQ_PUSH : Fld := ⟨R.EFN_CTRL, 0, 1⟩
abbrev EFN_STATUS_ADDR : Fld := ⟨R.EFN_STATUS, 16, 7⟩
abbrev EFN_STATUS_BATCH : Fld := ⟨R.EFN_STATUS, 8, 2⟩
abbrev EFN_STATUS_USB_STATE : Fld := ⟨R.EFN_STATUS, 0, 3⟩
abbrev EFN_CARVE_RETIRED_IN_USE : Fld := ⟨R.EFN_CARVE, 16, 1⟩
abbrev EFN_CARVE_BAD_E : Fld := ⟨R.EFN_CARVE, 8, 3⟩
abbrev EFN_CARVE_RESULT : Fld := ⟨R.EFN_CARVE, 4, 4⟩
abbrev EFN_CARVE_APPLY : Fld := ⟨R.EFN_CARVE, 0, 1⟩
abbrev EFN_EVT_EVT : Fld := ⟨R.EFN_EVT, 0, 6⟩
abbrev EFN_EP_BASE_ACT (k : Nat) : Fld := ⟨(R.EFN_EP_BASE k), 16, 16⟩
abbrev EFN_EP_BASE_BASE (k : Nat) : Fld := ⟨(R.EFN_EP_BASE k), 0, 16⟩
abbrev EFN_EP_SIZE_ACT (k : Nat) : Fld := ⟨(R.EFN_EP_SIZE k), 16, 9⟩
abbrev EFN_EP_SIZE_SIZE (k : Nat) : Fld := ⟨(R.EFN_EP_SIZE k), 0, 9⟩
abbrev EFN_EP_STAT_POISON_CNT (k : Nat) : Fld := ⟨(R.EFN_EP_STAT k), 24, 8⟩
abbrev EFN_EP_STAT_HALTED (k : Nat) : Fld := ⟨(R.EFN_EP_STAT k), 20, 1⟩
abbrev EFN_EP_STAT_TOGGLE (k : Nat) : Fld := ⟨(R.EFN_EP_STAT k), 19, 1⟩
abbrev EFN_EP_STAT_FILL (k : Nat) : Fld := ⟨(R.EFN_EP_STAT k), 0, 15⟩
abbrev EFN_MTR_CTRL_EN : Fld := ⟨R.EFN_MTR_CTRL, 31, 1⟩
abbrev EFN_MTR_CTRL_TICK : Fld := ⟨R.EFN_MTR_CTRL, 21, 10⟩
abbrev EFN_MTR_CTRL_MASK : Fld := ⟨R.EFN_MTR_CTRL, 0, 21⟩
abbrev EFN_MTR_STAT_TICKSEQ : Fld := ⟨R.EFN_MTR_STAT, 16, 16⟩
abbrev EFN_MTR_STAT_LOST : Fld := ⟨R.EFN_MTR_STAT, 0, 16⟩
abbrev EFN_MLOG_CTRL_MASK : Fld := ⟨R.EFN_MLOG_CTRL, 0, 21⟩
abbrev EFN_MLOG_WPTR_WRAP : Fld := ⟨R.EFN_MLOG_WPTR, 20, 12⟩
abbrev EFN_MLOG_WPTR_WPTR : Fld := ⟨R.EFN_MLOG_WPTR, 0, 20⟩
abbrev EFN_ERRCNT_MALFORMED : Fld := ⟨R.EFN_ERRCNT, 16, 16⟩
abbrev EFN_ERRCNT_EP0_STALL : Fld := ⟨R.EFN_ERRCNT, 0, 16⟩
abbrev STO_CFG_CE_THRESH : Fld := ⟨R.STO_CFG, 16, 8⟩
abbrev STO_CFG_SCRUB_PERIOD : Fld := ⟨R.STO_CFG, 8, 8⟩
abbrev STO_CFG_SCRUB_EN : Fld := ⟨R.STO_CFG, 0, 1⟩
abbrev STO_STATUS_LOG_FULL : Fld := ⟨R.STO_STATUS, 2, 1⟩
abbrev STO_STATUS_SCRUB_ACTIVE : Fld := ⟨R.STO_STATUS, 1, 1⟩
abbrev STO_STATUS_FILL_DONE : Fld := ⟨R.STO_STATUS, 0, 1⟩
abbrev STO_SCRUB_PASSES : Fld := ⟨R.STO_SCRUB, 16, 16⟩
abbrev STO_SCRUB_PAGE : Fld := ⟨R.STO_SCRUB, 0, 9⟩
abbrev STO_CMD_CLR_LOG : Fld := ⟨R.STO_CMD, 1, 1⟩
abbrev STO_CMD_CLR_CNT : Fld := ⟨R.STO_CMD, 0, 1⟩
abbrev STO_BANK_UE (k : Nat) : Fld := ⟨(R.STO_BANK k), 16, 16⟩
abbrev STO_BANK_CE (k : Nat) : Fld := ⟨(R.STO_BANK k), 0, 16⟩
abbrev STO_EVT_EVT : Fld := ⟨R.STO_EVT, 0, 7⟩
abbrev STO_UE_LAST_REQ : Fld := ⟨R.STO_UE_LAST, 28, 4⟩
abbrev STO_UE_LAST_ADDR : Fld := ⟨R.STO_UE_LAST, 0, 19⟩
abbrev STO_FLIP_D_DMASK : Fld := ⟨R.STO_FLIP_D, 0, 32⟩
abbrev STO_FLIP_C_PATH : Fld := ⟨R.STO_FLIP_C, 12, 2⟩
abbrev STO_FLIP_C_ARMED : Fld := ⟨R.STO_FLIP_C, 9, 1⟩
abbrev STO_FLIP_C_ARM : Fld := ⟨R.STO_FLIP_C, 8, 1⟩
abbrev STO_FLIP_C_CHK : Fld := ⟨R.STO_FLIP_C, 0, 7⟩
abbrev STO_ECCLOG_VALID (k : Nat) : Fld := ⟨(R.STO_ECCLOG k), 31, 1⟩
abbrev STO_ECCLOG_REQ (k : Nat) : Fld := ⟨(R.STO_ECCLOG k), 27, 4⟩
abbrev STO_ECCLOG_PAGE (k : Nat) : Fld := ⟨(R.STO_ECCLOG k), 18, 9⟩
abbrev STO_ECCLOG_UE (k : Nat) : Fld := ⟨(R.STO_ECCLOG k), 8, 8⟩
abbrev STO_ECCLOG_CE (k : Nat) : Fld := ⟨(R.STO_ECCLOG k), 0, 8⟩
abbrev STO_RETIRE_PAGES (k : Nat) : Fld := ⟨(R.STO_RETIRE k), 0, 32⟩
abbrev STO_RGN_COUNT (k : Nat) : Fld := ⟨(R.STO_RGN k), 16, 10⟩
abbrev STO_RGN_BASE (k : Nat) : Fld := ⟨(R.STO_RGN k), 0, 9⟩
abbrev STO_RGNU_RETIRED (k : Nat) : Fld := ⟨(R.STO_RGNU k), 16, 10⟩
abbrev STO_RGNU_USED (k : Nat) : Fld := ⟨(R.STO_RGNU k), 0, 10⟩
abbrev TIM_CTRL_HOLDOVER : Fld := ⟨R.TIM_CTRL, 24, 8⟩
abbrev TIM_CTRL_TP_WIDTH : Fld := ⟨R.TIM_CTRL, 8, 16⟩
abbrev TIM_CTRL_SOF_CAP : Fld := ⟨R.TIM_CTRL, 5, 1⟩
abbrev TIM_CTRL_TP_POL : Fld := ⟨R.TIM_CTRL, 4, 1⟩
abbrev TIM_CTRL_TP_MODE : Fld := ⟨R.TIM_CTRL, 0, 2⟩
abbrev TIM_STATUS_TP_ARMED : Fld := ⟨R.TIM_STATUS, 4, 1⟩
abbrev TIM_STATUS_X32_RC : Fld := ⟨R.TIM_STATUS, 3, 1⟩
abbrev TIM_STATUS_DISC_OK : Fld := ⟨R.TIM_STATUS, 2, 1⟩
abbrev TIM_STATUS_INC_HELD : Fld := ⟨R.TIM_STATUS, 1, 1⟩
abbrev TIM_STATUS_UNDISC : Fld := ⟨R.TIM_STATUS, 0, 1⟩
abbrev TIM_TB0_INC_INC : Fld := ⟨R.TIM_TB0_INC, 0, 32⟩
abbrev TIM_TB0_ADJ_ADJ : Fld := ⟨R.TIM_TB0_ADJ, 0, 32⟩
abbrev TIM_TB0_SET_SHI_SHI : Fld := ⟨R.TIM_TB0_SET_SHI, 0, 16⟩
abbrev TIM_TP_AT_SHI_SHI : Fld := ⟨R.TIM_TP_AT_SHI, 0, 16⟩
abbrev TIM_TB0_SET_SLO_SLO : Fld := ⟨R.TIM_TB0_SET_SLO, 0, 32⟩
abbrev TIM_TP_AT_SLO_SLO : Fld := ⟨R.TIM_TP_AT_SLO, 0, 32⟩
abbrev TIM_TB0_SET_NS_LOAD : Fld := ⟨R.TIM_TB0_SET_NS, 31, 1⟩
abbrev TIM_TB0_SET_NS_NS : Fld := ⟨R.TIM_TB0_SET_NS, 0, 30⟩
abbrev TIM_TP_AT_NS_ARM : Fld := ⟨R.TIM_TP_AT_NS, 31, 1⟩
abbrev TIM_TP_AT_NS_NS : Fld := ⟨R.TIM_TP_AT_NS, 0, 30⟩
abbrev TIM_TB0_SHI_HI : Fld := ⟨R.TIM_TB0_SHI, 0, 16⟩
abbrev TIM_TB3_HI_HI : Fld := ⟨R.TIM_TB3_HI, 0, 16⟩
abbrev TIM_TB0_SLO_VALUE : Fld := ⟨R.TIM_TB0_SLO, 0, 32⟩
abbrev TIM_TB0_NS_VALUE : Fld := ⟨R.TIM_TB0_NS, 0, 32⟩
abbrev TIM_TB1_LO_VALUE : Fld := ⟨R.TIM_TB1_LO, 0, 32⟩
abbrev TIM_TB1_HI_VALUE : Fld := ⟨R.TIM_TB1_HI, 0, 32⟩
abbrev TIM_TB3_LO_VALUE : Fld := ⟨R.TIM_TB3_LO, 0, 32⟩
abbrev TIM_TB0_FRAC_FRAC : Fld := ⟨R.TIM_TB0_FRAC, 0, 24⟩
abbrev TIM_TB2_VALID : Fld := ⟨R.TIM_TB2, 31, 1⟩
abbrev TIM_TB2_FRAME : Fld := ⟨R.TIM_TB2, 16, 11⟩
abbrev TIM_TB2_UFRAME : Fld := ⟨R.TIM_TB2, 13, 3⟩
abbrev TIM_TB2_POS : Fld := ⟨R.TIM_TB2, 0, 13⟩
abbrev TIM_TB3_ALARM_LO_ALARM_LO : Fld := ⟨R.TIM_TB3_ALARM_LO, 0, 32⟩
abbrev TIM_TB3_ALARM_HI_EN : Fld := ⟨R.TIM_TB3_ALARM_HI, 31, 1⟩
abbrev TIM_TB3_ALARM_HI_ALARM_HI : Fld := ⟨R.TIM_TB3_ALARM_HI, 0, 16⟩
abbrev TIM_CMD_SW_CAP : Fld := ⟨R.TIM_CMD, 0, 1⟩
abbrev TIM_EVT_EVT : Fld := ⟨R.TIM_EVT, 0, 10⟩
abbrev TIM_CAP_STAT_S_HI (k : Nat) : Fld := ⟨(R.TIM_CAP_STAT k), 16, 16⟩
abbrev TIM_CAP_STAT_COUNT (k : Nat) : Fld := ⟨(R.TIM_CAP_STAT k), 8, 8⟩
abbrev TIM_CAP_STAT_OVERRUN (k : Nat) : Fld := ⟨(R.TIM_CAP_STAT k), 1, 1⟩
abbrev TIM_CAP_STAT_VALID (k : Nat) : Fld := ⟨(R.TIM_CAP_STAT k), 0, 1⟩
abbrev TIM_CAP_SLO_VALUE (k : Nat) : Fld := ⟨(R.TIM_CAP_SLO k), 0, 32⟩
abbrev TIM_CAP_NS_VALUE (k : Nat) : Fld := ⟨(R.TIM_CAP_NS k), 0, 32⟩
abbrev TIM_CAP_TB1_LO_VALUE (k : Nat) : Fld := ⟨(R.TIM_CAP_TB1_LO k), 0, 32⟩
abbrev TIM_CAP_TB1_HI_VALUE (k : Nat) : Fld := ⟨(R.TIM_CAP_TB1_HI k), 0, 32⟩
abbrev TIM_CAP_AUX_VALUE (k : Nat) : Fld := ⟨(R.TIM_CAP_AUX k), 0, 32⟩
abbrev CAD_MODE_SYNC_RATE : Fld := ⟨R.CAD_MODE, 8, 8⟩
abbrev CAD_MODE_MAX_VER : Fld := ⟨R.CAD_MODE, 4, 2⟩
abbrev CAD_MODE_MODE : Fld := ⟨R.CAD_MODE, 0, 2⟩
abbrev CAD_CTRL_UP_COPY : Fld := ⟨R.CAD_CTRL, 0, 1⟩
abbrev CAD_SRC_ADDR : Fld := ⟨R.CAD_SRC, 0, 24⟩
abbrev CAD_STATUS_TOO_DEEP : Fld := ⟨R.CAD_STATUS, 3, 1⟩
abbrev CAD_STATUS_TIER : Fld := ⟨R.CAD_STATUS, 0, 3⟩
abbrev CAD_EVT_EVT : Fld := ⟨R.CAD_EVT, 0, 6⟩
abbrev CAD_HOST_LOST : Fld := ⟨R.CAD_HOST, 16, 16⟩
abbrev CAD_HOST_REJECTED : Fld := ⟨R.CAD_HOST, 0, 16⟩
abbrev CAD_POOL_RINGS : Fld := ⟨R.CAD_POOL, 16, 10⟩
abbrev CAD_POOL_POOL : Fld := ⟨R.CAD_POOL, 0, 10⟩
abbrev CAD_BQ_CTRL_OWNER : Fld := ⟨R.CAD_BQ_CTRL, 0, 1⟩
abbrev CL_LQ_CTRL_OWNER (p : PortId) : Fld := ⟨(R.CL_LQ_CTRL p), 0, 1⟩
abbrev CAD_BQ_CMD_FLUSH : Fld := ⟨R.CAD_BQ_CMD, 1, 1⟩
abbrev CAD_BQ_CMD_RESUME : Fld := ⟨R.CAD_BQ_CMD, 0, 1⟩
abbrev CL_LQ_CMD_FLUSH (p : PortId) : Fld := ⟨(R.CL_LQ_CMD p), 1, 1⟩
abbrev CL_LQ_CMD_RESUME (p : PortId) : Fld := ⟨(R.CL_LQ_CMD p), 0, 1⟩
abbrev CAD_BQ_TAIL_TAIL : Fld := ⟨R.CAD_BQ_TAIL, 0, 16⟩
abbrev CL_LQ_TAIL_TAIL (p : PortId) : Fld := ⟨(R.CL_LQ_TAIL p), 0, 16⟩
abbrev CAD_BQ_STATUS_BASE : Fld := ⟨R.CAD_BQ_STATUS, 20, 9⟩
abbrev CAD_BQ_STATUS_STATE : Fld := ⟨R.CAD_BQ_STATUS, 16, 2⟩
abbrev CAD_BQ_STATUS_DONE : Fld := ⟨R.CAD_BQ_STATUS, 0, 16⟩
abbrev CL_LQ_STATUS_BASE (p : PortId) : Fld := ⟨(R.CL_LQ_STATUS p), 20, 9⟩
abbrev CL_LQ_STATUS_STATE (p : PortId) : Fld := ⟨(R.CL_LQ_STATUS p), 16, 2⟩
abbrev CL_LQ_STATUS_DONE (p : PortId) : Fld := ⟨(R.CL_LQ_STATUS p), 0, 16⟩
abbrev CL_CTRL_RX_BCAST (p : PortId) : Fld := ⟨(R.CL_CTRL p), 1, 1⟩
abbrev CL_CTRL_EN (p : PortId) : Fld := ⟨(R.CL_CTRL p), 0, 1⟩
abbrev CL_CMD_RETRAIN (p : PortId) : Fld := ⟨(R.CL_CMD p), 1, 1⟩
abbrev CL_CMD_ENTER (p : PortId) : Fld := ⟨(R.CL_CMD p), 0, 1⟩
abbrev CL_STATUS_CAUSE (p : PortId) : Fld := ⟨(R.CL_STATUS p), 8, 4⟩
abbrev CL_STATUS_VER (p : PortId) : Fld := ⟨(R.CL_STATUS p), 4, 2⟩
abbrev CL_STATUS_LSTATE (p : PortId) : Fld := ⟨(R.CL_STATUS p), 0, 3⟩
abbrev CL_PARTNER_VDO (p : PortId) : Fld := ⟨(R.CL_PARTNER p), 0, 32⟩
abbrev CL_ERR0_POISON_FWD_DROP (p : PortId) : Fld := ⟨(R.CL_ERR0 p), 24, 8⟩
abbrev CL_ERR0_CRC_NO_ROUTE (p : PortId) : Fld := ⟨(R.CL_ERR0 p), 16, 8⟩
abbrev CL_ERR0_FORMAT_UNKNOWN (p : PortId) : Fld := ⟨(R.CL_ERR0 p), 8, 8⟩
abbrev CL_ERR0_CODE_ROUTE (p : PortId) : Fld := ⟨(R.CL_ERR0 p), 0, 8⟩
abbrev CL_ERR1_POISON_FWD_DROP (p : PortId) : Fld := ⟨(R.CL_ERR1 p), 24, 8⟩
abbrev CL_ERR1_CRC_NO_ROUTE (p : PortId) : Fld := ⟨(R.CL_ERR1 p), 16, 8⟩
abbrev CL_ERR1_FORMAT_UNKNOWN (p : PortId) : Fld := ⟨(R.CL_ERR1 p), 8, 8⟩
abbrev CL_ERR1_CODE_ROUTE (p : PortId) : Fld := ⟨(R.CL_ERR1 p), 0, 8⟩
abbrev CL_EVT_EVT (p : PortId) : Fld := ⟨(R.CL_EVT p), 0, 10⟩
abbrev CL_GRP_GRP (p : PortId) (k : Nat) : Fld := ⟨(R.CL_GRP p k), 0, 32⟩
abbrev CL_RX_CTRL_OWNER (p : PortId) : Fld := ⟨(R.CL_RX_CTRL p), 0, 1⟩
abbrev CL_RX_RD_RD (p : PortId) : Fld := ⟨(R.CL_RX_RD p), 0, 16⟩
abbrev CL_RX_STATUS_BASE (p : PortId) : Fld := ⟨(R.CL_RX_STATUS p), 16, 9⟩
abbrev CL_RX_STATUS_WR (p : PortId) : Fld := ⟨(R.CL_RX_STATUS p), 0, 16⟩
abbrev CL_RX_LOST_LOST (p : PortId) : Fld := ⟨(R.CL_RX_LOST p), 0, 16⟩
abbrev CL_XS_STAT_DONE : Fld := ⟨R.CL_XS_STAT, 16, 16⟩
abbrev CL_XS_STAT_MISS : Fld := ⟨R.CL_XS_STAT, 0, 16⟩
abbrev PWR_CTRL_DEEP_DLY : Fld := ⟨R.PWR_CTRL, 24, 8⟩
abbrev PWR_CTRL_SLEEP_DLY : Fld := ⟨R.PWR_CTRL, 16, 8⟩
abbrev PWR_CTRL_DPHY_GATE : Fld := ⟨R.PWR_CTRL, 3, 1⟩
abbrev PWR_CTRL_IDLE_EN : Fld := ⟨R.PWR_CTRL, 2, 1⟩
abbrev PWR_CTRL_DEEP_EN : Fld := ⟨R.PWR_CTRL, 1, 1⟩
abbrev PWR_CTRL_SLEEP_EN : Fld := ⟨R.PWR_CTRL, 0, 1⟩
abbrev PWR_WAKE_EN_FEED : Fld := ⟨R.PWR_WAKE_EN, 10, 1⟩
abbrev PWR_WAKE_EN_VIN_WARN : Fld := ⟨R.PWR_WAKE_EN, 9, 1⟩
abbrev PWR_WAKE_EN_ALARM : Fld := ⟨R.PWR_WAKE_EN, 8, 1⟩
abbrev PWR_WAKE_EN_PROT : Fld := ⟨R.PWR_WAKE_EN, 7, 1⟩
abbrev PWR_WAKE_EN_PD : Fld := ⟨R.PWR_WAKE_EN, 6, 1⟩
abbrev PWR_WAKE_EN_TYPEC : Fld := ⟨R.PWR_WAKE_EN, 5, 1⟩
abbrev PWR_WAKE_EN_CAD_UP : Fld := ⟨R.PWR_WAKE_EN, 4, 1⟩
abbrev PWR_WAKE_EN_USB_RESET : Fld := ⟨R.PWR_WAKE_EN, 3, 1⟩
abbrev PWR_WAKE_EN_USB_RESUME : Fld := ⟨R.PWR_WAKE_EN, 2, 1⟩
abbrev PWR_WAKE_EN_I2C : Fld := ⟨R.PWR_WAKE_EN, 1, 1⟩
abbrev PWR_WAKE_EN_WAKE_N : Fld := ⟨R.PWR_WAKE_EN, 0, 1⟩
abbrev PWR_CMD_OFF : Fld := ⟨R.PWR_CMD, 1, 1⟩
abbrev PWR_CMD_DEEP : Fld := ⟨R.PWR_CMD, 0, 1⟩
abbrev PWR_STATUS_BLOCK : Fld := ⟨R.PWR_STATUS, 16, 11⟩
abbrev PWR_STATUS_RESULT : Fld := ⟨R.PWR_STATUS, 4, 4⟩
abbrev PWR_STATUS_STATE : Fld := ⟨R.PWR_STATUS, 0, 3⟩
abbrev PWR_WAKE_REC_FAIL_CAUSE : Fld := ⟨R.PWR_WAKE_REC, 28, 4⟩
abbrev PWR_WAKE_REC_WAKEFAIL : Fld := ⟨R.PWR_WAKE_REC, 27, 1⟩
abbrev PWR_WAKE_REC_ATTEMPTS : Fld := ⟨R.PWR_WAKE_REC, 25, 2⟩
abbrev PWR_WAKE_REC_FROM : Fld := ⟨R.PWR_WAKE_REC, 22, 3⟩
abbrev PWR_WAKE_REC_PORT : Fld := ⟨R.PWR_WAKE_REC, 16, 5⟩
abbrev PWR_WAKE_REC_SOURCE : Fld := ⟨R.PWR_WAKE_REC, 0, 8⟩
abbrev PWR_WAKE_T3_LO_VALUE : Fld := ⟨R.PWR_WAKE_T3_LO, 0, 32⟩
abbrev PWR_WAKE_T3_HI_VALUE : Fld := ⟨R.PWR_WAKE_T3_HI, 0, 32⟩
abbrev PWR_WAKE_SRC_SEEN : Fld := ⟨R.PWR_WAKE_SRC, 0, 11⟩
abbrev PWR_RET_STATUS_RESET : Fld := ⟨R.PWR_RET_STATUS, 16, 4⟩
abbrev PWR_RET_STATUS_RELOAD : Fld := ⟨R.PWR_RET_STATUS, 8, 4⟩
abbrev PWR_RET_STATUS_FAIL : Fld := ⟨R.PWR_RET_STATUS, 0, 4⟩
abbrev PWR_EVT_EVT : Fld := ⟨R.PWR_EVT, 0, 6⟩
abbrev FLT_CFG_PULSE : Fld := ⟨R.FLT_CFG, 16, 8⟩
abbrev FLT_CFG_REC_HOLD : Fld := ⟨R.FLT_CFG, 8, 8⟩
abbrev FLT_CFG_STAGGER : Fld := ⟨R.FLT_CFG, 0, 8⟩
abbrev FLT_PIN_ASSERT : Fld := ⟨R.FLT_PIN, 0, 1⟩
abbrev FLT_STATUS_DEMOTED : Fld := ⟨R.FLT_STATUS, 5, 1⟩
abbrev FLT_STATUS_FAULT_N : Fld := ⟨R.FLT_STATUS, 4, 1⟩
abbrev FLT_STATUS_PULSING : Fld := ⟨R.FLT_STATUS, 3, 1⟩
abbrev FLT_STATUS_RECOVERY : Fld := ⟨R.FLT_STATUS, 2, 1⟩
abbrev FLT_STATUS_TEMP_HIGH : Fld := ⟨R.FLT_STATUS, 1, 1⟩
abbrev FLT_STATUS_A_PRESENT : Fld := ⟨R.FLT_STATUS, 0, 1⟩
abbrev FLT_CMD_END_RECOVERY : Fld := ⟨R.FLT_CMD, 0, 1⟩
abbrev FLT_TEMP_TEMP : Fld := ⟨R.FLT_TEMP, 0, 8⟩
abbrev FLT_CNT_AB_B_D : Fld := ⟨R.FLT_CNT_AB, 16, 16⟩
abbrev FLT_CNT_AB_A_C : Fld := ⟨R.FLT_CNT_AB, 0, 16⟩
abbrev FLT_CNT_CD_B_D : Fld := ⟨R.FLT_CNT_CD, 16, 16⟩
abbrev FLT_CNT_CD_A_C : Fld := ⟨R.FLT_CNT_CD, 0, 16⟩
abbrev FLT_CAP_INFO_VALID : Fld := ⟨R.FLT_CAP_INFO, 31, 1⟩
abbrev FLT_CAP_INFO_ACCESS : Fld := ⟨R.FLT_CAP_INFO, 29, 2⟩
abbrev FLT_CAP_INFO_REQ : Fld := ⟨R.FLT_CAP_INFO, 25, 4⟩
abbrev FLT_CAP_INFO_MCLASS : Fld := ⟨R.FLT_CAP_INFO, 21, 4⟩
abbrev FLT_CAP_INFO_CLASS : Fld := ⟨R.FLT_CAP_INFO, 19, 2⟩
abbrev FLT_CAP_INFO_PORT : Fld := ⟨R.FLT_CAP_INFO, 14, 5⟩
abbrev FLT_CAP_INFO_SOURCE : Fld := ⟨R.FLT_CAP_INFO, 8, 6⟩
abbrev FLT_CAP_INFO_MERGED : Fld := ⟨R.FLT_CAP_INFO, 0, 8⟩
abbrev FLT_CAP_ADDR_VALUE : Fld := ⟨R.FLT_CAP_ADDR, 0, 32⟩
abbrev FLT_CAP_T0S_VALUE : Fld := ⟨R.FLT_CAP_T0S, 0, 32⟩
abbrev FLT_CAP_T0NS_VALUE : Fld := ⟨R.FLT_CAP_T0NS, 0, 32⟩
abbrev FLT_CAP_T1LO_VALUE : Fld := ⟨R.FLT_CAP_T1LO, 0, 32⟩
abbrev FLT_CAP_T1HI_VALUE : Fld := ⟨R.FLT_CAP_T1HI, 0, 32⟩
abbrev FLT_REACT_REACT (k : Nat) : Fld := ⟨(R.FLT_REACT k), 0, 32⟩
abbrev EVQ_CTRL_IRQ_EN : Fld := ⟨R.EVQ_CTRL, 1, 1⟩
abbrev EVQ_CTRL_POLICY : Fld := ⟨R.EVQ_CTRL, 0, 1⟩
abbrev EVQ_STATUS_CAPACITY : Fld := ⟨R.EVQ_STATUS, 16, 11⟩
abbrev EVQ_STATUS_COUNT : Fld := ⟨R.EVQ_STATUS, 0, 11⟩
abbrev EVQ_LOST_LOST : Fld := ⟨R.EVQ_LOST, 0, 32⟩
abbrev EVQ_SEQ_SEQ : Fld := ⟨R.EVQ_SEQ, 0, 7⟩
abbrev EVQ_POP_WORD0 : Fld := ⟨R.EVQ_POP, 0, 32⟩
abbrev EVQ_POP_D_WORD : Fld := ⟨R.EVQ_POP_D, 0, 32⟩
abbrev EVQ_POP_S_WORD : Fld := ⟨R.EVQ_POP_S, 0, 32⟩
abbrev EVQ_POP_NS_WORD : Fld := ⟨R.EVQ_POP_NS, 0, 32⟩
abbrev EVQ_CMD_FLUSH : Fld := ⟨R.EVQ_CMD, 0, 1⟩
abbrev GLB_ID_PART : Fld := ⟨R.GLB_ID, 16, 16⟩
abbrev GLB_ID_REV : Fld := ⟨R.GLB_ID, 0, 8⟩
abbrev GLB_CAPS_NPORTS : Fld := ⟨R.GLB_CAPS, 16, 5⟩
abbrev GLB_CAPS_EPR : Fld := ⟨R.GLB_CAPS, 13, 1⟩
abbrev GLB_CAPS_SIGNED : Fld := ⟨R.GLB_CAPS, 12, 1⟩
abbrev GLB_CAPS_CAD_VER : Fld := ⟨R.GLB_CAPS, 8, 4⟩
abbrev GLB_CAPS_PROFILES : Fld := ⟨R.GLB_CAPS, 0, 8⟩
abbrev GLB_STATUS_LOADING : Fld := ⟨R.GLB_STATUS, 16, 1⟩
abbrev GLB_STATUS_COMPAT : Fld := ⟨R.GLB_STATUS, 8, 4⟩
abbrev GLB_STATUS_LEVEL_SET : Fld := ⟨R.GLB_STATUS, 2, 1⟩
abbrev GLB_STATUS_LEVEL : Fld := ⟨R.GLB_STATUS, 0, 2⟩
abbrev GLB_RST_CAUSE_PORT : Fld := ⟨R.GLB_RST_CAUSE, 8, 8⟩
abbrev GLB_RST_CAUSE_CAUSE : Fld := ⟨R.GLB_RST_CAUSE, 0, 8⟩
abbrev GLB_LOCKRING_OPEN_USB : Fld := ⟨R.GLB_LOCKRING, 17, 1⟩
abbrev GLB_LOCKRING_OPEN_I2C : Fld := ⟨R.GLB_LOCKRING, 16, 1⟩
abbrev GLB_LOCKRING_KEY : Fld := ⟨R.GLB_LOCKRING, 0, 16⟩
abbrev GLB_COMMIT_GROUPS : Fld := ⟨R.GLB_COMMIT, 0, 16⟩
abbrev GLB_DISCARD_GROUPS : Fld := ⟨R.GLB_DISCARD, 0, 16⟩
abbrev GLB_RESET_COLD : Fld := ⟨R.GLB_RESET, 1, 1⟩
abbrev GLB_RESET_WARM : Fld := ⟨R.GLB_RESET, 0, 1⟩
abbrev GLB_TEST_EVQ_BLOCK : Fld := ⟨R.GLB_TEST, 0, 1⟩
abbrev GLB_I2C_CFG_PEC_REQ : Fld := ⟨R.GLB_I2C_CFG, 7, 1⟩
abbrev GLB_I2C_CFG_ADDR : Fld := ⟨R.GLB_I2C_CFG, 0, 7⟩
abbrev GLB_PEND_I2C_OVF : Fld := ⟨R.GLB_PEND_I2C, 31, 1⟩
abbrev GLB_PEND_I2C_COUNT : Fld := ⟨R.GLB_PEND_I2C, 16, 8⟩
abbrev GLB_PEND_I2C_GROUPS : Fld := ⟨R.GLB_PEND_I2C, 0, 16⟩
abbrev GLB_PEND_USB_OVF : Fld := ⟨R.GLB_PEND_USB, 31, 1⟩
abbrev GLB_PEND_USB_COUNT : Fld := ⟨R.GLB_PEND_USB, 16, 8⟩
abbrev GLB_PEND_USB_GROUPS : Fld := ⟨R.GLB_PEND_USB, 0, 16⟩
abbrev GLB_COMMIT_AT_SHI_SHI : Fld := ⟨R.GLB_COMMIT_AT_SHI, 0, 16⟩
abbrev GLB_COMMIT_AT_SLO_SLO : Fld := ⟨R.GLB_COMMIT_AT_SLO, 0, 32⟩
abbrev GLB_COMMIT_AT_NS_NS : Fld := ⟨R.GLB_COMMIT_AT_NS, 0, 30⟩
abbrev GLB_COMMIT_AT_ARM : Fld := ⟨R.GLB_COMMIT_AT, 31, 1⟩
abbrev GLB_COMMIT_AT_CANCEL : Fld := ⟨R.GLB_COMMIT_AT, 30, 1⟩
abbrev GLB_COMMIT_AT_PATH : Fld := ⟨R.GLB_COMMIT_AT, 28, 2⟩
abbrev GLB_COMMIT_AT_ARMED : Fld := ⟨R.GLB_COMMIT_AT, 27, 1⟩
abbrev GLB_COMMIT_AT_RESULT : Fld := ⟨R.GLB_COMMIT_AT, 24, 3⟩
abbrev GLB_COMMIT_AT_GROUPS : Fld := ⟨R.GLB_COMMIT_AT, 0, 16⟩
abbrev GLB_EVT_EVT : Fld := ⟨R.GLB_EVT, 0, 5⟩
abbrev GLB_ERRCNT_PEC : Fld := ⟨R.GLB_ERRCNT, 16, 16⟩
abbrev GLB_ERRCNT_FORMAT : Fld := ⟨R.GLB_ERRCNT, 0, 16⟩

end F

/-! ### The table of rows -/

def glbRows_0 : List RegRow :=
  [ { off := 0x0, reset := 0x16480010 },
    { off := 0x4, reset := 0x103201 },
    { off := 0x8 },
    { off := 0xc, reset := 0xff00 },
    { off := 0x10, wo := 0xffff },
    { off := 0x14, wo := 0xffff },
    { off := 0x18, wo := 0xffff },
    { off := 0x1c, rwk := 0x3 },
    { off := 0x20, rw := 0x1 },
    { off := 0x24, rwc := 0x80, grp := .fixed 0 },
    { off := 0x28 },
    { off := 0x2c },
    { off := 0x30, rw := 0xffff },
    { off := 0x34, rw := 0xffffffff },
    { off := 0x38, rw := 0x3fffffff, clamp := [⟨0, 30, 0, 999999999⟩] },
    { off := 0x3c, rw := 0xffff, wo := 0xc0000000 } ]

def glbRows_1 : List RegRow :=
  [ { off := 0x40, w1c := 0x1f },
    { off := 0x44 } ]

def glbRows : List RegRow := glbRows_0 ++ glbRows_1

def pwrRows : List RegRow :=
  [ { off := 0x0, rwc := 0xffff000f, reset := 0xa0a000c, grp := .fixed 0, clamp := [⟨24, 8, 1, 255⟩, ⟨16, 8, 1, 255⟩] },
    { off := 0x4, rwc := 0x133, reset := 0x7ff, grp := .fixed 0 },
    { off := 0x8, rwk := 0x2, wo := 0x1 },
    { off := 0xc },
    { off := 0x10, reset := 0x1f0000 },
    { off := 0x14 },
    { off := 0x18 },
    { off := 0x1c, w1c := 0x7ff },
    { off := 0x20, w1c := 0xf000f },
    { off := 0x24, w1c := 0x3f } ]

def fltRows : List RegRow :=
  [ { off := 0x0, rwc := 0xffffff, reset := 0x20a0a, grp := .fixed 0, clamp := [⟨16, 8, 2, 50⟩, ⟨8, 8, 1, 255⟩] },
    { off := 0x4, rw := 0x1 },
    { off := 0x8 },
    { off := 0xc, rwk := 0x1 },
    { off := 0x10 },
    { off := 0x14 },
    { off := 0x18 },
    { off := 0x20, w1c := 0x80000000 },
    { off := 0x24 },
    { off := 0x28 },
    { off := 0x2c },
    { off := 0x30 },
    { off := 0x34 },
    { off := 0x40, cnt := 8, rwkc := 0xffffffff, grp := .fixed 0 } ]

def evqRows : List RegRow :=
  [ { off := 0x0, rwc := 0x3, reset := 0x2, grp := .fixed 0 },
    { off := 0x4, reset := 0x4000000 },
    { off := 0x8 },
    { off := 0xc },
    { off := 0x10 },
    { off := 0x14 },
    { off := 0x18 },
    { off := 0x1c },
    { off := 0x20, wo := 0x1 } ]

def feedRows_0 : List RegRow :=
  [ { off := 0x0, rwc := 0xff3fff, reset := 0xa33e4, grp := .fixed 1 },
    { off := 0x4, rwc := 0xff007f, reset := 0x32000a, grp := .fixed 1, clamp := [⟨16, 8, 10, 250⟩, ⟨0, 7, 0, 74⟩] },
    { off := 0x8, rwc := 0xffffffff, reset := 0x14320a0a, grp := .fixed 1, clamp := [⟨24, 8, 5, 100⟩, ⟨16, 8, 1, 50⟩, ⟨8, 8, 1, 25⟩, ⟨0, 8, 1, 25⟩] },
    { off := 0xc, rwk := 0x3f },
    { off := 0x10, reset := 0x3 },
    { off := 0x14, reset := 0x10101 },
    { off := 0x18, w1c := 0x3ff },
    { off := 0x1c },
    { off := 0x20 },
    { off := 0x40, rwc := 0xff, reset := 0x31, grp := .fixed 1, clamp := [⟨0, 4, 0, 9⟩] },
    { off := 0x44 },
    { off := 0x60, rwc := 0xff, reset := 0x31, grp := .fixed 1, clamp := [⟨0, 4, 0, 9⟩] },
    { off := 0x64 },
    { off := 0x100, rwc := 0xffffff, reset := 0xc00c8, grp := .fixed 1, clamp := [⟨16, 8, 8, 16⟩, ⟨0, 16, 1, 65535⟩] },
    { off := 0x104, cnt := 8, rwc := 0xffffff, grp := .fixed 1, clamp := [⟨16, 8, 0, 96⟩] },
    { off := 0x140, rwc := 0xffffff, reset := 0xc00c8, grp := .fixed 1, clamp := [⟨16, 8, 8, 16⟩, ⟨0, 16, 1, 65535⟩] } ]

def feedRows_1 : List RegRow :=
  [ { off := 0x144, cnt := 8, rwc := 0xffffff, grp := .fixed 1, clamp := [⟨16, 8, 0, 96⟩] },
    { off := 0x180, rwc := 0xffffff, reset := 0xc00c8, grp := .fixed 1, clamp := [⟨16, 8, 8, 16⟩, ⟨0, 16, 1, 65535⟩] },
    { off := 0x184, cnt := 8, rwc := 0xffffff, grp := .fixed 1, clamp := [⟨16, 8, 0, 96⟩] },
    { off := 0x1c0, rwc := 0xffffff, reset := 0xc00c8, grp := .fixed 1, clamp := [⟨16, 8, 8, 16⟩, ⟨0, 16, 1, 65535⟩] },
    { off := 0x1c4, cnt := 8, rwc := 0xffffff, grp := .fixed 1, clamp := [⟨16, 8, 0, 96⟩] },
    { off := 0x200, rwc := 0x3, grp := .fixed 1 },
    { off := 0x204 },
    { off := 0x208 },
    { off := 0x20c },
    { off := 0x210 },
    { off := 0x214 },
    { off := 0x218 },
    { off := 0x21c },
    { off := 0x220 },
    { off := 0x224 },
    { off := 0x228 } ]

def feedRows_2 : List RegRow :=
  [ { off := 0x22c },
    { off := 0x230 },
    { off := 0x234 },
    { off := 0x238 },
    { off := 0x23c },
    { off := 0x240, rwc := 0x3, grp := .fixed 1 },
    { off := 0x244 },
    { off := 0x248 },
    { off := 0x24c },
    { off := 0x250 },
    { off := 0x254 },
    { off := 0x258 },
    { off := 0x25c },
    { off := 0x260 },
    { off := 0x264 },
    { off := 0x268 } ]

def feedRows_3 : List RegRow :=
  [ { off := 0x26c },
    { off := 0x270 },
    { off := 0x274 },
    { off := 0x278 },
    { off := 0x27c },
    { off := 0x280, rwc := 0x3, grp := .fixed 1 },
    { off := 0x284 },
    { off := 0x288 },
    { off := 0x28c },
    { off := 0x290 },
    { off := 0x294 },
    { off := 0x298 },
    { off := 0x29c },
    { off := 0x2a0 },
    { off := 0x2a4 },
    { off := 0x2a8 } ]

def feedRows_4 : List RegRow :=
  [ { off := 0x2ac },
    { off := 0x2b0 },
    { off := 0x2b4 },
    { off := 0x2b8 },
    { off := 0x2bc },
    { off := 0x2c0, rwc := 0x3, grp := .fixed 1 },
    { off := 0x2c4 },
    { off := 0x2c8 },
    { off := 0x2cc },
    { off := 0x2d0 },
    { off := 0x2d4 },
    { off := 0x2d8 },
    { off := 0x2dc },
    { off := 0x2e0 },
    { off := 0x2e4 },
    { off := 0x2e8 } ]

def feedRows_5 : List RegRow :=
  [ { off := 0x2ec },
    { off := 0x2f0 },
    { off := 0x2f4 },
    { off := 0x2f8 },
    { off := 0x2fc } ]

def feedRows : List RegRow := feedRows_0 ++ feedRows_1 ++ feedRows_2 ++ feedRows_3 ++ feedRows_4 ++ feedRows_5

def pmbRows : List RegRow :=
  [ { off := 0x0, rwc := 0xff07, reset := 0x1404, grp := .fixed 9, clamp := [⟨8, 8, 5, 100⟩, ⟨0, 2, 0, 2⟩] },
    { off := 0x4 },
    { off := 0x8, wo := 0xffffff },
    { off := 0xc, w1c := 0x7f },
    { off := 0x10 },
    { off := 0x40, cnt := 24 },
    { off := 0xa0, cnt := 24 },
    { off := 0x100, rw := 0xfff1f, wo := 0x100000 },
    { off := 0x104, rw := 0xffff } ]

def nvmRows : List RegRow :=
  [ { off := 0x0, rwk := 0x10f },
    { off := 0x4, rw := 0xffffff },
    { off := 0x8, rw := 0x1ff, reset := 0x100 },
    { off := 0xc },
    { off := 0x10, reset := 0xbb3 },
    { off := 0x14 },
    { off := 0x18 },
    { off := 0x20, rw := 0x3f },
    { off := 0x24, rw := 0xffffffff },
    { off := 0x100, cnt := 64, rw := 0xffffffff } ]

def stoRows : List RegRow :=
  [ { off := 0x0, rwc := 0xffff01, reset := 0x103c01, grp := .fixed 0, clamp := [⟨16, 8, 1, 255⟩, ⟨8, 8, 1, 255⟩] },
    { off := 0x4 },
    { off := 0x8 },
    { off := 0xc, wo := 0x3 },
    { off := 0x10, cnt := 4 },
    { off := 0x20, w1c := 0x7f },
    { off := 0x24 },
    { off := 0x30, rw := 0xffffffff },
    { off := 0x34, rw := 0x7f, rwk := 0x100 },
    { off := 0x40, cnt := 16, w1c := 0x80000000 },
    { off := 0x100, cnt := 16, rwk := 0xffffffff },
    { off := 0x140, cnt := 7, step := 0x8 },
    { off := 0x144, cnt := 7, step := 0x8 } ]

def hubRows : List RegRow :=
  [ { off := 0x0, rw := 0x1, wo := 0x2 },
    { off := 0x4, rwc := 0xb, reset := 0x3, grp := .fixed 0 },
    { off := 0x8 },
    { off := 0xc, w1c := 0x1ff },
    { off := 0x10 } ]

def efnRows : List RegRow :=
  [ { off := 0x0, rwc := 0x1, grp := .fixed 0 },
    { off := 0x4 },
    { off := 0x8, wo := 0x1 },
    { off := 0xc, w1c := 0x3f },
    { off := 0x40, cnt := 7, step := 0x8, rw := 0xffff },
    { off := 0x44, cnt := 7, step := 0x8, rw := 0x1ff },
    { off := 0x80, cnt := 7 },
    { off := 0xc0, rwc := 0xffffffff, reset := 0x1fffff, grp := .fixed 0 },
    { off := 0xc4 },
    { off := 0xc8, rwc := 0x1fffff, reset := 0x1fffff, grp := .fixed 0 },
    { off := 0xcc },
    { off := 0xd0 } ]

def timRows_0 : List RegRow :=
  [ { off := 0x0, rwc := 0xffffff33, reset := 0x3e820, grp := .fixed 7, clamp := [⟨8, 16, 1, 65535⟩] },
    { off := 0x4, reset := 0x1 },
    { off := 0x8, rwc := 0xffffffff, reset := 0x5000000, grp := .fixed 7, clamp := [⟨0, 32, 75497472, 92274688⟩] },
    { off := 0xc, rwc := 0xffffffff, grp := .fixed 7 },
    { off := 0x10, rwc := 0xffff, grp := .fixed 7 },
    { off := 0x14, rwc := 0xffffffff, grp := .fixed 7 },
    { off := 0x18, rwc := 0xbfffffff, grp := .fixed 7, clamp := [⟨0, 30, 0, 999999999⟩] },
    { off := 0x20 },
    { off := 0x24 },
    { off := 0x28 },
    { off := 0x2c },
    { off := 0x30 },
    { off := 0x34 },
    { off := 0x38 },
    { off := 0x40 },
    { off := 0x44 } ]

def timRows_1 : List RegRow :=
  [ { off := 0x48, rw := 0xffffffff },
    { off := 0x4c, rw := 0x8000ffff },
    { off := 0x50, rwc := 0xffff, grp := .fixed 7 },
    { off := 0x54, rwc := 0xffffffff, grp := .fixed 7 },
    { off := 0x58, rwc := 0xbfffffff, grp := .fixed 7, clamp := [⟨0, 30, 0, 999999999⟩] },
    { off := 0x5c, wo := 0x1 },
    { off := 0x60, w1c := 0x3ff },
    { off := 0x80, cnt := 3, step := 0x20 },
    { off := 0x84, cnt := 3, step := 0x20 },
    { off := 0x88, cnt := 3, step := 0x20 },
    { off := 0x8c, cnt := 3, step := 0x20 },
    { off := 0x90, cnt := 3, step := 0x20 },
    { off := 0x94, cnt := 3, step := 0x20 } ]

def timRows : List RegRow := timRows_0 ++ timRows_1

def cadRows : List RegRow :=
  [ { off := 0x0, rwc := 0xff33, reset := 0x1020, grp := .fixed 8, clamp := [⟨8, 8, 1, 64⟩, ⟨4, 2, 1, 2⟩] },
    { off := 0x4, rwc := 0x1, grp := .fixed 8 },
    { off := 0x8, rwc := 0xffffff, grp := .fixed 8 },
    { off := 0xc },
    { off := 0x10, w1c := 0x3f },
    { off := 0x14 },
    { off := 0x18 },
    { off := 0x40, rwc := 0x1, grp := .fixed 8 },
    { off := 0x44, wo := 0x3 },
    { off := 0x48, rw := 0xffff },
    { off := 0x4c } ]

def portRows_0 : List RegRow :=
  [ { off := 0x0, rwc := 0xff3d, reset := 0x430, grp := .quad, clamp := [⟨8, 8, 1, 60⟩] },
    { off := 0x4, wo := 0x3 },
    { off := 0x8, reset := 0x41 },
    { off := 0xc },
    { off := 0x10, reset := 0xffffffff },
    { off := 0x14 },
    { off := 0x18, w1c := 0x7ff },
    { off := 0x40, rwc := 0xffff0fdf, reset := 0xa44, grp := .fixed 6, scope := .puOnly, clamp := [⟨8, 4, 1, 15⟩, ⟨0, 5, 2, 16⟩] },
    { off := 0x44, scope := .puOnly },
    { off := 0x200, rwc := 0xffb7, reset := 0x6414, grp := .quad, clamp := [⟨8, 8, 1, 240⟩] },
    { off := 0x204, rwc := 0x1f03ff, reset := 0x500fa, grp := .quad, clamp := [⟨16, 5, 1, 30⟩, ⟨0, 10, 50, 500⟩] },
    { off := 0x208, wo := 0x7f },
    { off := 0x20c },
    { off := 0x210 },
    { off := 0x214 },
    { off := 0x218 } ]

def portRows_1 : List RegRow :=
  [ { off := 0x21c },
    { off := 0x220, w1c := 0x7fff },
    { off := 0x23c, rwc := 0x77, grp := .quad, clamp := [⟨4, 3, 0, 4⟩, ⟨0, 3, 1, 7⟩] },
    { off := 0x240, cnt := 11, rwc := 0xffffffff, grp := .quad },
    { off := 0x280, cnt := 11 },
    { off := 0x2c0, rwc := 0xffff0fff, reset := 0xb25f03e8, grp := .fixed 6, scope := .puOnly, clamp := [⟨24, 7, 10, 100⟩, ⟨16, 8, 50, 100⟩, ⟨0, 12, 0, 3840⟩] },
    { off := 0x2c4, rwc := 0xffff03ff, reset := 0x20a0000, grp := .fixed 6, scope := .puOnly, clamp := [⟨24, 8, 1, 60⟩, ⟨16, 8, 2, 50⟩, ⟨0, 10, 0, 750⟩] },
    { off := 0x2c8, scope := .puOnly },
    { off := 0x2cc, scope := .puOnly },
    { off := 0x400, rwc := 0xffff01, reset := 0x143100, grp := .quad, clamp := [⟨16, 8, 5, 100⟩, ⟨8, 4, 0, 9⟩] },
    { off := 0x404, rwc := 0x3ff, reset := 0x3ff03e8, grp := .quad, clamp := [⟨0, 10, 1, 1023⟩] },
    { off := 0x408 },
    { off := 0x40c, rwk := 0x1 },
    { off := 0x410, w1c := 0x3f },
    { off := 0x414 },
    { off := 0x418 } ]

def portRows_2 : List RegRow :=
  [ { off := 0x440, rwc := 0xffffff, reset := 0xc00c8, grp := .quad, clamp := [⟨16, 8, 8, 16⟩, ⟨0, 16, 1, 65535⟩] },
    { off := 0x444, cnt := 8, rwc := 0xffffff, grp := .quad, clamp := [⟨16, 8, 0, 96⟩] },
    { off := 0x600, rwc := 0x3, grp := .fixed 10 },
    { off := 0x604 },
    { off := 0x608 },
    { off := 0x60c },
    { off := 0x610 },
    { off := 0x614 },
    { off := 0x618 },
    { off := 0x61c },
    { off := 0x620 },
    { off := 0x624 },
    { off := 0x628 },
    { off := 0x62c },
    { off := 0x630 },
    { off := 0x634 } ]

def portRows_3 : List RegRow :=
  [ { off := 0x638 },
    { off := 0x63c },
    { off := 0x800, rwc := 0x1, grp := .fixed 8, scope := .pnOnly },
    { off := 0x800, rwc := 0x3, grp := .fixed 8, scope := .puOnly },
    { off := 0x804, wo := 0x3 },
    { off := 0x808 },
    { off := 0x80c },
    { off := 0x810 },
    { off := 0x814 },
    { off := 0x818, w1c := 0x3ff },
    { off := 0x820, cnt := 8, rwc := 0xffffffff, reset := 0xffffffff, grp := .fixed 8, scope := .pnOnly },
    { off := 0x840, rwc := 0x1, grp := .fixed 8 },
    { off := 0x844, wo := 0x3 },
    { off := 0x848, rw := 0xffff },
    { off := 0x84c },
    { off := 0x860, rwc := 0x1, grp := .fixed 8 } ]

def portRows_4 : List RegRow :=
  [ { off := 0x864, rw := 0xffff },
    { off := 0x868 },
    { off := 0x86c },
    { off := 0x8c0, scope := .puOnly },
    { off := 0x8c4, scope := .puOnly },
    { off := 0x8c8, scope := .puOnly },
    { off := 0x8cc, scope := .puOnly },
    { off := 0x8d0, scope := .puOnly },
    { off := 0x8d4, scope := .puOnly },
    { off := 0x8d8, scope := .puOnly },
    { off := 0x8dc, scope := .puOnly },
    { off := 0x8e0, scope := .puOnly },
    { off := 0x8e4, scope := .puOnly },
    { off := 0x8e8, scope := .puOnly },
    { off := 0x8ec, scope := .puOnly },
    { off := 0x8f0, scope := .puOnly } ]

def portRows_5 : List RegRow :=
  [ { off := 0x8f4, scope := .puOnly },
    { off := 0x8f8, scope := .puOnly },
    { off := 0x8fc, scope := .puOnly },
    { off := 0x900, scope := .puOnly },
    { off := 0xa00, rwc := 0x3, reset := 0x2, grp := .quad, scope := .pnOnly },
    { off := 0xa04, w1c := 0x1000000, reset := 0x2000000, scope := .pnOnly },
    { off := 0xa08, scope := .pnOnly },
    { off := 0xa0c, scope := .pnOnly },
    { off := 0xa10, scope := .pnOnly },
    { off := 0xa14, w1c := 0x3ff, scope := .pnOnly },
    { off := 0xa40, rwc := 0xff, reset := 0xa, grp := .quad, scope := .pnOnly, clamp := [⟨0, 8, 1, 255⟩] },
    { off := 0xa44, wo := 0x3, scope := .pnOnly },
    { off := 0xa48, scope := .pnOnly },
    { off := 0xa4c, scope := .pnOnly },
    { off := 0xa50, scope := .pnOnly },
    { off := 0xa54, w1c := 0x3f, scope := .pnOnly } ]

def portRows_6 : List RegRow :=
  [ { off := 0xa60, cnt := 4, scope := .pnOnly } ]

def portRows : List RegRow := portRows_0 ++ portRows_1 ++ portRows_2 ++ portRows_3 ++ portRows_4 ++ portRows_5 ++ portRows_6

/-- The blocks of the map below the ports, in the order of their bases (R442). -/
def topRows : List (List RegRow) :=
  [glbRows, pwrRows, fltRows, evqRows, feedRows, pmbRows, nvmRows, stoRows, hubRows, efnRows, timRows, cadRows]

/-- Whether `off` is one of a row's registers. -/
def RegRow.covers (r : RegRow) (off : Nat) : Bool :=
  decide (r.off ≤ off) && (off - r.off) % r.step == 0 && decide ((off - r.off) / r.step < r.cnt)

/-- Whether a row of the port block exists in port block `n` (R442: HP_ and CL_GRP are reserved in PU). -/
def RegRow.inPort (r : RegRow) (n : Nat) : Bool :=
  match r.scope with
  | .all => true
  | .pnOnly => decide (n < 16)
  | .puOnly => n == 16

/-- The row of an address, `none` for reserved and unimplemented locations (R423, R442). -/
def regRow (a : Nat) : Option RegRow :=
  if a % 4 ≠ 0 then none
  else if a < 0xC000 then
    match topRows[a / 0x1000]? with
    | some rows => rows.find? (·.covers (a % 0x1000))
    | none => none
  else if 0x10000 ≤ a ∧ a < 0x21000 then
    portRows.find? fun r => r.covers (a % 0x1000) && r.inPort (a / 0x1000 - 0x10)
  else none

/-- The port of an address in a port block. -/
def addrPort (a : Nat) : Option PortId :=
  if h : 0x10000 ≤ a ∧ a < 0x21000 then some ⟨a / 0x1000 - 0x10, by omega⟩ else none

/-- The commit group of an address (R443): G2 to G5 by quad, G6 for PU. MT_CFG of a port is in G10. -/
def regGroup (a : Nat) : Option Nat :=
  match regRow a with
  | none => none
  | some r =>
    match r.grp with
    | .none => none
    | .fixed g => some g
    | .quad => (addrPort a).map fun p => if p.val = 16 then 6 else 2 + p.val / 4

/-- Reset words of the default brake curve of ports and aux outputs (R120): BRKCFG, BRK0 to BRK3. -/
def brkPortReset (k : Nat) : Word :=
  match k with
  | 0 => 0x000C00C8 | 1 => 0x00600226 | 2 => 0x00500271 | 3 => 0x004002EE | 4 => 0x0030036B | _ => 0

/-- Reset words of the feed brake curves (R120). -/
def brkFeedReset (k : Nat) : Word :=
  match k with
  | 0 => 0x000807D0 | 1 => 0x004004E2 | 2 => 0x003005DC | _ => 0

/-- FLT_REACT0 to FLT_REACT7 (16_faults.md, FLT registers). -/
def reactReset (k : Nat) : Word :=
  match k with
  | 0 => 0x02222220 | 1 => 0 | 2 => 0x22121222 | 3 => 0x00000022 | 4 => 0x11111111 | 5 => 0x00000002
  | 6 => 0x11111111 | _ => 0

/-- The nibbles of the defined sources of FLT_REACTk; the others are read-only and read 0 (R404). -/
def reactMask (k : Nat) : Word :=
  match k with
  | 0 => 0x0FFFFFF0 | 2 => 0xFFFFFFFF | 3 => 0x000000FF | 4 => 0xFFFFFFFF | 5 => 0x0000000F | 6 => 0xFFFFFFFF
  | _ => 0

/-- STO_RGN0 to STO_RGN6: the default map (R291). -/
def rgnReset (n : Nat) : Word :=
  match n with
  | 0 => 0x00100000 | 1 => 0x00400010 | 2 => 0x00C00050 | 3 => 0x00220110 | 4 => 0x00100132 | 5 => 0x00200142
  | _ => 0x009E0162

/-- The default carving of the embedded function (R268): BASE and SIZE in 64-byte units. -/
def carveReset (e : Nat) : Nat × Nat :=
  match e with
  | 0 => (0, 2) | 1 => (16, 32) | 2 => (48, 32) | 3 => (80, 64) | 4 => (144, 16) | 5 => (160, 64) | _ => (224, 32)

/-- Reset words of PD_PDOCNT (k = 0) and PD_PDO0 to PD_PDO10 (k = 1 to 11), 06_pd_engine.md. -/
def pdoReset (pu : Bool) (k : Nat) : Word :=
  if pu then
    match k with
    | 0 => 0x12 | 1 => 0x00019096 | 2 => 0x0006412C | 8 => 0x000F01F4 | _ => 0
  else
    match k with
    | 0 => 0x44 | 1 => 0x1912c | 2 => 0x2d12c | 3 => 0x4b12c | 4 => 0x641f4 | 8 => 0x8c1f4 | 9 => 0xb41f4 | 10 => 0xf01f4 | 11 => 0xd3c096f0 | _ => 0

/-- What register `a` reads after a cold reset, for the fields the register file holds (R445). -/
def regReset (a : Nat) : Word :=
  match regRow a with
  | none => 0
  | some r =>
    if 0x10000 ≤ a then
      let off := a % 0x1000
      if 0x440 ≤ off ∧ off ≤ 0x460 then brkPortReset ((off - 0x440) / 4)
      else if off = 0x23C then pdoReset (a / 0x1000 == 0x20) 0
      else if 0x240 ≤ off ∧ off ≤ 0x268 then pdoReset (a / 0x1000 == 0x20) ((off - 0x240) / 4 + 1)
      else r.reset
    else if 0x2040 ≤ a ∧ a ≤ 0x205C then reactReset ((a - 0x2040) / 4)
    else if 0x4100 ≤ a ∧ a ≤ 0x4160 then brkFeedReset ((a % 0x40) / 4)
    else if 0x4180 ≤ a ∧ a ≤ 0x41E0 then brkPortReset ((a % 0x40) / 4)
    else if 0x7140 ≤ a ∧ a ≤ 0x7174 ∧ (a - 0x7140) % 8 = 0 then rgnReset ((a - 0x7140) / 8)
    else if 0x9040 ≤ a ∧ a ≤ 0x9074 then
      let c := carveReset ((a - 0x9040) / 8)
      let v := if (a - 0x9040) % 8 = 0 then c.1 else c.2
      BitVec.ofNat 32 (v * 0x10001)
    else r.reset

/-- The keyed buffered bits of a row at an address: FLT_REACT's nibbles of undefined sources are read-only (R405). -/
def rwkcMask (a : Nat) (r : RegRow) : Word :=
  if 0x2040 ≤ a ∧ a ≤ 0x205C then reactMask ((a - 0x2040) / 4) else r.rwkc

end Sys2Proof.Machine
end

