-- ==== Sys2Proof/Machine/Ops.lean ====
section
/-! DEFINITION. Named operations: sparse data, the register file and its fields, access to the parts of a port, the time
stamps and the supplies. Every register access of the model goes through `State.reg` and `State.setReg`. -/

namespace Sys2Proof.Machine

/-! ### Sparse data in canonical form -/

/-- What key `k` holds; `d` is what an unlisted key reads as. -/
def SMap.get {β : Type} (d : Nat → β) : SMap β → Nat → β
  | [], k => d k
  | (a, v) :: m, k => if k < a then d k else if k = a then v else SMap.get d m k

/-- Writes key `k`; writing what an unlisted key reads as removes the entry. -/
def SMap.set {β : Type} [DecidableEq β] (d : Nat → β) : SMap β → Nat → β → SMap β
  | [], k, v => if v = d k then [] else [(k, v)]
  | (a, x) :: m, k, v =>
    if k < a then (if v = d k then (a, x) :: m else (k, v) :: (a, x) :: m)
    else if k = a then (if v = d k then m else (k, v) :: m)
    else (a, x) :: SMap.set d m k v

/-- The first key of a map, if any, lies above `b`. -/
def SMap.above {β : Type} (b : Nat) : SMap β → Bool
  | [] => true
  | (a, _) :: _ => decide (b < a)

/-- The canonical form: keys strictly rising, and no entry equal to what an unlisted key reads as. -/
def SMap.wf {β : Type} [DecidableEq β] (d : Nat → β) : SMap β → Bool
  | [] => true
  | (a, v) :: m => decide (v ≠ d a) && SMap.above a m && SMap.wf d m

/-- Keeps the keys that satisfy `p`. -/
def SMap.keep {β : Type} (p : Nat → Bool) (m : SMap β) : SMap β := m.filter fun e => p e.1

/-- A map from any list of pairs, later pairs winning. -/
def SMap.ofList {β : Type} [DecidableEq β] (d : Nat → β) (l : List (Nat × β)) : SMap β :=
  l.foldl (fun m e => SMap.set d m e.1 e.2) []

/-- Writes `vs` at `k`, `k + step`, …. -/
def SMap.setSeq {β : Type} [DecidableEq β] (d : Nat → β) (step : Nat) : SMap β → Nat → List β → SMap β
  | m, _, [] => m
  | m, k, v :: vs => SMap.setSeq d step (SMap.set d m k v) (k + step) vs

/-! ### Fields of words -/

/-- Bits `lo` to `lo + n - 1` of a word, as a number. -/
def bitsOf (w : Word) (lo n : Nat) : Nat := (w.toNat >>> lo) % 2 ^ n

/-- The mask of bits `lo` to `lo + n - 1`. -/
def maskOf (lo n : Nat) : Word := BitVec.ofNat 32 ((2 ^ n - 1) <<< lo)

/-- `v` placed at bits `lo` to `lo + n - 1`. -/
def atBits (lo n v : Nat) : Word := BitVec.ofNat 32 ((v % 2 ^ n) <<< lo)

/-- A word with a field replaced. -/
def putBits (w : Word) (lo n v : Nat) : Word := (w &&& ~~~ maskOf lo n) ||| atBits lo n v

/-- A word with bit `k` set. -/
def setBit (w : Word) (k : Nat) : Word := w ||| atBits k 1 1

/-- Bit `k` of a word. -/
def bitOf (w : Word) (k : Nat) : Bool := bitsOf w k 1 == 1

/-- 1 for true. -/
def b2n (b : Bool) : Nat := if b then 1 else 0

/-- A mask with bit `i` set where `f i` holds, for `i` below `n`. -/
def maskFrom (n : Nat) (f : Nat → Bool) : Nat :=
  (List.range n).foldl (fun m i => m + b2n (f i) * 2 ^ i) 0

/-! ### The register file -/

/-- The word the register file holds at `a`: every field that no other part of the state computes (R442, R445). -/
def State.reg (s : State) (a : Nat) : Word := s.regs.get regReset a

/-- Writes the word of the register file at `a`. -/
def State.setReg (s : State) (a : Nat) (w : Word) : State := { s with regs := s.regs.set regReset a w }

/-- The value of a field the register file holds. -/
def State.rd (s : State) (f : Fld) : Nat := bitsOf (s.reg f.addr) f.lo f.w

/-- Whether a field of the register file is not 0. -/
def State.rdB (s : State) (f : Fld) : Bool := s.rd f != 0

/-- Writes a field of the register file. -/
def State.wr (s : State) (f : Fld) (v : Nat) : State := s.setReg f.addr (putBits (s.reg f.addr) f.lo f.w v)

/-- Adds to a counter field that saturates at its greatest value. -/
def State.addSat (s : State) (f : Fld) (n : Nat) : State := s.wr f (min (s.rd f + n) (2 ^ f.w - 1))

/-- Increments a counter field that saturates. -/
def State.bump (s : State) (f : Fld) : State := s.addSat f 1

/-- Increments a counter field that wraps. -/
def State.bumpWrap (s : State) (f : Fld) : State := s.wr f (s.rd f + 1)

/-! ### Parts of the state -/

abbrev State.port (s : State) (p : PortId) : Port := s.ports[p]

def State.setPort (s : State) (p : PortId) (x : Port) : State := { s with ports := s.ports.set p x }
def State.modPp (s : State) (p : PortId) (f : Pp → Pp) : State := s.setPort p { s.port p with pp := f (s.port p).pp }
def State.modTc (s : State) (p : PortId) (f : Tc → Tc) : State := s.setPort p { s.port p with tc := f (s.port p).tc }
def State.modPd (s : State) (p : PortId) (f : Pd → Pd) : State := s.setPort p { s.port p with pd := f (s.port p).pd }
def State.modU (s : State) (p : PortId) (f : UPort → UPort) : State := s.setPort p { s.port p with u := f (s.port p).u }
def State.modTt (s : State) (p : PortId) (f : Tt → Tt) : State := s.setPort p { s.port p with tt := f (s.port p).tt }
def State.modCl (s : State) (p : PortId) (f : Link → Link) : State := s.setPort p { s.port p with cl := f (s.port p).cl }

/-- A downstream port as a port. -/
def dport (p : DPort) : PortId := ⟨p.val, by omega⟩

/-- P0 to P15 (the downstream ports) and all seventeen ports. -/
def downPorts : List PortId := (List.finRange 16).map dport
def allPorts : List PortId := List.finRange 17

/-- Does something for every element, first to last. -/
def forEach {α : Type} (l : List α) (f : α → State → State) (s : State) : State := l.foldl (fun s x => f x s) s

def State.modFeed (s : State) (f : Feed → Feed) : State := { s with feed := f s.feed }
def State.modPwr (s : State) (f : Pwr → Pwr) : State := { s with pwr := f s.pwr }
def State.modGlb (s : State) (f : Glb → Glb) : State := { s with glb := f s.glb }
def State.modEvq (s : State) (f : Evq → Evq) : State := { s with evq := f s.evq }
def State.modFlt (s : State) (f : Flt → Flt) : State := { s with flt := f s.flt }
def State.modPmb (s : State) (f : Pmb → Pmb) : State := { s with pmb := f s.pmb }
def State.modNvm (s : State) (f : Nvm → Nvm) : State := { s with nvm := f s.nvm }
def State.modSto (s : State) (f : Sto → Sto) : State := { s with sto := f s.sto }
def State.modHub (s : State) (f : Hub → Hub) : State := { s with hub := f s.hub }
def State.modEfn (s : State) (f : Efn → Efn) : State := { s with efn := f s.efn }
def State.modTim (s : State) (f : Tim → Tim) : State := { s with tim := f s.tim }
def State.modCad (s : State) (f : Cad → Cad) : State := { s with cad := f s.cad }
def State.modDyn (s : State) (f : Dyn → Dyn) : State := { s with dyn := f s.dyn }
def State.modI2c (s : State) (f : I2cEngine → I2cEngine) : State := { s with i2c := f s.i2c }
def State.modMt (s : State) (f : Meters → Meters) : State := { s with mt := f s.mt }
def State.modImg (s : State) (f : Img → Img) : State := { s with img := f s.img }
def State.modBm (s : State) (f : Bm → Bm) : State := { s with bm := f s.bm }

/-- What a path keeps for itself (R430, R432, R438). -/
def State.path (s : State) : Path → PathState
  | .loader => s.loader
  | .i2c => s.i2cP
  | .usb => s.usbP

def State.modPath (s : State) (p : Path) (f : PathState → PathState) : State :=
  match p with
  | .loader => { s with loader := f s.loader }
  | .i2c => { s with i2cP := f s.i2cP }
  | .usb => { s with usbP := f s.usbP }

/-! ### Feeds and aux outputs -/

def Feed.line (x : Feed) : FeedId → FeedLine
  | .fa => x.fa
  | .fb => x.fb
  | .fc => x.fc

def Feed.setLine (x : Feed) (f : FeedId) (l : FeedLine) : Feed :=
  match f with
  | .fa => { x with fa := l }
  | .fb => { x with fb := l }
  | .fc => { x with fc := l }

def State.line (s : State) (f : FeedId) : FeedLine := s.feed.line f

/-- A wake source is detected outside RUN and IDLE (R388, R389); the end of the command acts on it. -/
def noticeIf (c : Bool) (w : WakeSrc) (p : Option PortId) (s : State) : State :=
  s.modPwr fun x => if c && (x.st == .entering || x.st == .sleep || x.st == .deep) then
    { x with noticed := x.noticed ++ [(w, p)] } else x

def notice (w : WakeSrc) (p : Option PortId) (s : State) : State := noticeIf true w p s

/-- A feed that changes state is a wake source (R389). -/
def State.modLine (s : State) (f : FeedId) (g : FeedLine → FeedLine) : State :=
  (noticeIf ((g (s.line f)).st != (s.line f).st) .feed none s).modFeed fun x => x.setLine f (g (x.line f))
def State.ax (s : State) (a : AxId) : AxPath := s.feed.ax[a]
def State.modAx (s : State) (a : AxId) (g : AxPath → AxPath) : State :=
  s.modFeed fun x => { x with ax := x.ax.set a (g x.ax[a]) }

/-! ### Time -/

/-- TB0 as seconds and nanoseconds (R304). -/
def State.tb0 (s : State) : TbTime := ⟨s.tim.tb0.sec.toNat, s.tim.tb0.ns.toNat⟩

/-- TB3 in periods of 32.768 kHz (R304). -/
def State.tb3 (s : State) : Nat := s.tim.tb3.toNat

/-- Nanoseconds of a TB0 time since its origin. -/
def tbNs (t : TbTime) : Nat := t.sec * 1000000000 + t.ns

def tbOfNs (n : Nat) : TbTime := ⟨n / 1000000000, n % 1000000000⟩

/-- Earlier or equal. -/
def tbLe (a b : TbTime) : Bool := decide (tbNs a ≤ tbNs b)

/-- Whether at most `sec` seconds of TB3 have passed since `t3`. -/
def State.within (s : State) (t3 sec : Nat) : Bool := decide (s.tb3 - t3 ≤ sec * 32768)

/-! ### Supplies and states -/

/-- The hub has a supply and is out of OFF: its AON logic runs (R17). -/
def State.aonUp (s : State) : Bool :=
  match s.glb.phase with
  | .unpowered | .off => false
  | _ => true

/-- CORE runs: released and its clocks not stopped (R17, R26). -/
def State.coreUp (s : State) : Bool :=
  (match s.glb.phase with
   | .loader | .signature | .converters | .up => true
   | _ => false) &&
  (match s.pwr.st with
   | .run | .idle | .entering => true
   | _ => false)

/-- The start ladder has ended and the hub is in RUN, IDLE, or entering or leaving SLEEP or DEEP. -/
def State.isUp (s : State) : Bool := s.glb.phase == .up

/-- A fresh free value: nothing says which word it is. -/
def State.fresh (s : State) : Word × State := (Config.freeWord s.free, { s with free := s.free + 1 })

end Sys2Proof.Machine
end

