-- ==== Sys2Proof/Machine/Operands.lean ====
section
/-! DEFINITION. Operand forms shared by the families: bytes and words, the CRCs, SHA-256 and ECDSA P-256, and the
power data objects of USB PD as the rules read them. -/

namespace Sys2Proof.Machine

/-! ### Bytes and words -/

/-- `n` bytes of a number, least significant first. -/
def leBytes : Nat → Nat → List Byte
  | 0, _ => []
  | n + 1, v => BitVec.ofNat 8 (v % 256) :: leBytes n (v / 256)

/-- `n` bytes of a number, most significant first. -/
def beBytes (n v : Nat) : List Byte := (leBytes n v).reverse

/-- The number a little-endian byte list spells. -/
def leNat : List Byte → Nat
  | [] => 0
  | b :: l => b.toNat + 256 * leNat l

/-- The number a big-endian byte list spells. -/
def beNat (l : List Byte) : Nat := leNat l.reverse

/-- The four bytes of a word, least significant first (R425, R415). -/
def wordBytes (w : Word) : List Byte := leBytes 4 w.toNat

/-- The bytes of a list of words. -/
def wordsBytes (l : List Word) : List Byte := l.flatMap wordBytes

/-- The words of a byte list, four bytes each, least significant first; a last part is filled with 0. -/
def bytesWords : Nat → List Byte → List Word
  | 0, _ => []
  | n + 1, l => BitVec.ofNat 32 (leNat (l.take 4)) :: bytesWords n (l.drop 4)

/-- `n` bytes from position `k`. -/
def slice (l : List Byte) (k n : Nat) : List Byte := (l.drop k).take n

/-- The number at position `k`, `n` bytes, little-endian. -/
def leAt (l : List Byte) (k n : Nat) : Nat := leNat (slice l k n)

/-- The number at position `k`, `n` bytes, big-endian. -/
def beAt (l : List Byte) (k n : Nat) : Nat := beNat (slice l k n)

/-- A signed number from its two's complement of `n` bits. -/
def signed (n v : Nat) : Int := if v < 2 ^ (n - 1) then (v : Int) else (v : Int) - 2 ^ n

/-- The low `n` bits of a number's two's complement. -/
def unsigned (n : Nat) (v : Int) : Nat := (v % (2 ^ n : Int)).toNat

/-! ### CRCs -/

/-- `k` steps of the SMBus CRC-8, polynomial x⁸ + x² + x + 1 (R427). -/
def crc8Bits : Nat → Byte → Byte
  | 0, c => c
  | k + 1, c => crc8Bits k (if c.getLsbD 7 then (c <<< 1) ^^^ 0x07 else c <<< 1)

/-- The SMBus PEC of a byte list (R427, R201). -/
def pec (l : List Byte) : Byte := l.foldl (fun c b => crc8Bits 8 (c ^^^ b)) 0

/-- `k` steps of the reflected CRC-32 of IEEE 802.3. -/
def crc32Bits : Nat → Word → Word
  | 0, c => c
  | k + 1, c => crc32Bits k (if c.getLsbD 0 then (c >>> 1) ^^^ 0xEDB88320 else c >>> 1)

/-- CRC-32, reflected, initial value and final XOR 0xFFFF_FFFF (R58). -/
def crc32 (l : List Byte) : Word :=
  (l.foldl (fun c b => crc32Bits 8 (c ^^^ b.zeroExtend 32)) 0xFFFFFFFF) ^^^ 0xFFFFFFFF

/-! ### SHA-256 (FIPS 180-4), for R67. PRESUMED: the standard's text is not in the spec (log entry 13). -/

def shaK_0 : List Word :=
  [0x428a2f98, 0x71374491, 0xb5c0fbcf, 0xe9b5dba5, 0x3956c25b, 0x59f111f1, 0x923f82a4, 0xab1c5ed5,
   0xd807aa98, 0x12835b01, 0x243185be, 0x550c7dc3, 0x72be5d74, 0x80deb1fe, 0x9bdc06a7, 0xc19bf174]

def shaK_1 : List Word :=
  [0xe49b69c1, 0xefbe4786, 0x0fc19dc6, 0x240ca1cc, 0x2de92c6f, 0x4a7484aa, 0x5cb0a9dc, 0x76f988da,
   0x983e5152, 0xa831c66d, 0xb00327c8, 0xbf597fc7, 0xc6e00bf3, 0xd5a79147, 0x06ca6351, 0x14292967]

def shaK_2 : List Word :=
  [0x27b70a85, 0x2e1b2138, 0x4d2c6dfc, 0x53380d13, 0x650a7354, 0x766a0abb, 0x81c2c92e, 0x92722c85,
   0xa2bfe8a1, 0xa81a664b, 0xc24b8b70, 0xc76c51a3, 0xd192e819, 0xd6990624, 0xf40e3585, 0x106aa070]

def shaK_3 : List Word :=
  [0x19a4c116, 0x1e376c08, 0x2748774c, 0x34b0bcb5, 0x391c0cb3, 0x4ed8aa4a, 0x5b9cca4f, 0x682e6ff3,
   0x748f82ee, 0x78a5636f, 0x84c87814, 0x8cc70208, 0x90befffa, 0xa4506ceb, 0xbef9a3f7, 0xc67178f2]

def shaK : List Word := shaK_0 ++ shaK_1 ++ shaK_2 ++ shaK_3

/-- The eight working words. -/
structure ShaH where
  a : Word
  b : Word
  c : Word
  d : Word
  e : Word
  f : Word
  g : Word
  h : Word
  deriving DecidableEq, Repr

def shaInit : ShaH :=
  ⟨0x6a09e667, 0xbb67ae85, 0x3c6ef372, 0xa54ff53a, 0x510e527f, 0x9b05688c, 0x1f83d9ab, 0x5be0cd19⟩

def shaRound (x : ShaH) (k w : Word) : ShaH :=
  let s1 := x.e.rotateRight 6 ^^^ x.e.rotateRight 11 ^^^ x.e.rotateRight 25
  let ch := (x.e &&& x.f) ^^^ (~~~ x.e &&& x.g)
  let t1 := x.h + s1 + ch + k + w
  let s0 := x.a.rotateRight 2 ^^^ x.a.rotateRight 13 ^^^ x.a.rotateRight 22
  let mj := (x.a &&& x.b) ^^^ (x.a &&& x.c) ^^^ (x.b &&& x.c)
  ⟨t1 + (s0 + mj), x.a, x.b, x.c, x.d + t1, x.e, x.f, x.g⟩

/-- The rounds, with the message schedule kept as its last sixteen words. -/
def shaRounds : List Word → List Word → ShaH → ShaH
  | [], _, x => x
  | k :: ks, win, x =>
    let w := win.headD 0
    let w1 := win.getD 1 0
    let w14 := win.getD 14 0
    let s0 := w1.rotateRight 7 ^^^ w1.rotateRight 18 ^^^ (w1 >>> 3)
    let s1 := w14.rotateRight 17 ^^^ w14.rotateRight 19 ^^^ (w14 >>> 10)
    shaRounds ks (win.tail ++ [w + s0 + win.getD 9 0 + s1]) (shaRound x k w)

def shaBlock (x : ShaH) (l : List Byte) : ShaH :=
  let win := (List.range 16).map fun i => BitVec.ofNat 32 (beAt l (4 * i) 4)
  let y := shaRounds shaK win x
  ⟨x.a + y.a, x.b + y.b, x.c + y.c, x.d + y.d, x.e + y.e, x.f + y.f, x.g + y.g, x.h + y.h⟩

def shaBlocks : Nat → List Byte → ShaH → ShaH
  | 0, _, x => x
  | n + 1, l, x => shaBlocks n (l.drop 64) (shaBlock x (l.take 64))

/-- The 32-byte SHA-256 digest. -/
def sha256 (m : List Byte) : List Byte :=
  let z := (119 - m.length % 64) % 64
  let l := m ++ [0x80] ++ List.replicate z 0 ++ beBytes 8 (8 * m.length)
  let x := shaBlocks (l.length / 64) l shaInit
  [x.a, x.b, x.c, x.d, x.e, x.f, x.g, x.h].flatMap fun w => beBytes 4 w.toNat

/-! ### ECDSA over P-256 (FIPS 186), for R67. PRESUMED (log entry 13). -/

def p256P : Nat := 0xFFFFFFFF00000001000000000000000000000000FFFFFFFFFFFFFFFFFFFFFFFF
def p256N : Nat := 0xFFFFFFFF00000000FFFFFFFFFFFFFFFFBCE6FAADA7179E84F3B9CAC2FC632551
def p256B : Nat := 0x5AC635D8AA3A93E7B3EBBD55769886BC651D06B0CC53B0F63BCE3C3E27D2604B
def p256G : Nat × Nat :=
  (0x6B17D1F2E12C4247F8BCE6E563A440F277037D812DEB33A0F4A13945D898C296,
   0x4FE342E2FE1A7F9B8EE7EB4A7C0F9E162BCE33576B315ECECBB6406837BF51F5)

/-- `a ^ e` modulo `m`, `k` bits of the exponent. -/
def powMod (m a : Nat) : Nat → Nat → Nat
  | 0, _ => 1
  | k + 1, e =>
    let r := powMod m a k (e / 2)
    if e % 2 = 1 then r * r % m * a % m else r * r % m

def invMod (m a : Nat) : Nat := powMod m a 256 (m - 2)

/-- The sum of two points of the curve; `none` is the point at infinity. -/
def ecAdd (x y : Option (Nat × Nat)) : Option (Nat × Nat) :=
  match x, y with
  | none, q => q
  | q, none => q
  | some (x1, y1), some (x2, y2) =>
    if x1 = x2 ∧ (y1 + y2) % p256P = 0 then none
    else
      let l := if x1 = x2 then (3 * x1 * x1 + (p256P - 3)) * invMod p256P (2 * y1 % p256P) % p256P
               else (y2 + p256P - y1) * invMod p256P ((x2 + p256P - x1) % p256P) % p256P
      let x3 := (l * l + 2 * p256P - x1 - x2) % p256P
      some (x3, (l * (x1 + p256P - x3) + p256P - y1) % p256P)

/-- `e` times a point, `k` bits of the scalar. -/
def ecMul (g : Option (Nat × Nat)) : Nat → Nat → Option (Nat × Nat)
  | 0, _ => none
  | k + 1, e =>
    let r := ecMul g k (e / 2)
    let d := ecAdd r r
    if e % 2 = 1 then ecAdd d g else d

/-- A point on the curve with both coordinates in range. -/
def ecOnCurve (q : Nat × Nat) : Bool :=
  decide (q.1 < p256P) && decide (q.2 < p256P) &&
    q.2 * q.2 % p256P == (q.1 * q.1 * q.1 + (p256P - 3) * q.1 + p256B) % p256P

/-- Verifies the signature (r, s) of a digest with the public key `q`. -/
def ecdsaVerify (q : Nat × Nat) (r s : Nat) (digest : List Byte) : Bool :=
  if ecOnCurve q && decide (0 < r ∧ r < p256N ∧ 0 < s ∧ s < p256N) then
    let w := invMod p256N s
    let u1 := beNat digest * w % p256N
    let u2 := r * w % p256N
    match ecAdd (ecMul (some p256G) 256 u1) (ecMul (some q) 256 u2) with
    | none => false
    | some (x, _) => x % p256N == r
  else false

end Sys2Proof.Machine
end

