-- ==== Sys2Proof/Machine/Flags.lean ====
section
/-! DEFINITION. The EVT flags and the event queue (16_faults.md R404, R415 to R418): every bit set in an EVT register
queues an event; entries live in the EVQ region of the store, or in the AON buffer while the store or CORE is down. -/

namespace Sys2Proof.Machine

/-! ### Store words, as writes need them -/

/-- A word as a full write leaves it: valid check bits (R290). -/
def cleanCell (w : Word) : StoCell := { data := w }

/-- What an unlisted store word holds: zero with valid check bits (R293). -/
def cellDefault (_ : Nat) : StoCell := cleanCell 0

def State.cell (s : State) (k : Nat) : StoCell := s.sto.mem.get cellDefault k
def State.setCell (s : State) (k : Nat) (c : StoCell) : State :=
  s.modSto fun x => { x with mem := x.mem.set cellDefault k c }

/-- Writes whole words with fresh check bits from byte address `a` on (R290). -/
def State.storeWords (s : State) (a : Nat) (ws : List Word) : State :=
  s.modSto fun x => { x with mem := x.mem.setSeq cellDefault 1 (a / 4) (ws.map cleanCell) }

/-- Whether page `p` is retired (R302). -/
def State.retired (s : State) (p : Nat) : Bool := bitOf (s.reg (R.STO_RETIRE (p / 32))) (p % 32)

/-- The first page of region `n`: runs from page 0 in the order EFN, TT, CAD, PD, EVQ, MTR, FREE (R291). -/
def State.rgnBase (s : State) (n : Nat) : Nat := (s.sto.rgn.toList.take n).sum

/-- The page count of region `n`; FREE takes what remains. -/
def State.rgnCount (s : State) (n : Nat) : Nat :=
  if h : n < 6 then s.sto.rgn[n] else 512 - s.sto.rgn.toList.sum

/-- The pages of region `n`. -/
def State.rgnPages (s : State) (n : Nat) : List Nat := (List.range (s.rgnCount n)).map (· + s.rgnBase n)

/-! ### Fault sources (R404) -/

/-- The codes of R404. -/
def FSrc.code : FSrc → Nat
  | .tempCrit => 0x01 | .vinOv => 0x02 | .x24Stop => 0x03 | .vddc => 0x04 | .ctrlUe => 0x05 | .convOn => 0x06
  | .portLock => 0x10 | .feedLock => 0x11 | .axLock => 0x12 | .vconnOc => 0x13 | .ccOvp => 0x14 | .sbuOvp => 0x15
  | .massWet => 0x16 | .pmbFaulty => 0x17 | .pmbStuck => 0x18 | .tempHigh => 0x19
  | .ttOverrun => 0x20 | .cadFailed => 0x21 | .cadTooDeep => 0x22 | .cadLateError => 0x23 | .cadNoPages => 0x24
  | .regTimeout => 0x25 | .x32Rc => 0x26 | .retReset => 0x27 | .wakeFail => 0x28
  | .poisonTt => 0x30 | .poisonEfn => 0x31 | .poisonRegUsb => 0x32 | .poisonRegI2c => 0x33 | .poisonCad => 0x34
  | .poisonPd => 0x35 | .poisonEvq => 0x36 | .ttNoPage => 0x37

/-- The class of a source code: 0 A, 1 B, 2 C, 3 D (R404: codes 0x0n, 0x1n, 0x2n, 0x3n). -/
def FSrc.cls (f : FSrc) : Nat := f.code / 16

/-- Records a fault; it is collected when the command ends (R405, R406, R410). -/
def raiseFault (d : FaultDue) (s : State) : State := s.modFlt fun f => { f with due := f.due ++ [d] }

/-- The faults that are protection events: trips, locks, temperature, overvoltage, over-current, the PMBus (R388, R389). -/
def FSrc.protects : FSrc → Bool
  | .tempCrit | .tempHigh | .vinOv | .vddc | .convOn | .portLock | .feedLock | .axLock | .vconnOc | .ccOvp | .sbuOvp
  | .pmbFaulty | .pmbStuck => true
  | _ => false

/-- A fault with no access. -/
def raiseAt (f : FSrc) (p : Option PortId) (s : State) : State :=
  raiseFault { src := f, port := p } (noticeIf f.protects .prot p s)

/-! ### Event entries (R415, R416) -/

/-- Words 0 to 3 of an entry as held: SEQ is assigned when it is popped (R417). -/
def evWords (e : EvEntry) : List Word :=
  [0x80000000 ||| atBits 16 8 e.source.toNat ||| atBits 0 16 e.code.toNat,
   e.detail,
   BitVec.ofNat 32 e.at_.sec,
   atBits 31 1 (b2n e.lost) ||| atBits 0 30 e.at_.ns]

/-- The SOURCE of an event of the block at `a`: address bits [19:12]. -/
def evSource (a : Nat) : Byte := BitVec.ofNat 8 (a / 0x1000)

/-- The CODE of bit `k` of the EVT register at `a` (R416). -/
def evCode (a k : Nat) : BitVec 16 := BitVec.ofNat 16 (a % 0x1000 / 16 * 256 + k)

/-- A LOST entry with a count (R416: source EVQ, code 0xFF04). -/
def lostEntry (s : State) (n : Nat) : EvEntry :=
  { source := 0x03, code := 0xFF04, detail := BitVec.ofNat 32 (min n 0xFFFFFFFF), at_ := s.tb0, lost := true }

/-! ### The queue (R415 to R418) -/

/-- Entries the usable pages hold: 64 each (EVQ_STATUS.CAPACITY). -/
def State.evqCap (s : State) : Nat := 64 * s.evq.pages.length

/-- The lowest page of the EVQ region that is neither retired nor in the ring (R292). -/
def State.evqSpare (s : State) : Option Nat :=
  (s.rgnPages 4).find? fun p => !s.retired p && !s.evq.pages.contains p

/-- The write pointer enters a page: a retired page is replaced by the lowest spare or, with none, skipped (R292). -/
def evqEnter : Nat → State → State
  | 0, s => s
  | n + 1, s =>
    let i := s.evq.wr / 64
    if s.evq.wr % 64 ≠ 0 then s
    else match s.evq.pages[i]? with
      | none => s.modEvq fun q => { q with wr := 0 }
      | some p =>
        if !s.retired p then s
        else match s.evqSpare with
          | some q => s.modEvq fun e => { e with pages := e.pages.set i q }
          | none => evqEnter n (s.modEvq fun e =>
              { e with pages := e.pages.eraseIdx i, wr := if i + 1 < e.pages.length then e.wr else 0 })

/-- Counts entries lost; `lost` is EVQ_LOST. -/
def evqCountLost (n : Nat) (s : State) : State := s.addSat F.EVQ_LOST_LOST n

/-- Losses to be announced by a LOST entry before the next entry (R33, R418). -/
def evqOwe (n : Nat) (s : State) : State := s.modEvq fun q => { q with lostNext := q.lostNext + n }

/-- Appends an entry at the write pointer. -/
def evqStore (e : EvEntry) (w : Option Nat) (s : State) : State :=
  match s.evq.pages[s.evq.wr / 64]? with
  | none => evqOwe (w.getD 1) s
  | some p =>
    let a := p * 1024 + s.evq.wr % 64 * 16
    (s.storeWords a (evWords e)).modEvq fun q =>
      { q with held := q.held ++ [⟨a, w⟩], wr := (q.wr + 1) % (64 * q.pages.length) }

/-- Makes the entry at `m` a LOST entry with count `n`: a new one takes all four words, a held one a new count. -/
def evqMakeLost (m : EvMeta) (n : Nat) (s : State) : State :=
  match m.lost with
  | none => s.storeWords m.addr (evWords (lostEntry s n))
  | some _ => s.storeWords (m.addr + 4) [BitVec.ofNat 32 (min n 0xFFFFFFFF)]

/-- Policy 0 with fewer than two slots free: the arriving entry is dropped and counted (R418). -/
def evqStop (free weight fresh : Nat) (s : State) : State :=
  let s := evqCountLost fresh s
  match s.evq.held.reverse with
  | [] => evqOwe weight s
  | m :: rest =>
    match m.lost with
    | some n =>
      (evqMakeLost m (n + weight) s).modEvq fun q => { q with held := rest.reverse ++ [⟨m.addr, some (n + weight)⟩] }
    | none =>
      if free = 1 then evqStore (lostEntry s weight) (some weight) s
      else
        (evqMakeLost m (1 + weight) (evqCountLost 1 s)).modEvq fun q =>
          { q with held := rest.reverse ++ [⟨m.addr, some (1 + weight)⟩] }

/-- Policy 1 with no slot free: the two oldest entries become one LOST entry, or a LOST oldest entry takes in the entry
after it, until a slot is free (R418). -/
def evqOverwrite : Nat → State → State
  | 0, s => s
  | k + 1, s =>
    if s.evq.held.length < s.evqCap then s
    else match s.evq.held with
      | a :: b :: rest =>
        let n := a.lost.getD 1 + b.lost.getD 1
        let fresh := b2n a.lost.isNone + b2n b.lost.isNone
        evqOverwrite k ((evqMakeLost ⟨b.addr, none⟩ n (evqCountLost fresh s)).modEvq fun q =>
          { q with held := ⟨b.addr, some n⟩ :: rest })
      | _ => s

/-- Puts one entry into the queue under EVQ_CTRL.POLICY (R418); `w` is the count of a LOST entry. -/
def evqPut (e : EvEntry) (w : Option Nat) (s : State) : State :=
  let s := evqEnter 17 s
  let free := s.evqCap - s.evq.held.length
  let weight := w.getD 1
  let fresh := b2n w.isNone
  if s.rdB F.EVQ_CTRL_POLICY then
    let s := evqOverwrite s.evq.held.length s
    if s.evq.held.length < s.evqCap then evqStore e w s else evqOwe weight (evqCountLost fresh s)
  else if 2 ≤ free then evqStore e w s
  else evqStop free weight fresh s

/-- Announces owed losses, then puts the entry (R33, R418). -/
def evqEnqueue (e : EvEntry) (s : State) : State :=
  let n := s.evq.lostNext
  let s := if n = 0 then s
    else evqPut (lostEntry s n) (some n) (s.modEvq fun q => { q with lostNext := 0 })
  evqPut e (if e.lost then some e.detail.toNat else none) s

/-- The AON buffer of 16 entries; an event that finds it full is lost, and announced after the sixteen (R417, R418). -/
def evqBuffer (e : EvEntry) (s : State) : State :=
  let b := s.evq.aonBuf
  if b.length < 16 then s.modEvq fun q => { q with aonBuf := q.aonBuf ++ [e] }
  else
    let s := evqCountLost 1 s
    match b[16]? with
    | none => s.modEvq fun q => { q with aonBuf := q.aonBuf ++ [lostEntry s 1] }
    | some l => s.modEvq fun q => { q with aonBuf := q.aonBuf.set 16 { l with detail := l.detail + 1 } }

/-- The queue's store and its logic are there (R417), and the reset-cause entry, the first of all, is in it (R40). -/
def State.evqUp (s : State) : Bool := s.sto.fillDone && s.coreUp && s.glb.causeDone

/-! ### Pops that wait (R419) -/

/-- Assigns the next SEQ to a popped entry's word 0 (R417). -/
def evqSeqWord (s : State) (w0 : Word) : Word := putBits w0 24 7 s.evq.seq.toNat

/-- Advances SEQ and drops the oldest entry. -/
def evqDropOldest (s : State) : State :=
  s.modEvq fun q => { q with held := q.held.tail, seq := q.seq + 1 }

/-- Latches the four words of a pop on a path (R419, R430); word 0 is kept at EVQ_POP itself. -/
def latchPop (p : Path) (ws : List Word) (s : State) : State :=
  s.modPath p fun x => { x with latch := x.latch.setSeq (fun _ => 0) 4 R.EVQ_POP ws }

/-- The bytes a read returns: its data, the PEC, and 0xFF beyond it (R426); a poisoned word inverts the PEC (R427). -/
def i2cReply (hdr got : List Byte) (bad : Bool) (nread : Nat) : List Byte :=
  let c := pec (hdr ++ got)
  (got ++ [if bad then c ^^^ 0xFF else c] ++ List.replicate nread 0xFF).take nread

/-- Ends a held I²C read whose next word is EVQ_POP: the four words, then the reserved locations after them (R423). -/
def i2cEndPop (ws : List Word) (s : State) : State :=
  match s.i2c.heldRead with
  | none => s
  | some h =>
    let got := h.got ++ wordsBytes ((ws ++ List.replicate 16 0).take h.left)
    s.modI2c fun i => { i with heldRead := none, reply := i2cReply h.hdr got h.bad h.nread }

/-- Ends an embedded-function register read held at EVQ_POP: its data stage follows (R278, R419). -/
def efnEndPop (ws : List Word) (s : State) : State :=
  match s.efn.held with
  | some (0x40, _, len, got) =>
    { s with efn := { s.efn with held := none },
             hub := { s.hub with answer := .data ((got ++ wordsBytes (ws ++ List.replicate 64 0)).take len) true true } }
  | some (0x42, _, len, _) =>
    { s with efn := { s.efn with held := none },
             hub := { s.hub with answer := .data ((wordsBytes ws).take len) true true } }
  | _ => s

/-- Completes the waiting pop of a path with four words. -/
def endPop (p : Path) (ws : List Word) (s : State) : State :=
  let s := latchPop p ws (s.modPath p fun x => { x with popWait := false })
  match p with
  | .i2c => i2cEndPop ws s
  | .usb => efnEndPop ws s
  | .loader => s

/-- An entry has arrived for a pop that waits on path `p`: it is popped at once (R419). -/
def serveWaiting (p : Path) (s : State) : State :=
  match (s.path p).popWait, s.evq.held with
  | true, m :: _ =>
    let k := m.addr / 4
    let ws := [evqSeqWord s (s.cell k).data, (s.cell (k + 1)).data, (s.cell (k + 2)).data, (s.cell (k + 3)).data]
    endPop p ws (evqDropOldest s)
  | _, _ => s

/-! ### Raising events -/

/-- Queues an event (R415 to R418). -/
def pushEntry (e : EvEntry) (s : State) : State :=
  if s.evqUp then serveWaiting .usb (serveWaiting .i2c (evqEnqueue e s)) else evqBuffer e s

/-- Queues an event stamped now. -/
def pushEvent (source : Byte) (code : BitVec 16) (detail : Word) (s : State) : State :=
  pushEntry { source := source, code := code, detail := detail, at_ := s.tb0 } s

/-- Sets bit `k` of the EVT register at `a` and queues its event (R416). -/
def raiseEvt (a k : Nat) (detail : Word) (s : State) : State :=
  pushEvent (evSource a) (evCode a k) detail (s.setReg a (setBit (s.reg a) k))

/-- As `raiseEvt`, with the DETAIL 0 of R416. -/
def raiseEvt0 (a k : Nat) (s : State) : State := raiseEvt a k 0 s

/-- Moves the AON buffer into the queue, in order (R388, R417). -/
def evqFlushAon (s : State) : State :=
  let b := s.evq.aonBuf
  forEach b pushEntry (s.modEvq fun q => { q with aonBuf := [] })

end Sys2Proof.Machine
end

