-- ==== Sys2Proof/Machine/Store.lean ====
section
/-! DEFINITION. The central store (11_central_store.md): reads through SECDED with their log, sub-word writes, the poison
code, the allocator of each region, the fill. -/

namespace Sys2Proof.Machine

/-! ### SECDED (R294 to R296, R299) -/

/-- Set bits of a word and of the check bits. -/
def popcount (n v : Nat) : Nat := ((List.range n).filter fun i => v.testBit i).length

/-- How a read is classified (R294). -/
inductive Ecc where
  | clean | corrected | uncorrectable
  deriving DecidableEq, Repr

/-- One flipped bit is corrected, two are uncorrectable; three or more are any of the three (R294). -/
def eccClass (c : StoCell) : Ecc :=
  match popcount 32 c.dErr.toNat + popcount 7 c.cErr.toNat with
  | 0 => .clean
  | 1 => .corrected
  | 2 => .uncorrectable
  | _ => match Config.eccMany c.data c.dErr c.cErr with
    | 0 => .clean
    | 1 => .corrected
    | _ => .uncorrectable

/-- The data a corrected read delivers: exact for one flipped bit, open beyond (R294). -/
def eccFixed (c : StoCell) : Word :=
  if popcount 32 c.dErr.toNat + popcount 7 c.cErr.toNat ≤ 1 then c.data ^^^ c.dErr
  else Config.eccData c.data c.dErr c.cErr

def logEntries : List Nat := List.range 16

/-- The entry with the fewest corrected errors among those with no uncorrectable error, lowest index first (R299). -/
def logVictim (s : State) : Option Nat :=
  let c := logEntries.filter fun k => s.rd (F.STO_ECCLOG_UE k) == 0
  let m := c.foldl (fun m k => min m (s.rd (F.STO_ECCLOG_CE k))) 256
  c.find? fun k => s.rd (F.STO_ECCLOG_CE k) == m

/-- The log entry a page's error goes to: its own, a free one, or a victim; `true` when it starts afresh (R299). -/
def logSlot (s : State) (page : Nat) : Option (Nat × Bool) :=
  match logEntries.find? fun k => s.rdB (F.STO_ECCLOG_VALID k) && s.rd (F.STO_ECCLOG_PAGE k) == page with
  | some k => some (k, false)
  | none =>
    match logEntries.find? fun k => !s.rdB (F.STO_ECCLOG_VALID k) with
    | some k => some (k, true)
    | none => (logVictim s).map fun k => (k, true)

/-- Records an error of a page in the log (R299). -/
def eccLog (req page : Nat) (ue : Bool) (s : State) : State :=
  match logSlot s page with
  | none => raiseEvt0 R.STO_EVT 4 (s.wr F.STO_STATUS_LOG_FULL 1)
  | some (k, fresh) =>
    let s := if fresh then s.setReg (R.STO_ECCLOG k) (atBits 31 1 1 ||| atBits 18 9 page) else s
    let s := s.wr (F.STO_ECCLOG_REQ k) req
    if ue then s.bump (F.STO_ECCLOG_UE k)
    else
      let old := s.rd (F.STO_ECCLOG_CE k)
      let s := s.bump (F.STO_ECCLOG_CE k)
      let t := s.rd F.STO_CFG_CE_THRESH
      if old < t ∧ t ≤ s.rd (F.STO_ECCLOG_CE k) then raiseEvt R.STO_EVT 2 (BitVec.ofNat 32 page) s else s

/-- DETAIL of STO_EVT.CE and UE: requester ID and store byte address (R416). -/
def eccDetail (req k : Nat) : Word := atBits 28 4 req ||| atBits 0 19 (4 * k)

/-- A corrected read: the word is written back, counted and logged (R295). -/
def eccCorrected (req k : Nat) (w : Word) (s : State) : State :=
  let s := s.setCell k (cleanCell w)
  let s := s.bump (F.STO_BANK_CE (k % 4))
  raiseEvt R.STO_EVT 0 (eccDetail req k) (eccLog req (k / 256) false s)

/-- An uncorrectable read: the word stays, counted and logged (R296). -/
def eccUncorrectable (req k : Nat) (s : State) : State :=
  let s := s.bump (F.STO_BANK_UE (k % 4))
  let s := s.setReg R.STO_UE_LAST (atBits 28 4 req ||| atBits 0 19 (4 * k))
  raiseEvt R.STO_EVT 1 (eccDetail req k) (eccLog req (k / 256) true s)

/-- Reads word `k` for requester `req`: its data and its poison bit (R295, R296). -/
def storeRead (req k : Nat) (s : State) : (Word × Bool) × State :=
  let c := s.cell k
  match eccClass c with
  | .clean => ((c.data, false), s)
  | .corrected => ((eccFixed c, false), eccCorrected req k (eccFixed c) s)
  | .uncorrectable => ((c.data, true), eccUncorrectable req k s)

/-- Reads `n` words from word `k` on, in address order; the flag says whether any was poisoned. -/
def storeReadWords (req : Nat) : Nat → Nat → State → (List Word × Bool) × State
  | 0, _, s => (([], false), s)
  | n + 1, k, s =>
    let r := storeRead req k s
    let t := storeReadWords req n (k + 1) r.2
    ((r.1.1 :: t.1.1, r.1.2 || t.1.2), t.2)

/-- The store address of the first poisoned word among `n` from word `k` on. -/
def firstPoison (s : State) (k n : Nat) : Nat :=
  4 * (((List.range n).map (· + k)).find? fun j => eccClass (s.cell j) == .uncorrectable).getD k

/-! ### Writes (R290, R298) -/

/-- A word stored with the poison code: check bits XOR 0b000_0011 (R298). -/
def poisonCell (w : Word) : StoCell := { data := w, cErr := 3 }

/-- Writes word `k`, poisoned when its writer received it so (R298). -/
def storeWrite (k : Nat) (w : Word) (poison : Bool) (s : State) : State :=
  s.setCell k (if poison then poisonCell w else cleanCell w)

/-- A write of fewer than four bytes: read and checked, merged, stored again (R290). -/
def storeMerge (req k : Nat) (mask w : Word) (s : State) : State :=
  let r := storeRead req k s
  storeWrite k ((r.1.1 &&& ~~~mask) ||| (w &&& mask)) r.1.2 r.2

/-- Writes one byte at store address `a`. -/
def storeByte (req a : Nat) (b : Byte) (s : State) : State :=
  storeMerge req (a / 4) (atBits (8 * (a % 4)) 8 255) (atBits (8 * (a % 4)) 8 b.toNat) s

/-- Writes bytes from `a` on: whole aligned words as words, the rest byte by byte (`fuel` bounds the pieces). -/
def storeBytes (req : Nat) : Nat → Nat → List Byte → State → State
  | 0, _, _, s => s
  | _, _, [], s => s
  | n + 1, a, b :: l, s =>
    if a % 4 = 0 ∧ 3 ≤ l.length then
      storeBytes req n (a + 4) (l.drop 3) (storeWrite (a / 4) (BitVec.ofNat 32 (leNat (b :: l.take 3))) false s)
    else storeBytes req n (a + 1) l (storeByte req a b s)

/-- Reads `n` bytes from `a` on, with whether any word read was poisoned. -/
def storeReadBytes (req a n : Nat) (s : State) : (List Byte × Bool) × State :=
  if n = 0 then (([], false), s)
  else
    let w := storeReadWords req ((a + n + 3) / 4 - a / 4) (a / 4) s
    ((slice (wordsBytes w.1.1) (a % 4) n, w.1.2), w.2)

/-! ### The allocator (R292) -/

/-- The region of a page. -/
def State.pageRgn (s : State) (p : Nat) : Nat :=
  ((List.range 6).find? fun n => decide (s.rgnBase n ≤ p ∧ p < s.rgnBase n + s.rgnCount n)).getD 6

/-- The lowest page of region `n` neither allocated nor retired. -/
def State.freePage (s : State) (n : Nat) : Option Nat :=
  (s.rgnPages n).find? fun p => !s.sto.alloc.contains p && !s.retired p

/-- The allocator answered "none" to a request: the event, once for each run of such answers (R292). -/
def allocNone (n : Nat) (s : State) : State :=
  if s.sto.emptyRun.getLsbD n then s
  else raiseEvt0 R.STO_EVT 5 (s.modSto fun x => { x with emptyRun := x.emptyRun ||| BitVec.ofNat 7 (2 ^ n) })

/-- A page of the region is available again. -/
def allocAvail (n : Nat) (s : State) : State :=
  s.modSto fun x => { x with emptyRun := x.emptyRun &&& ~~~ BitVec.ofNat 7 (2 ^ n) }

/-- Requests a page of region `n`. -/
def allocPage (n : Nat) (s : State) : Option Nat × State :=
  match s.freePage n with
  | none => (none, allocNone n s)
  | some p => (some p, (allocAvail n s).modSto fun x => { x with alloc := p :: x.alloc })

/-- Frees a page; a retired one is withheld (R292). -/
def freePageOf (p : Nat) (s : State) : State :=
  let t := s.modSto fun x => { x with alloc := x.alloc.filter (· ≠ p) }
  if s.retired p then t else allocAvail (s.pageRgn p) t

/-- Requests `k` pages of region `n`, giving back those found if any is missing. -/
def allocPages (n : Nat) : Nat → State → Option (List Nat) × State
  | 0, s => (some [], s)
  | k + 1, s =>
    match allocPage n s with
    | (none, s) => (none, s)
    | (some p, s) =>
      match allocPages n k s with
      | (none, s) => (none, freePageOf p s)
      | (some l, s) => (some (p :: l), s)

/-- `k` consecutive free pages of region `n`, lowest first, all or none. -/
def State.freeRun (s : State) (n k : Nat) : Option Nat :=
  (s.rgnPages n).find? fun p =>
    (List.range k).all fun i =>
      decide (p + i < s.rgnBase n + s.rgnCount n) && !s.sto.alloc.contains (p + i) && !s.retired (p + i)

/-! ### Fill and power-down (R293, R33) -/

/-- The pages the event queue takes: the first sixteen non-retired pages of its region (R292). -/
def State.evqLoadPages (s : State) : List Nat := ((s.rgnPages 4).filter fun p => !s.retired p).take 16

/-- The fill: every word zero and clean, no page allocated, the scrubber at page 0 (R293, R300). -/
def storeFill (s : State) : State :=
  let s := s.modSto fun x => { x with mem := [], fillDone := true, scrubPos := 0, alloc := [], emptyRun := 0 }
  s.modEvq fun q => { q with held := [], pages := s.evqLoadPages, wr := 0 }

/-- STORE loses its power: its contents are lost, and the entries held are counted as lost (R33, R293, R418). -/
def storeDown (s : State) : State :=
  let n := (s.evq.held.map fun m => m.lost.getD 1).sum
  let ord := (s.evq.held.filter fun m => m.lost.isNone).length
  let s := evqCountLost ord s
  let s := s.modEvq fun q => { q with held := [], wr := 0, lostNext := q.lostNext + n }
  s.modSto fun x => { x with mem := [], fillDone := false, alloc := [], emptyRun := 0 }

end Sys2Proof.Machine
end

