-- ==== Sys2Proof/Machine/PmbQueue.lean ====
section
/-! DEFINITION. The queue of PMBus transactions (07_pmbus_link.md R208, R209, R212): classes, order within a class, and
off commands that remove what is queued for their target. What a transaction's end does is in Pmbus.lean. -/

namespace Sys2Proof.Machine

def State.target? (s : State) (i : Nat) : Option Target := s.pmb.targets[i]?

def State.modTarget (s : State) (i : Nat) (f : Target → Target) : State :=
  s.modPmb fun p => { p with targets := p.targets.modify i f }

/-- The index of the first target of a role. -/
def State.tgtOfRole (s : State) (role : Nat) : Option Nat := s.pmb.targets.findIdx? fun t => t.role.toNat == role

/-- The port converter of a port (roles 0 to 15). -/
def State.conv (s : State) (p : PortId) : Option Nat := if p.val < 16 then s.tgtOfRole p.val else none

/-- The port converter of a port is verified (R142). -/
def State.convVerified (s : State) (p : PortId) : Bool :=
  match (s.conv p).bind s.target? with
  | some t => t.st == .verified
  | none => false

/-- The port converter is confirmed at 5.0 V (R208). -/
def State.convAt5 (s : State) (p : PortId) : Bool :=
  match (s.conv p).bind s.target? with
  | some t => t.st == .verified && t.confirmed == 5000
  | none => false

def State.convFaulty (s : State) (p : PortId) : Bool :=
  match (s.conv p).bind s.target? with
  | some t => t.st == .faulty
  | none => false

/-- Places a transaction behind those of its own and of higher classes (R212). -/
def pmbInsert (t : Txn) : List Txn → List Txn
  | [] => [t]
  | x :: l => if x.cls ≤ t.cls then x :: pmbInsert t l else t :: x :: l

/-- The next transaction goes onto a free bus (R212); nothing does while the bus is stuck (R213). -/
def pmbPump (s : State) : State :=
  match s.pmb.wire, s.pmb.queue with
  | none, t :: l => if s.pmb.stuck then s else s.modPmb fun p => { p with wire := some t, queue := l }
  | _, _ => s

/-- Queues the next transaction of a command. -/
def pmbIssue (t : Txn) (s : State) : State := pmbPump (s.modPmb fun p => { p with queue := pmbInsert t p.queue })

/-- Every command in progress or waiting. -/
def Pmb.all (p : Pmb) : List Txn := p.wire.toList ++ p.queue ++ p.delayed ++ p.blocked

/-- A command of target `i` is in progress. -/
def State.tgtBusy (s : State) (i : Nat) : Bool :=
  (s.pmb.wire.toList ++ s.pmb.queue ++ s.pmb.delayed).any fun t => t.tgt == i

/-- Raises a command. Commands of one target take effect in the order they were raised, but for off commands (R212). -/
def pmbRaise (t : Txn) (s : State) : State :=
  if t.cmd == .opOff || !s.tgtBusy t.tgt then pmbIssue t s else s.modPmb fun p => { p with blocked := p.blocked ++ [t] }

/-- A command of target `i` has ended: its next one is raised. -/
def pmbNext (i : Nat) (s : State) : State :=
  if s.tgtBusy i then pmbPump s
  else match s.pmb.blocked.find? fun t => t.tgt == i with
    | some t => pmbIssue t (s.modPmb fun p => { p with blocked := p.blocked.erase t })
    | none => pmbPump s

/-- The commands an off command removes: on commands, VOUT_COMMAND and verification (R212). -/
def Txn.removable (t : Txn) : Bool :=
  match t.why, t.cmd with
  | .verify _, _ => true
  | .software, _ => false
  | _, .opOn => true
  | _, .voutCommand _ => true
  | _, _ => false

/-- A verification of target `i` is under way. -/
def State.verifying (s : State) (i : Nat) : Bool :=
  s.pmb.all.any fun t => t.tgt == i && (match t.why with | .verify _ => true | _ => false)

/-- Removes what an off command of target `i` removes: queued commands, and the rest of one already started. A verification
cut short leaves the target UNVERIFIED (R212). -/
def pmbCut (i : Nat) (s : State) : State :=
  let hit (t : Txn) : Bool := t.tgt == i && t.removable
  let s := if s.verifying i then s.modTarget i fun t => { t with st := .unverified, cause := .none } else s
  s.modPmb fun p =>
    { p with queue := p.queue.filter fun t => !hit t, delayed := p.delayed.filter fun t => !hit t,
             blocked := p.blocked.filter fun t => !hit t,
             wire := p.wire.map fun w => if hit w then { w with cut := true } else w }

/-- An off command of target `i` waits in the queue, outside a verification. -/
def State.offQueued (s : State) (i : Nat) : Bool :=
  s.pmb.queue.any fun t => t.tgt == i && t.cmd == .opOff && t.phase == .send && !t.removable

/-- Raises OPERATION 0x00 to target `i` (R208, R209, R127). The converter no longer counts as confirmed at a voltage. -/
def pmbOff (cls : Fin 7) (i : Nat) (why : PmbWhy) (s : State) : State :=
  pmbRaise { cls := cls, tgt := i, cmd := .opOff, why := why }
    ((pmbCut i s).modTarget i fun t => { t with confirmed := 0 })

/-- Raises VOUT_COMMAND 5.0 V and then OPERATION 0x80 (R208). -/
def pmbOn (i : Nat) (why : PmbWhy) (s : State) : State :=
  pmbRaise { cls := 3, tgt := i, cmd := .opOn, why := why }
    (pmbRaise { cls := 3, tgt := i, cmd := .voutCommand 5000, why := why } s)

/-- Raises VOUT_COMMAND (R178, R208). -/
def pmbVout (i mv : Nat) (why : PmbWhy) (s : State) : State :=
  pmbRaise { cls := 3, tgt := i, cmd := .voutCommand mv, why := why } s

/-- The commands of the verification sequence, in order (R206). -/
def verifyCmd (slew : Nat) : Nat → Option PmbCmd
  | 0 => some .clearFaults
  | 1 => some .voutMode
  | 2 => some .onOffConfig
  | 3 => some .opOff
  | 4 => some (.transitionRate slew)
  | 5 => some (.voutCommand 5000)
  | _ => none

/-- PD_TRANS.SLEW of a target's port. -/
def State.slewOf (s : State) (i : Nat) : Nat :=
  match s.target? i with
  | some t => if h : t.role.toNat < 16 then s.rd (F.PD_TRANS_SLEW ⟨t.role.toNat, by omega⟩) else 0
  | none => 0

/-- Starts verification of target `i`: the sequence of R206 for a port converter, a STATUS_WORD read for roles 0x30 to
0x36; nothing for a verified target, the VDDC regulator or one already being verified (R207). -/
def pmbVerify (i : Nat) (s : State) : State :=
  match s.target? i with
  | none => s
  | some t =>
    if t.st == .verified || s.verifying i then s
    else if t.role.toNat < 16 then pmbRaise { cls := 5, tgt := i, cmd := .clearFaults, why := .verify 0 } s
    else if t.role.toNat = 0x20 then s
    else pmbRaise { cls := 5, tgt := i, cmd := .statusWord, why := .verify 0 } s

/-- Verification of every target in UNVERIFIED or FAULTY (R207). -/
def pmbVerifyAll (s : State) : State := forEach (List.range s.pmb.targets.length) pmbVerify s

/-- The converter of a port off, if it has one (R208); an off command that waits already serves. -/
def convOff (p : PortId) (s : State) : State :=
  match s.conv p with
  | some i => if s.offQueued i then pmbCut i s else pmbOff 2 i .pathOff s
  | none => s

/-- The converter of a port to 5.0 V and on, if it has one (R208). -/
def convOn (p : PortId) (s : State) : State :=
  match s.conv p with
  | some i => pmbOn i .pathOn s
  | none => s

/-- OPERATION 0x00 to every port converter in index order, back to back (R209). -/
def pmbAllOff (s : State) : State :=
  forEach (List.range s.pmb.targets.length) (fun i s =>
    match s.target? i with
    | some t => if t.role.toNat < 16 then pmbOff 2 i .resetOff s else s
    | none => s) s

end Sys2Proof.Machine
end

