-- ==== Sys2Proof/Machine/PathCore.lean ====
section
/-! DEFINITION. The power path of a port (04_port_power_path.md R105 to R127): states, conditions, trips and locks, as far
as they touch the path itself, its converter and its events. What the PD engine and the fault collector then do stands in
the files above. -/

namespace Sys2Proof.Machine

/-- PORT_POLICY marks the port EPR_CLASS (PP_CTRL.EPR_CLASS). -/
def State.eprClass (s : State) (p : PortId) : Bool := s.img.eprClass.getLsbD p.val

/-- The port is enabled by policy (R62, R63). -/
def State.enabled (s : State) (p : PortId) : Bool := s.img.enabled.getLsbD p.val

/-- The pair conducts. -/
def PpState.conducting : PpState → Bool
  | .ramp | .on | .limit => true
  | _ => false

/-- A feed drives the bus: it is ACTIVE, or it goes on through a failed pair (R74, R82). -/
def State.drives (s : State) (f : FeedId) : Bool := (s.line f).st == .active || s.feed.failed == some f

/-- Some feed drives the bus. -/
def State.feedActive (s : State) : Bool := s.drives .fa || s.drives .fb || s.drives .fc

/-- A class A condition is present (R408). -/
def State.classA (s : State) : Bool := s.flt.tempCrit || s.flt.vinOv || s.flt.x24Stop

/-- A path is held by recovery: it has not been released (R411, R412). -/
def State.held (s : State) (x : PathRef) : Bool :=
  s.classA || (s.flt.recovery && (!s.flt.releasing || s.flt.release.contains x))

/-- The output-present check of a port is suppressed (R125): from total feed loss to the end of the tandem state, during a
power or Fast Role Swap, while the port is a sink. -/
def State.ppSuppress (s : State) (p : PortId) : Bool :=
  let x := s.port p
  s.feed.totalLoss || s.feed.tandem || (x.pd.swap != .none && x.pd.swap != .sentVconn) || x.tc.st == .attachedSnk

/-- The pair goes from conducting to off: on an EPR-class port the output-present check starts (R125). -/
def ppPairOff (p : PortId) (s : State) : State :=
  if p.val < 16 ∧ s.eprClass p ∧ !s.ppSuppress p then s.modPp p fun x => { x with check := true }
  else s

/-- The effective limit in 10 mA (R113). -/
def State.effLimit (s : State) (p : PortId) : Nat := min (s.rd (F.PP_ILIM_ILIM p)) (s.port p).pp.bmIlim.toNat

/-- Current of the Rp a source shows, in 10 mA (R115): Default, 1.5 A, 3.0 A. -/
def rpCurrent (rp : Nat) : Nat :=
  match rp with
  | 3 => 300
  | 2 => 150
  | 1 => 90
  | _ => 0

/-- I_RATED in 10 mA (R115): of the contract, of the greater of two during a voltage change (R178), of the Rp without one. -/
def State.iRated (s : State) (p : PortId) : Nat :=
  let x := s.port p
  let old := match x.pd.contract with
    | some c => c.rated
    | none => if p.val < 16 then rpCurrent x.tc.rp.val else 0
  match x.pd.trans with
  | some t => max old t.new.rated
  | none => old

/-- The fast-trip threshold in 10 mA: FAST ÷ 4 × I_RATED (R116). -/
def State.fastTh (s : State) (p : PortId) : Nat := s.rd (F.PP_BRKCFG_FAST p) * s.iRated p / 4

/-- In coupled mode a port without PORT_POWER does not call for VBUS (R223); at Level 0 no port is coupled (R219). -/
def State.usbUnpowered (s : State) (p : PortId) : Bool := s.img.coupled && s.glb.level != 0 && !(s.port p).u.power

/-- The conditions of OFF to RAMP but for the converter's confirmation (R108). -/
def State.ppMayStart (s : State) (p : PortId) : Bool :=
  let x := s.port p
  p.val < 16 && x.tc.st == .attachedSrc && x.pp.call && !s.usbUnpowered p && s.enabled p && !s.rdB (F.PP_CTRL_FORCE_OFF p) &&
    s.feedActive && !x.pp.check && !s.pmb.stuck && !s.convFaulty p && !s.held (.port p)

/-- Every OFF-to-RAMP condition of a downstream port (R108). -/
def State.ppReady (s : State) (p : PortId) : Bool := s.ppMayStart p && s.convAt5 p

/-- An on command of the port's converter is under way. -/
def State.onQueued (s : State) (p : PortId) : Bool :=
  match s.conv p with
  | some i => s.pmb.all.any fun t => t.tgt == i && t.cmd == .opOn
  | none => false

/-- Leaving OFF: the converter is commanded to 5.0 V and on once the rest of the conditions hold (R208). -/
def ppKick (p : PortId) (s : State) : State :=
  if (s.port p).pp.st == .off && s.ppMayStart p && s.convVerified p && !s.convAt5 p && !s.onQueued p then convOn p s
  else s

def ppKickAll (s : State) : State := forEach downPorts ppKick s

/-- An OFF condition (R108, R109): RAMP, ON, LIMIT and COOLDOWN go to OFF, RETRIES returns to 0 and the converter is
commanded off; TRIPPED acts on it from COOLDOWN; LOCKED ignores it. -/
def ppOff (p : PortId) (s : State) : State :=
  match (s.port p).pp.st with
  | .ramp | .on | .limit =>
    let s := ppPairOff p s
    convOff p (s.modPp p fun x =>
      { x with st := .off, retries := 0, gateCheck := false, backoffDone := false, offPend := false, brk := 0 })
  | .cooldown =>
    convOff p (s.modPp p fun x => { x with st := .off, retries := 0, backoffDone := false, offPend := false })
  | .tripped => s.modPp p fun x => { x with offPend := true }
  | .off => match s.conv p with
    | some i =>
      -- the converter of a path in OFF stays off: an on command under way is taken back
      if s.onQueued p || s.convAt5 p then pmbOff 2 i .pathOff s else s
    | none => s
  | .locked => s

/-- PP_EVT bits: TRIP 0, LOCK 1, LIMIT 2, RAMP_ABORT 3, GATE_FAIL 4, SHORTED_PASS 5; each is of source PROT (R389). -/
def ppEvt (p : PortId) (k : Nat) (s : State) : State := raiseEvt0 (R.PP_EVT p) k (notice .prot (some p) s)

/-- Whether a trip with this cause counts as a retry (R121). -/
def PpCause.counts : PpCause → Bool
  | .classA | .safeState => false
  | _ => true

/-- A trip (R108, R109): RAMP, ON and LIMIT enter TRIPPED with the cause. -/
def ppTripState (p : PortId) (c : PpCause) (s : State) : State :=
  let s := ppPairOff p s
  let s := s.modPp p fun x => { x with st := .tripped, cause := c, counted := c.counts, gateCheck := false, brk := 0 }
  let s := ppEvt p 0 s
  if c == .rampTimeout then ppEvt p 3 s else s

/-- Entry to LOCKED with a cause (R123): the LOCK event; the converter off except for a shorted pass, whose class 1 command
R127 gives. -/
def ppLockState (p : PortId) (c : PpCause) (s : State) : State :=
  let conducting := (s.port p).pp.st.conducting
  let s := if conducting && c != .shortedPass then ppPairOff p s else s
  let s := s.modPp p fun x =>
    { x with st := .locked, cause := c, brk := 0, gateCheck := false, backoffDone := false, offPend := false,
             check := x.check && conducting && c != .shortedPass }
  let s := if c == .shortedPass then s else convOff p s
  ppEvt p 1 s

/-- The converter of a shorted path off as a class 1 transaction (R127). -/
def ppShortedOff (p : PortId) (s : State) : State :=
  match s.conv p with
  | some i => pmbOff 1 i .shortedOff s
  | none => s

/-- Entry to RAMP (R110, R112): timers, accumulator and ramp timeout cleared, the reference at VSNS. -/
def ppEnterRamp (p : PortId) (vsns : Nat) (s : State) : State :=
  s.modPp p fun x =>
    { x with st := .ramp, rampRef := vsns, brk := 0, soa := 0, backoffDone := false, gateCheck := false }

/-- The aux pair is tripped by a class A fault or a safe state: cause 7, not counted (R405). -/
def axTripState (a : AxId) (c : FeedCause) (counted : Bool) (s : State) : State :=
  match (s.ax a).st with
  | .ramp | .on | .limit =>
    s.modAx a fun x =>
      { x with st := .tripped, cause := c, counted := counted, pgood := false, gateFull := false, offCheck := true }
  | _ => s

end Sys2Proof.Machine
end

