-- ==== Sys2Proof/Machine/PdCore.lean ====
section
/-! DEFINITION. The PD engine's shared parts (06_pd_engine.md): the PDO tables and what a port advertises, sending and
awaiting messages, the end of a contract, the budget manager's shares, walk and limits. The bit layouts of PDOs, RDOs and
status blocks are those of USB PD. PRESUMED: the spec names USB PD for them (log entry 21). -/

namespace Sys2Proof.Machine

/-! ### PDOs in USB PD encoding -/

/-- Bits [31:30] = 0: a fixed PDO. -/
def pdoFixed (w : Word) : Bool := bitsOf w 30 2 == 0
/-- Bits [31:28] = 0b1101: an EPR AVS APDO. -/
def pdoAvs (w : Word) : Bool := bitsOf w 28 4 == 13
/-- Voltage of a fixed PDO in mV, bits [19:10] in 50 mV. -/
def pdoMv (w : Word) : Nat := bitsOf w 10 10 * 50
/-- Current of a fixed PDO in 10 mA, bits [9:0]. -/
def pdoMa10 (w : Word) : Nat := bitsOf w 0 10
/-- Maximum and minimum of an AVS APDO in mV (bits [25:17], [15:8] in 100 mV) and its PDP in W (bits [7:0]). -/
def avsMaxMv (w : Word) : Nat := bitsOf w 17 9 * 100
def avsMinMv (w : Word) : Nat := bitsOf w 8 8 * 100
def avsPdp (w : Word) : Nat := bitsOf w 0 8
/-- Object position and EPR Mode Capable of an RDO. -/
def rdoPos (w : Word) : Nat := bitsOf w 28 4
def rdoEprCap (w : Word) : Bool := bitOf w 22
/-- Operating current of a fixed RDO in 10 mA. -/
def rdoMa10 (w : Word) : Nat := bitsOf w 10 10
/-- Output voltage in mV (25 mV units) and current in 10 mA (50 mA units) of an AVS RDO. -/
def rdoAvsMv (w : Word) : Nat := bitsOf w 9 12 * 25
def rdoAvsMa10 (w : Word) : Nat := bitsOf w 0 7 * 5

/-- A fixed RDO. -/
def mkRdo (pos ma10 : Nat) (epr : Bool) : Word :=
  atBits 28 4 pos ||| atBits 25 1 1 ||| atBits 22 1 (b2n epr) ||| atBits 10 10 ma10 ||| atBits 0 10 ma10

/-- An AVS RDO. -/
def mkAvsRdo (pos mv ma10 : Nat) : Word :=
  atBits 28 4 pos ||| atBits 25 1 1 ||| atBits 22 1 1 ||| atBits 9 12 (mv / 25) ||| atBits 0 7 (ma10 / 5)

/-- Power in mW of mV and 10 mA. -/
def powerMw (mv ma10 : Nat) : Nat := mv * ma10 / 100

/-! ### Table rules (R168) -/

def sprMvs : List Nat := [5000, 9000, 15000, 20000]
def eprMvs : List Nat := [28000, 36000, 48000]

/-- Whether a table entry is a fixed PDO at one of the voltages, above the one before it, at most 5.00 A. -/
def fixedOk (mvs : List Nat) (prev : Nat) (w : Word) : Bool :=
  pdoFixed w && mvs.contains (pdoMv w) && decide (prev < pdoMv w) && decide (pdoMa10 w ≤ 500)

/-- Whether an entry is an AVS APDO within 15.0 V to 48.0 V and 240 W. -/
def avsOk (w : Word) : Bool :=
  pdoAvs w && decide (15000 ≤ avsMinMv w) && decide (avsMaxMv w ≤ 48000) && decide (avsPdp w ≤ 240)

/-- The entries of a list that obey the rising order, and whether any was left out. -/
def keepFixed (mvs : List Nat) : Nat → List Word → List Word × Bool
  | _, [] => ([], false)
  | prev, w :: l =>
    if fixedOk mvs prev w then
      let r := keepFixed mvs (pdoMv w) l
      (w :: r.1, r.2)
    else ((keepFixed mvs prev l).1, true)

/-- The EPR entries that obey R168; an AVS APDO may only stand last. -/
def keepEpr : Nat → List Word → List Word × Bool
  | _, [] => ([], false)
  | prev, [w] => if fixedOk eprMvs prev w || avsOk w then ([w], false) else ([], true)
  | prev, w :: l =>
    if fixedOk eprMvs prev w then
      let r := keepEpr (pdoMv w) l
      (w :: r.1, r.2)
    else ((keepEpr prev l).1, true)

/-- The table of a port: valid SPR entries, valid EPR entries, and whether an entry was invalid (R168). An invalid PDO 1 is
replaced by fixed 5 V at 1.50 A. -/
def State.pdTable (s : State) (p : PortId) : List Word × List Word × Bool :=
  let n := s.rd (F.PD_PDOCNT_N_SPR p)
  let m := if p.val < 16 && !s.eprClass p then 0 else s.rd (F.PD_PDOCNT_N_EPR p)
  let spr := (List.range n).map fun k => s.reg (R.PD_PDO p k)
  let epr := (List.range m).map fun k => s.reg (R.PD_PDO p (7 + k))
  let first := spr.headD 0
  let ok := pdoFixed first && pdoMv first == 5000 && decide (pdoMa10 first ≤ 500)
  let r := keepFixed sprMvs 5000 spr.tail
  let e := keepEpr 0 epr
  ((if ok then first else 0x00019096) :: r.1, e.1, !ok || r.2 || e.2)

/-- Whether a PDO list obeys R168 as an image table of Pn. -/
def tableOk (spr epr : List Word) : Bool :=
  let first := spr.headD 0
  pdoFixed first && pdoMv first == 5000 && decide (pdoMa10 first ≤ 500) &&
    !(keepFixed sprMvs 5000 spr.tail).2 && !(keepEpr 0 epr).2

/-! ### Shares (R185, R186) -/

/-- Ports in ATTACHED_SRC. -/
def State.sources (s : State) : List PortId := downPorts.filter fun p => (s.port p).tc.st == .attachedSrc

/-- Σ G in mW (R185). -/
def State.sumG (s : State) : Nat := (downPorts.map fun p => (s.port p).pd.grant).sum

/-- The free headroom P_avail − Σ G in mW (R185). -/
def State.headroom (s : State) : Int := (s.bm.avail : Int) - s.sumG

def State.prio (s : State) (p : PortId) : Nat := s.rd (F.PD_CTRL_PRIO p)

/-- `p` ranks higher than `q`: lower PRIO, then lower port number (R186). -/
def State.ranks (s : State) (p q : PortId) : Bool :=
  decide (s.prio p < s.prio q) || (s.prio p == s.prio q && decide (p.val < q.val))

/-- Inserts a port into a list from the lowest rank upward. -/
def rankInsert (s : State) (p : PortId) : List PortId → List PortId
  | [] => [p]
  | q :: l => if s.ranks q p then p :: q :: l else q :: rankInsert s p l

/-- Ports from the lowest rank upward (R188). -/
def State.lowestFirst (s : State) (l : List PortId) : List PortId := l.foldl (fun a p => rankInsert s p a) []

/-- r_n: what ports of strictly lower priority hold above their floors, with PREEMPT (R186), in mW. -/
def State.reclaimable (s : State) (p : PortId) : Nat :=
  if s.rdB F.PD_BM_CFG_PREEMPT then
    ((s.sources.filter fun q => decide (s.prio p < s.prio q)).map fun q =>
      (s.port q).pd.grant - (s.port q).pd.floor).sum
  else 0

/-- MAX_W in mW; above 100 W only on an EPR-class port (PD_CTRL). -/
def State.maxMw (s : State) (p : PortId) : Nat :=
  let w := s.rd (F.PD_CTRL_MAX_W p)
  1000 * (if s.eprClass p then w else min w 100)

/-- S_n in mW (R186), lowered by the reclaim walk (R188); 0 outside ATTACHED_SRC. Shares come from the held P_avail while
a rise is delayed (R190). -/
def State.share (s : State) (p : PortId) : Nat :=
  let x := (s.port p).pd
  if (s.port p).tc.st != .attachedSrc then 0
  else
    let avail := s.bm.heldAvail.getD s.bm.avail
    let others : Int := (s.sumG : Int) - x.grant
    let v := ((avail : Int) - others + s.reclaimable p).toNat
    let n := max x.floor (min (s.maxMw p) v)
    match x.target with
    | some t => max x.floor (min n t)
    | none => n

/-! ### What a port advertises (R169, R170, R172) -/

/-- EPR is permitted on Pn (R172). -/
def State.eprPermitted (s : State) (p : PortId) : Bool :=
  s.glb.level == 2 && s.eprClass p && s.rdB (F.PD_CTRL_EPR_EN p) && s.rdB (F.TC_CABLE_EPR_OK p) &&
    (s.port p).pd.vconnSrc && (s.port p).pd.rev != 1 && decide (100000 < s.share p)

/-- The current a fixed PDO is advertised with, in 10 mA (R170). -/
def State.advMa10 (s : State) (p : PortId) (w : Word) : Nat :=
  let cable := if s.rdB (F.TC_CABLE_I_5A p) then 500 else 300
  min (min (pdoMa10 w) cable) (s.share p * 100 / pdoMv w)

/-- Bits [29:22] of the first Source_Capabilities PDO (R169): Dual-Role Power, Unconstrained Power, USB Communications
Capable, EPR Mode Capable. -/
def State.firstBits (s : State) (p : PortId) : Word :=
  atBits 29 1 (b2n (s.img.tandemCap.getLsbD p.val)) |||
  atBits 27 1 (b2n (s.feed.fa.st == .active || s.feed.fb.st == .active)) |||
  atBits 26 1 1 |||
  atBits 23 1 (b2n (s.eprPermitted p))

/-- A PDO with the current it is advertised with. -/
def State.advPdo (s : State) (p : PortId) (w : Word) : Word := putBits w 0 10 (s.advMa10 p w)

/-- The first PDO as sent. -/
def State.advFirst (s : State) (p : PortId) (w : Word) : Word :=
  (s.advPdo p w &&& ~~~ maskOf 22 8) ||| s.firstBits p

/-- The SPR PDOs advertised, first PDO always (R170). -/
def State.advSpr (s : State) (p : PortId) : List Word :=
  match (s.pdTable p).1 with
  | [] => []
  | w :: l => s.advFirst p w :: (l.filter fun w => decide (50 ≤ s.advMa10 p w)).map (s.advPdo p)

/-- The EPR PDOs advertised, only while R172 permits EPR and at service level 2 (R47, R170). -/
def State.advEpr (s : State) (p : PortId) : List Word :=
  if s.eprPermitted p && !(s.port p).pd.eprExiting then
    ((s.pdTable p).2.1.filter fun w =>
      if pdoAvs w then decide (15 ≤ min (avsPdp w) (s.share p / 1000)) else decide (50 ≤ s.advMa10 p w)).map fun w =>
      if pdoAvs w then putBits w 0 8 (min (avsPdp w) (s.share p / 1000)) else s.advPdo p w
  else []

/-- The eleven object positions: SPR from 1, EPR from 8. -/
def positions (spr epr : List Word) : Vector Word 11 :=
  Vector.ofFn fun k => if k.val < 7 then spr.getD k.val 0 else epr.getD (k.val - 7) 0

/-- The list a capabilities message carries: SPR PDOs, and in EPR_Source_Capabilities zeros up to position 7 and the EPR
PDOs. -/
def capsList (spr epr : List Word) : List Word :=
  if epr.isEmpty then spr else spr ++ List.replicate (7 - spr.length) 0 ++ epr

/-- The PDOs sent are below the table (PD_STATUS.CAPPED). -/
def State.isCapped (s : State) (p : PortId) (spr epr : List Word) (eprMsg : Bool) : Bool :=
  let t := s.pdTable p
  let cur (l : List Word) := l.map fun w => (pdoMv w, bitsOf w 0 10)
  cur spr != cur t.1 || (eprMsg && cur epr != cur t.2.1)

/-! ### Sending (R163, R159, R194) -/

/-- Messages that exist at 3.x only (R159). -/
def PdMsg.needs3 : PdMsg → Bool
  | .eprSourceCaps _ | .eprRequest _ _ | .eprEnter | .eprEnterAck | .eprEnterSucceeded | .eprEnterFailed _ | .eprExit
  | .eprKeepAlive | .eprKeepAliveAck | .alert _ | .getStatus | .status _ | .getSourceInfo | .sourceInfo _
  | .getRevision | .revision | .srcCapsExt | .snkCapsExt | .getSrcCapExt | .notSupported | .frSwapSignal => true
  | _ => false

/-- Messages whose answer is awaited for tSenderResponse once they are acknowledged. -/
def PdMsg.awaits : PdMsg → Bool
  | .sourceCaps _ | .eprSourceCaps _ | .request _ | .eprRequest _ _ | .softReset | .prSwap | .vconnSwap
  | .getSourceCap | .getSinkCap | .eprEnter | .getStatus | .getSourceInfo | .getRevision | .getSrcCapExt => true
  | _ => false

/-- Signals that no GoodCRC answers. -/
def PdMsg.isSignal : PdMsg → Bool
  | .hardReset | .frSwapSignal => true
  | _ => false

/-- Puts a message on the wire's queue. At service level 0 the engines send nothing (R163); at 2.0 nothing that needs 3.x. -/
def pdSend (p : PortId) (m : PdMsg) (s : State) : State :=
  if s.glb.level == 0 || (m.needs3 && (s.port p).pd.rev == 1) then s
  else s.modPd p fun x => { x with tx := x.tx.filter (fun m => !m.isSignal) ++ [m] }

/-- An exchange the hub starts itself: as source at 3.x under a contract it waits tSinkTx after SinkTxNG; as sink it waits
for SinkTxOK, an Rp of 3.0 A (R194). -/
def pdStart (p : PortId) (m : PdMsg) (s : State) : State :=
  let x := (s.port p).pd
  if x.rev == 2 && x.contract.isSome then
    if x.source then s.modPd p fun x => { x with sinkTxNG := true, sinkTxPend := x.sinkTxPend ++ [m] }
    else if (s.port p).tc.cc1 == .rp30 || (s.port p).tc.cc2 == .rp30 then pdSend p m s
    else s.modPd p fun x => { x with sinkTxPend := x.sinkTxPend ++ [m] }
  else pdSend p m s

/-- A message arrived: no run of unanswered Hard Resets goes on (R165). -/
def pdHeard (p : PortId) (s : State) : State := s.modPd p fun x => { x with hrstRun := 0 }

/-- A message whose SOP and Specification Revision fix the port's revision (R159): the lower of both ends. -/
def pdRevise (p : PortId) (rev2 : Bool) (s : State) : State :=
  s.modPd p fun x => { x with rev := if rev2 || s.rdB (F.PD_CTRL_REV_2 p) then 1 else 2 }

/-- PD_EVT bits: CONTRACT 0, TRANS_FAIL 1, HARD_RESET_TX 2, HARD_RESET_RX 3, SOFT_RESET 4, PR_SWAP 5, VCONN_SWAP 6, FRS 7,
FRS_NOMSG 8, EPR_ENTER 9, EPR_EXIT 10, KEEPALIVE_LOST 11, RENEG_TIMEOUT 12, CMD_REJ 13, HRST_WITHHELD 14. -/
def pdEvt (p : PortId) (k : Nat) (s : State) : State := raiseEvt0 (R.PD_EVT p) k s

/-- Capabilities under R170, recorded in PD_ADV as sent, handed to `send`. -/
def pdCapsVia (send : PdMsg → State → State) (p : PortId) (eprMsg : Bool) (s : State) : State :=
  let spr := s.advSpr p
  let epr := if eprMsg then s.advEpr p else []
  send (if eprMsg then .eprSourceCaps (capsList spr epr) else .sourceCaps spr) (s.modPd p fun x =>
    { x with adv := positions spr epr, capped := s.isCapped p spr epr eprMsg, tableErr := (s.pdTable p).2.2,
             deferCaps := false })

/-- Sends capabilities within an exchange that already runs, or before any contract. -/
def pdSendCapsAs (p : PortId) (eprMsg : Bool) (s : State) : State := pdCapsVia (pdSend p) p eprMsg s

/-- New capabilities, an exchange of their own (R194): EPR_Source_Capabilities in EPR mode; after PS_RDY while a voltage
change is in progress (R180). -/
def pdSendCaps (p : PortId) (s : State) : State :=
  if (s.port p).pd.trans.isSome then s.modPd p fun x => { x with deferCaps := true }
  else pdCapsVia (pdStart p) p (s.port p).pd.epr s

/-- The advertised set would grow if it were sent now (R190). -/
def State.capsGrow (s : State) (p : PortId) : Bool :=
  let v := positions (s.advSpr p) (if (s.port p).pd.epr then s.advEpr p else [])
  (List.finRange 11).any fun k =>
    let w := v[k]
    let o := (s.port p).pd.adv[k]
    w != 0 && (o == 0 || bitsOf w 30 2 != bitsOf o 30 2 || pdoMv w != pdoMv o ||
      (if pdoAvs w then decide (avsPdp o < avsPdp w) else decide (pdoMa10 o < pdoMa10 w)))

/-! ### Limits and the walk (R187 to R190) -/

/-- Hard-limits a port: BM_ILIM = floor(S ÷ V), BM_LIMITED and RENEG_TIMEOUT (R189). -/
def bmHardLimit (p : PortId) (s : State) : State :=
  let v := match (s.port p).pd.contract with
    | some c => if c.mv = 0 then 5000 else c.mv
    | none => 5000
  let s' := s.modPp p fun x => { x with bmIlim := BitVec.ofNat 10 (min 0x3FF (s.share p * 100 / v)) }
  pdEvt p 12 (s'.modPd p fun x => { x with bmLimited := true })

/-- BM_ILIM returns to 0x3FF when the contract power lies within the share (R189). -/
def bmRelease (p : PortId) (s : State) : State :=
  let within := match (s.port p).pd.contract with
    | some c => decide (powerMw c.mv c.ma10 ≤ s.share p)
    | none => true
  if (s.port p).pd.bmLimited && within then
    (s.modPd p fun x => { x with bmLimited := false }).modPp p fun x => { x with bmIlim := 0x3FF }
  else s

/-- New capabilities for a lowered share: a port with no explicit contract is hard-limited at once (R189). -/
def bmOffer (p : PortId) (s : State) : State :=
  let s := pdSendCaps p s
  if (s.port p).pd.contract.isNone && !(s.port p).pd.bmLimited then bmHardLimit p s else s

/-- The walk from the lowest rank upward: each port above its floor gives what is still missing (R188). -/
def bmTake : List PortId → Nat → State → State
  | [], _, s => s
  | p :: l, d, s =>
    if d = 0 then s
    else
      let x := (s.port p).pd
      let cur := match x.target with
        | some t => min x.grant t
        | none => x.grant
      if x.claim ≠ 0 || cur ≤ x.floor then bmTake l d s
      else
        let n := max x.floor (cur - d)
        bmTake l (d - (cur - n)) (bmOffer p (s.modPd p fun x => { x with target := some n }))

/-- A switchover gap runs, or the feeds are lost: no walk (R188). -/
def State.bmQuiet (s : State) : Bool := !s.feedActive || s.feed.switching || s.feed.totalLoss || s.feed.tandem

/-- What is missing, less what already lowered ports still owe (R187, R188). -/
def State.bmMissing (s : State) : Nat :=
  let owed := (s.sources.map fun p => match (s.port p).pd.target with
    | some t => (s.port p).pd.grant - t
    | none => 0).sum
  let claims := (s.sources.map fun p => (s.port p).pd.claim).sum
  s.sumG + claims - s.bm.avail - owed

/-- The reclaim walk (R187, R188). -/
def bmWalk (s : State) : State :=
  if s.bmQuiet then s else bmTake (s.lowestFirst s.sources) s.bmMissing s

/-- A reclaim is in progress: a lowered port is still above its share (PD_BM_CAP.DEFICIT, R188). -/
def State.bmDeficit (s : State) : Bool :=
  !s.bmQuiet && s.sources.any fun p => match (s.port p).pd.target with
    | some t => decide (t < (s.port p).pd.grant) && !(s.port p).pd.bmLimited
    | none => false

/-- A lowered share is dropped once its port is within it and no reclaim goes on. -/
def bmSettle (s : State) : State :=
  if s.bmDeficit then s else forEach downPorts (fun p s => s.modPd p fun x => { x with target := none }) s

/-! ### Contracts -/

/-- G of a port: the greater of its floor and its contract power, 0 outside ATTACHED_SRC, in the tandem state and at total
feed loss (R185). -/
def State.grantOf (s : State) (p : PortId) : Nat :=
  if (s.port p).tc.st != .attachedSrc || s.feed.tandem || s.feed.totalLoss then 0
  else match (s.port p).pd.contract with
    | some c => max (s.port p).pd.floor (powerMw c.mv c.ma10)
    | none => (s.port p).pd.floor

def bmRegrant (p : PortId) (s : State) : State := s.modPd p fun x => { x with grant := s.grantOf p }

/-- The explicit contract, its voltage change and EPR mode end (R122, R181). -/
def pdEndContract (p : PortId) (s : State) : State :=
  let s := s.modPd p fun x =>
    { x with contract := none, trans := none, epr := false, eprExiting := false, eprExitRx := false, claim := 0,
             await := none, sinkTxPend := [], sinkTxNG := false, deferCaps := false }
  bmRelease p (bmRegrant p s)

/-- A contract comes into force: PD_CONTRACT, I_RATED and the grant take it (R178), HRST_CNT returns to 0. -/
def pdTakeContract (p : PortId) (c : Contract) (s : State) : State :=
  let s := s.modPd p fun x =>
    { x with contract := some c, trans := none, st := .ready, hrstCnt := 0, firstContract := true, claim := 0 }
  pdEvt p 0 (bmSettle (bmRelease p (bmRegrant p s)))

/-- A Soft_Reset is sent (R165). -/
def pdSoftReset (p : PortId) (s : State) : State :=
  let s := s.modPd p fun x => { x with st := .softReset, tx := [], await := none, sinkTxPend := [] }
  pdEvt p 4 (pdSend p .softReset s)

/-- The engine's part of a Hard Reset sent: counted, the contract ends, the source waits tPSHardReset (R181). -/
def pdHardResetTx (p : PortId) (s : State) : State :=
  let s := pdEndContract p s
  let s := s.modPd p fun x =>
    { x with st := .hardReset, tx := if s.glb.level == 0 then [] else [.hardReset],
             hrstCnt := if x.hrstCnt = 15 then 15 else x.hrstCnt + 1,
             hrstRun := x.hrstRun + 1, rev := 0, hrst := if x.source then .psHardReset else .none, swap := .none }
  pdEvt p 2 s

/-- The engine's part of a Hard Reset received (R181). -/
def pdHardResetRxCore (p : PortId) (s : State) : State :=
  let s := pdEndContract p s
  let s := s.modPd p fun x =>
    { x with st := .hardReset, tx := [], hrstCnt := if x.hrstCnt = 15 then 15 else x.hrstCnt + 1, hrstRun := 0,
             rev := 0, hrst := if x.source then .psHardReset else .none, swap := .none }
  pdEvt p 3 s

/-- A retired page of the PD region is replaced by the region's lowest free page; with none free the port keeps it (R292). -/
def pdPage (g : Nat) (s : State) : Nat × State :=
  if s.retired g then
    let r := allocPage 3 s
    match r.1 with
    | some n => (n, freePageOf g r.2)
    | none => (g, r.2)
  else (g, s)

def pdPages : List Nat → State → List Nat × State
  | [], s => ([], s)
  | g :: l, s =>
    let r := pdPage g s
    let t := pdPages l r.2
    (r.1 :: t.1, t.2)

/-- The engine's reset on detach (R150); retired pages are replaced (R292). -/
def pdReset (p : PortId) (s : State) : State :=
  let r := pdPages (s.port p).pd.pages s
  let s := r.2.modPd p fun _ => { pages := r.1 }
  bmRelease p ((s.setReg (R.TC_CABLE p) 0).modPp p fun x => { x with bmIlim := 0x3FF })

/-! ### Starting a contract as source (R167) -/

/-- Cable discovery has ended: TC_CABLE.VALID, then Source_Capabilities. -/
def pdDiscEnd (p : PortId) (s : State) : State :=
  let s := (s.wr (F.TC_CABLE_VALID p) 1).modPd p fun x =>
    { x with discDone := true, capsCount := 1, tx := x.tx.filter (· ≠ .discoverCable) }
  pdSendCapsAs p false s

/-- The engine starts a contract once the path has reached ON: VCONN source first, then the cable, then capabilities
(R167, R191). -/
def pdContractStart (p : PortId) (s : State) : State :=
  let s := s.modPd p fun x => { x with st := .startup, started := true, source := true, hrst := .none }
  if (s.port p).pd.discDone then
    pdSendCapsAs p false (s.modPd p fun x => { x with capsCount := 1 })
  else if !(s.port p).pd.vconnSrc then pdSend p .vconnSwap s
  else if (s.port p).tc.cableRa then pdSend p .discoverCable (s.modPd p fun x => { x with discCount := 1 })
  else pdDiscEnd p s

/-! ### Trips (R183) -/

/-- The Alert data object with OCP, bit 26 (USB PD). -/
def adoOcp : Word := atBits 26 1 1
/-- OTP, bit 27. -/
def adoOtp : Word := atBits 27 1 1
/-- Source Input Change, bit 29. -/
def adoInput : Word := atBits 29 1 1

/-- Sends Alert at 3.x and keeps the event for the next Status: bit 0 OCP, 1 OTP, 2 OVP (R197). -/
def pdAlert (p : PortId) (ado : Word) (flag : BitVec 3) (s : State) : State :=
  let s := s.modPd p fun x => { x with evFlags := x.evFlags ||| flag }
  if (s.port p).pd.rev == 2 then pdSend p (.alert ado) s else s

end Sys2Proof.Machine
end

