-- ==== Sys2Proof/Machine/CadCore.lean ====
section
/-! DEFINITION. The Cadence Link's shared parts: frames, tier, forwarding and payload slots, completion of launch
descriptors, and a link going down (13_cadence_link.md, 14_cadence_queues.md). Raising faults and choosing the next frame
stand in Cad.lean. -/

namespace Sys2Proof.Machine

/-! ### Frames (R333, R334) -/

/-- A frame's header and payload. -/
def mkFrame (ty flags seq route src hop corr : Nat) (payload : List Byte) : List Byte :=
  beBytes 1 ty ++ beBytes 1 flags ++ beBytes 2 seq ++ beBytes 3 route ++ beBytes 3 src ++ beBytes 1 payload.length ++
    beBytes 1 hop ++ beBytes 6 corr ++ payload

def frType (l : List Byte) : Nat := beAt l 0 1
def frFlags (l : List Byte) : Nat := beAt l 1 1
def frSeq (l : List Byte) : Nat := beAt l 2 2
def frRoute (l : List Byte) : Nat := beAt l 4 3
def frLen (l : List Byte) : Nat := beAt l 10 1
def frHop (l : List Byte) : Nat := beAt l 11 1
def frCorr (l : List Byte) : Nat := beAt l 12 6
def frPayload (l : List Byte) : List Byte := l.drop 18

/-- FLAGS bits: POISON 0, URGENT 1, ACKREQ 2, TSTAMP 3. -/
def frFlag (l : List Byte) (k : Nat) : Bool := (frFlags l).testBit k

/-- Bytes `k` on replaced by a big-endian number of `n` bytes. -/
def frPut (l : List Byte) (k n v : Nat) : List Byte := l.take k ++ beBytes n v ++ l.drop (k + n)

/-- The MODE nibble and nibble `h` of a ROUTE (R334). -/
def routeMode (r : Nat) : Nat := r % 16
def routeNib (r h : Nat) : Nat := (r >>> (24 - 4 * h)) % 16

/-- A ROUTE with nibble `h` replaced. -/
def routePut (r h v : Nat) : Nat := r - (routeNib r h) * 2 ^ (24 - 4 * h) + (v % 16) * 2 ^ (24 - 4 * h)

/-- What leaves the ball: header, payload and CRC; with POISON the flag is set and the CRC inverted (R297, R333). -/
def sealFrame (poison : Bool) (l : List Byte) : List Byte :=
  let l := if poison then frPut l 1 1 (frFlags l ||| 1) else l
  let c := crc32 l
  l ++ wordBytes (if poison then c ^^^ 0xFFFFFFFF else c)

/-! ### Modes, tier, allowance -/

def State.clEn (s : State) (p : PortId) : Bool := s.rdB (F.CL_CTRL_EN p)
def State.cadRoot (s : State) : Bool := s.rd F.CAD_MODE_MODE == 2
def State.cadSync (s : State) : Bool := s.rd F.CAD_MODE_MODE == 1
def State.cadTransparent (s : State) : Bool := !s.cadRoot && !s.cadSync
def State.tier (s : State) : Nat := s.cad.tier.val

/-- CL_EVT and CAD_EVT bits. -/
def clEvt (p : PortId) (k : Nat) (s : State) : State := raiseEvt0 (R.CL_EVT p) k s
def cadEvt (k : Nat) (s : State) : State := raiseEvt0 R.CAD_EVT k s

/-- Each change of tier queues TIER_CHANGE (R336). -/
def setTier (t : Fin 6) (s : State) : State :=
  if s.cad.tier = t then s else cadEvt 0 (s.modCad fun c => { c with tier := t })

/-- The highest version of the hub's allowance (R326). -/
def State.maxVer (s : State) : Nat := if s.glb.level == 1 || s.rd F.CAD_MODE_MAX_VER == 1 then 1 else 2

/-- Nanoseconds of a character, ten bits, at a version (R330). -/
def charNs (ver : Nat) : Nat := if ver = 2 then 400 else 800

/-- How long a frame of `n` bytes (CRC included) takes with its K27.7 and K29.7 (R333). -/
def frameNs (ver n : Nat) : Nat := (n + 2) * charNs ver

/-! ### Slots in the CAD region (R360) -/

/-- Frames of a link that hold forwarding slots. -/
def State.linkSlots (s : State) (p : PortId) : List Nat :=
  ((s.port p).cl.outQ ++ (s.port p).cl.wire.toList).filterMap fun f => f.slot

/-- Forwarding slots in use. -/
def State.fwdUsed (s : State) : List Nat := allPorts.flatMap s.linkSlots

/-- Payload slots in use: those of descriptors not released. -/
def State.poolUsed (s : State) : List Nat :=
  (allPorts.flatMap fun p => (s.port p).cl.lq.pool.map Prod.snd) ++ s.cad.bq.pool.map Prod.snd

/-- The slots of `n` pages, `per` of `size` bytes to a page. -/
def pageSlots (per size : Nat) (pages : List Nat) : List Nat :=
  pages.flatMap fun g => (List.range per).map fun k => g * 1024 + k * size

/-- A free forwarding slot, taking a page when none is free (R360). -/
def takeFwdSlot (s : State) : Option Nat × State :=
  match (pageSlots 10 96 s.cad.fwdPages).find? fun a => !s.fwdUsed.contains a with
  | some a => (some a, s)
  | none =>
    let r := allocPage 2 s
    match r.1 with
    | none => (none, r.2)
    | some g => (some (g * 1024), r.2.modCad fun c => { c with fwdPages := c.fwdPages ++ [g] })

/-- A free payload slot, taking a page when none is free (R360). -/
def takePoolSlot (s : State) : Option Nat × State :=
  match (pageSlots 16 64 s.cad.poolPages).find? fun a => !s.poolUsed.contains a with
  | some a => (some a, s)
  | none =>
    let r := allocPage 2 s
    match r.1 with
    | none => (none, r.2)
    | some g => (some (g * 1024), r.2.modCad fun c => { c with poolPages := c.poolPages ++ [g] })

/-- Frees pages of the slots that hold nothing (R292, R360). -/
def freeIdle (s : State) : State :=
  let busy (l : List Nat) (g : Nat) : Bool := l.any fun a => a / 1024 == g
  let fw := s.cad.fwdPages.filter fun g => !busy s.fwdUsed g
  let pl := s.cad.poolPages.filter fun g => !busy s.poolUsed g
  let s := s.modCad fun c => { c with fwdPages := c.fwdPages.filter (!fw.contains ·),
                                      poolPages := c.poolPages.filter (!pl.contains ·) }
  forEach (fw ++ pl) freePageOf s

/-! ### Launch queues (R360 to R365) -/

/-- The port of a queue; none for the broadcast queue. -/
def qPort (q : Fin 18) : Option PortId := if h : q.val < 17 then some ⟨q.val, h⟩ else none

def State.lq (s : State) (q : Fin 18) : LaunchQ :=
  match qPort q with
  | some p => (s.port p).cl.lq
  | none => s.cad.bq

def State.modLq (s : State) (q : Fin 18) (f : LaunchQ → LaunchQ) : State :=
  match qPort q with
  | some p => s.modCl p fun l => { l with lq := f l.lq }
  | none => s.modCad fun c => { c with bq := f c.bq }

def qEntries (q : Fin 18) : Nat := if q.val < 17 then 64 else 256

/-- OWNER of a queue: register paths (R361). -/
def State.lqRegs (s : State) (q : Fin 18) : Bool :=
  match qPort q with
  | some p => s.rdB (F.CL_LQ_CTRL_OWNER p)
  | none => s.rdB F.CAD_BQ_CTRL_OWNER

/-- Store address of the slot of count `c` (R360). -/
def State.lqSlot (s : State) (q : Fin 18) (c : Nat) : Nat := (s.lq q).base * 1024 + c % qEntries q * 32

/-- Descriptors handed over and not written back. -/
def LaunchQ.pendingCount (l : LaunchQ) : Nat := (l.tail - l.done).toNat

/-- The ports a queue's descriptor names: its own port, or the mask (R362). -/
def descPorts (q : Fin 18) (ctrl : Word) : List PortId :=
  match qPort q with
  | some p => [p]
  | none => downPorts.filter fun p => bitOf ctrl p.val

/-- The bit of a port in ONTIME and SENT (R362). -/
def outBit (q : Fin 18) (p : PortId) : Nat := if q.val < 17 then 1 else 2 ^ p.val

def PortOutcome.isLinkDown : PortOutcome → Bool
  | .linkDown => true
  | _ => false

/-- An outcome is known. -/
def PortOutcome.isFinal : PortOutcome → Bool
  | .waiting | .sendLate | .onWire _ => false
  | _ => true

/-- The descriptor has launched or been excused on every port (R366). -/
def HeadDesc.gone (d : HeadDesc) : Bool :=
  d.dead.isSome || d.out.all fun e => match e.2 with
    | .waiting | .sendLate => false
    | _ => true

/-- Every outcome is known. -/
def HeadDesc.ready (d : HeadDesc) : Bool := d.dead.isSome || d.out.all fun e => e.2.isFinal

/-- STATUS of a descriptor (R371): LATE_ERROR, LINK_DOWN, LATE_DROPPED, LATE_SENT, OK in this order. -/
def HeadDesc.status (d : HeadDesc) : Nat :=
  let has (o : PortOutcome) : Bool := d.out.any fun e => e.2 == o
  match d.dead with
  | some c => c.toNat
  | none => if has .lateError then 4 else if has .linkDown then 6 else if has .lateDropped then 3
    else if has .lateSent then 2 else 1

/-- ONTIME and SENT masks (R362). -/
def HeadDesc.mask (q : Fin 18) (f : PortOutcome → Bool) (d : HeadDesc) : Nat :=
  if d.dead.isSome then 0 else ((d.out.filter fun e => f e.2).map fun e => outBit q e.1).sum

/-- A 24-byte completion record (R377). -/
def completionRecord (q status cookie count seq : Nat) (t : TbTime) (ontime sent : Nat) : List Byte :=
  leBytes 1 q ++ leBytes 1 status ++ leBytes 2 cookie ++ leBytes 2 count ++ leBytes 2 seq ++ leBytes 4 t.ns ++
    leBytes 4 t.sec ++ leBytes 2 (t.sec / 2 ^ 32) ++ leBytes 2 0 ++ leBytes 2 ontime ++ leBytes 2 sent

/-- A record waits on EP2 IN (R377). -/
def pushCompletion (r : List Byte) (slot : Option (Fin 18 × BitVec 16)) (s : State) : State :=
  s.modCad fun c => { c with completions := c.completions ++ [⟨r, slot⟩] }

/-- Writes back the descriptor at count DONE, CTRL last, and advances DONE (R362, R365). -/
def completeDesc (q : Fin 18) (d : HeadDesc) (s : State) : State :=
  let c := (s.lq q).done
  let k := s.lqSlot q c.toNat / 4
  let t := if d.dead.isSome then ⟨0, 0⟩ else d.actual.getD ⟨0, 0⟩
  let on := d.mask q fun o => o == .onTime
  let sent := d.mask q fun o => o == .onTime || o == .lateSent
  let w (i : Nat) : Word := d.words.getD i 0
  let ctrl := putBits (putBits (w 0) 31 1 0) 16 8 d.status
  let s := storeWrite (k + 1) (BitVec.ofNat 32 t.ns) false s
  let s := storeWrite (k + 2) (BitVec.ofNat 32 t.sec) false s
  let s := storeWrite (k + 3) (putBits (w 3) 0 16 (t.sec / 2 ^ 32)) false s
  let s := storeWrite (k + 4) (putBits (w 4) 16 16 d.seq.toNat) false s
  let s := storeWrite (k + 7) (atBits 0 16 on ||| atBits 16 16 sent) false s
  let s := storeWrite k ctrl false s
  let s := s.modLq q fun l => { l with done := l.done + 1 }
  let s := if s.lqRegs q then s
    else pushCompletion (completionRecord q d.status (bitsOf (w 3) 16 16) c.toNat d.seq.toNat t on sent) (some (q, c)) s
  let detail := atBits 16 8 q.val ||| atBits 0 16 c.toNat
  if bitOf (w 0) 27 then
    match qPort q with
    | some p => raiseEvt (R.CL_EVT p) 7 detail s
    | none => raiseEvt R.CAD_EVT 3 detail s
  else s

/-- The halt that a LATE_ERROR causes (R369, R370). -/
def haltQueue (q : Fin 18) (s : State) : State :=
  let s := s.modLq q fun l => { l with st := .halted }
  match qPort q with
  | some p => clEvt p 6 s
  | none => cadEvt 2 s

/-- Completes the oldest descriptor in flight; with LATE_ERROR the queue halts. -/
def completeFlight (q : Fin 18) (s : State) : State :=
  match (s.lq q).flight with
  | [] => s
  | d :: rest =>
    let s := completeDesc q d (s.modLq q fun l => { l with flight := rest })
    if d.status = 4 then haltQueue q s else s

/-- Gives every unknown outcome of a descriptor the outcome LINK_DOWN, or the whole descriptor a status. -/
def HeadDesc.finish (st : Byte) (d : HeadDesc) : HeadDesc :=
  if d.ready then d
  else if d.out.isEmpty then { d with dead := some st }
  else if st = 6 then { d with out := d.out.map fun e => (e.1, if e.2.isFinal then e.2 else .linkDown) }
  else { d with dead := some st }

/-- Reads the descriptor of count `c`: its eight words and whether one was poisoned (R366). -/
def readDesc (q : Fin 18) (c : Nat) (s : State) : (List Word × Bool) × State :=
  storeReadWords 3 8 (s.lqSlot q c / 4) s

/-- A descriptor that never came to be prepared, completed with a status; what it holds is otherwise unchanged. -/
def completeUnread (q : Fin 18) (st : Byte) (s : State) : State :=
  let r := readDesc q (s.lq q).done.toNat s
  completeDesc q { words := r.1.1, seq := BitVec.ofNat 16 (bitsOf (r.1.1.getD 4 0) 16 16), frame := [], out := [],
                   dead := some st } r.2

/-- Completes `n` descriptors not yet prepared, in order. -/
def completeUnreads (q : Fin 18) (st : Byte) : Nat → State → State
  | 0, s => s
  | n + 1, s => completeUnreads q st n (completeUnread q st s)

/-- Completes descriptors in order: those whose outcomes are known keep them, the others take `st` (R34, R370, R372). -/
def completeList (q : Fin 18) (st : Byte) : List HeadDesc → State → State
  | [], s => s
  | d :: l, s => completeList q st l (completeDesc q (d.finish st) s)

/-- Completes every pending descriptor of a queue in order (R34, R361, R370, R372). -/
def completeAll (q : Fin 18) (st : Byte) (s : State) : State :=
  let l := s.lq q
  let s := s.modLq q fun l => { l with flight := [], head := none, handed := [] }
  let s := completeList q st (l.flight ++ l.head.toList) s
  completeUnreads q st (s.lq q).pendingCount s

/-- The committed owner of a receive ring takes effect once no record of it is being sent on EP3 IN (R361). -/
def rxOwn (p : PortId) (s : State) : State :=
  if s.cad.ep3Sent.contains p then s
  else s.modCl p fun l => { l with rx := { l.rx with own := s.rdB (F.CL_RX_CTRL_OWNER p) } }

/-! ### Outcomes -/

def setOutcome (p : PortId) (o : PortOutcome) (d : HeadDesc) : HeadDesc :=
  { d with out := d.out.map fun e => if e.1 = p then (p, o) else e }

def HeadDesc.outcome (d : HeadDesc) (p : PortId) : Option PortOutcome := (d.out.find? fun e => e.1 = p).map Prod.snd

/-- The head goes into flight once it is gone from every port. -/
def settleHead (q : Fin 18) (s : State) : State :=
  match (s.lq q).head with
  | some d => if d.gone then s.modLq q fun l => { l with head := none, flight := l.flight ++ [d] } else s
  | none => s

/-- Excuses a port from every pending broadcast descriptor (R372). -/
def excuseBroadcast (p : PortId) (s : State) : State :=
  let ex (d : HeadDesc) : HeadDesc :=
    match d.outcome p with
    | some o => if o.isFinal then d else setOutcome p .linkDown d
    | none => d
  let s := s.modCad fun c => { c with bq := { c.bq with
    head := c.bq.head.map ex, flight := c.bq.flight.map ex,
    excused := if c.bq.pendingCount = 0 then c.bq.excused else (p, c.bq.tail) :: c.bq.excused } }
  settleHead 17 s

/-! ### A link going down (R350) -/

/-- CL_STATUS.CAUSE codes. -/
def LCause.code : LCause → Nat
  | .none => 0 | .nak => 1 | .noResponse => 2 | .noSvid => 3 | .badVdo => 4 | .noLock => 5 | .noEcho => 6 | .noPages => 7
  | .detach => 8 | .hardReset => 9 | .exitMode => 10 | .retrainFail => 11 | .sbuOvp => 12 | .sleep => 13
  | .disabled => 14 | .errRecovery => 15

/-- The link carries or trains a signal. -/
def LState.live : LState → Bool
  | .train | .up | .retrain => true
  | _ => false

/-- A link leaves its state for `dst` with a cause (R350): LINK_DOWN with the cause as detail, its frames are dropped, its
descriptors complete (R34, R372) and the transmit line goes to high impedance. A link that was not live only changes state. -/
def linkDown (p : PortId) (c : LCause) (dst : LState) (s : State) : State :=
  if (s.port p).cl.st.live then
    let s := s.modCl p fun l =>
      { l with st := dst, cause := c, outQ := [], wire := none, locked := false, echoes := 0, attention := none }
    let s := freeIdle s
    let s := if (s.lq ⟨p.val, by omega⟩).st == .off then s else completeAll ⟨p.val, by omega⟩ 6 s
    let s := excuseBroadcast p s
    raiseEvt (R.CL_EVT p) 1 (BitVec.ofNat 32 c.code) s
  else s.modCl p fun l => { l with st := dst }

/-- The mode is left at both ends: detach, Hard Reset, error recovery (R150, R329, R350). -/
def cadLeave (p : PortId) (c : LCause) (s : State) : State :=
  (linkDown p c .off s).modCl p fun l =>
    { l with entered := false, exiting := false, ver := 0, disc := .identity, busy := 0, fails := 0,
             everLocked := false }

/-! ### Structured VDMs (R162, R322, R329) -/

/-- A structured VDM header; `ct` is 0 request, 1 ACK, 2 NAK, 3 BUSY (USB PD). -/
def svdmHeader (v3 : Bool) (svid obj ct cmd : Nat) : Word :=
  atBits 16 16 svid ||| atBits 15 1 1 ||| (if v3 then atBits 13 2 1 ||| atBits 11 2 1 else 0) ||| atBits 8 3 obj |||
    atBits 6 2 ct ||| atBits 0 5 cmd

/-- SVDM version 2.1 at 3.x and 1.0 at 2.0 (R162). -/
def State.svdm3 (s : State) (p : PortId) : Bool := (s.port p).pd.rev != 1

/-- The CADENCE SVID of the image. -/
def State.cadSvid (s : State) : Nat := (s.img.svid.getD 0).toNat

/-- Sends a structured VDM on SOP. -/
def sendVdm (p : PortId) (svid obj ct cmd : Nat) (vdos : List Word) (s : State) : State :=
  pdSend p (.vdm (svdmHeader (s.svdm3 p) svid obj ct cmd :: vdos)) s

/-- Starts an exchange with a structured VDM request (R194). -/
def startVdm (p : PortId) (svid obj cmd : Nat) (vdos : List Word) (s : State) : State :=
  pdStart p (.vdm (svdmHeader (s.svdm3 p) svid obj 0 cmd :: vdos)) s

/-- Exit Mode by Pn (R329): the drivers go to high impedance at the ACK or 30 ms later. -/
def cadExit (p : PortId) (s : State) : State :=
  if (s.port p).cl.entered && decide (p.val < 16) then
    startVdm p s.cadSvid (s.port p).cl.objPos.val 5 [] (s.modCl p fun l => { l with exiting := true })
  else s

end Sys2Proof.Machine
end

