-- ==== Sys2Proof/Machine/HubCore.lean ====
section
/-! DEFINITION. What many events do to USB: the Type-C gate, ports leaving their states, TT resets, the embedded function
going down, upstream reset and detach (08_usb_hub.md, 09_transaction_translators.md R263, 10_embedded_function.md R285). -/

namespace Sys2Proof.Machine

/-! ### Hub state -/

def State.configured (s : State) : Bool := s.hub.st == .configured

/-- PORT_POWER_COUPLED; 0 at Level 0 (R219). -/
def State.coupled (s : State) : Bool := s.img.coupled && s.glb.level != 0

/-- PORT_POWER of Pn: 1 while configured, or the coupled mode's own bit (R222, R223). -/
def State.portPower (s : State) (p : PortId) : Bool := if s.coupled then (s.port p).u.power else s.configured

/-- Some feed is not ACTIVE anywhere: Local Power Source lost (R224). -/
def State.localLost (s : State) : Bool := !s.feedActive

/-- PORT_OVER_CURRENT (R224). -/
def State.overCurrent (s : State) (p : PortId) : Bool :=
  match (s.port p).pp.st with
  | .tripped | .cooldown | .locked => (s.port p).pp.cause != .safeState
  | _ => false

/-- The DPHY domain of a port is powered and restored (R227). -/
def State.dphyUp (s : State) (p : PortId) : Bool := if p.val < 8 then s.pwr.dphyA else s.pwr.dphyB

/-- The Type-C gate of Pn is open (R227). -/
def State.gateOpen (s : State) (p : PortId) : Bool :=
  p.val < 16 && ((s.port p).tc.st == .attachedSrc || (s.port p).tc.st == .attachedSnk) &&
    !s.rdB (F.HP_CTRL_USB_DIS p) && s.dphyUp p

/-- HP_EVT bits: CONNECT 0, DISCONNECT 1, RESET_DONE 2, DISABLE_ERR 3, SUSPEND 4, RESUME 5, RWAKE 6, L1_ENTER 7, L1_EXIT 8,
OVER_CURRENT 9. -/
def hpEvt (p : PortId) (k : Nat) (s : State) : State := raiseEvt0 (R.HP_EVT p) k s

/-- HUB_EVT bits: CONNECT 0, BUS_RESET 1, CONFIGURED 2, UNCONFIGURED 3, SUSPEND 4, RESUME 5, L1_ENTER 6, L1_EXIT 7,
RWAKE_TX 8. -/
def hubEvt (k : Nat) (s : State) : State := raiseEvt0 R.HUB_EVT k s

/-- The hub's over-current bits follow the power path (R224): a change sets C_PORT_OVER_CURRENT. -/
def ocTrack (p : PortId) (s : State) : State :=
  let v := s.overCurrent p
  if p.val < 16 && (s.port p).u.oc != v then
    hpEvt p 9 (s.modU p fun u => { u with oc := v, chg := { u.chg with overCurrent := true } })
  else s

/-- C_HUB_LOCAL_POWER follows Local Power Source (R224). -/
def localTrack (s : State) : State :=
  if s.hub.localLost != s.localLost then s.modHub fun h => { h with localLost := s.localLost, cLocal := true } else s

/-! ### Transaction translators -/

/-- HP_TT_EVT bits: STALE 0, OVERRUN 1, POISON 2, NOPAGE 3, STOPPED 4, RESET 5. -/
def ttEvt (p : PortId) (k : Nat) (s : State) : State := raiseEvt0 (R.HP_TT_EVT p) k s

/-- The TTs run only at high speed, configured and not in global suspend (R246). -/
def State.ttMayRun (s : State) : Bool := s.hub.speed == .high && s.configured && !s.hub.suspended

/-- A buffer or record discarded; one on the wire ends there without a result, unless the line is gone. -/
def npDrop (now : Nat) (cut : Bool) (b : NpBuf) : NpBuf :=
  if b.st == .running && !cut then { b with dropped := true }
  else { since := if b.st == .free then b.since else now }

/-- Every buffer and record is discarded, pages kept (R263). -/
def ttDiscard (p : PortId) (cut : Bool) (s : State) : State :=
  s.modTt p fun t =>
    { t with np := t.np.map (npDrop s.tb3 cut), naked := [],
             recs := (t.recs.filter fun r => r.st == .running && !cut).map fun r => { r with dropped := true } }

/-- Replaces retired pages of a TT with the lowest free spares, oldest place first (R249); false when none was left. -/
def ttReplace : List Nat → State → (List Nat × Bool) × State
  | [], s => (([], true), s)
  | g :: l, s =>
    if s.retired g then
      let r := allocPage 1 s
      match r.1 with
      | none =>
        let t := ttReplace l r.2
        ((g :: t.1.1, false), t.2)
      | some n =>
        let t := ttReplace l (freePageOf g r.2)
        ((n :: t.1.1, t.1.2), t.2)
    else
      let t := ttReplace l s
      ((g :: t.1.1, t.1.2), t.2)

/-- The pages of a TT that has none: three free ones, all or none (R248). -/
def ttTake (s : State) : (List Nat × Bool) × State :=
  let r := allocPages 1 3 s
  match r.1 with
  | some l => ((l, true), r.2)
  | none => (([], false), r.2)

/-- No usable page: UNAVAILABLE, NOPAGE and a class D fault (R249). -/
def ttNoPage (p : PortId) (s : State) : State :=
  raiseAt .ttNoPage (some p) (ttEvt p 3 (s.modTt p fun t => { t with st := .unavailable }))

/-- A TT reset (R263): buffers and records discarded, pages replaced (R249), then RUN, or IDLE under R246. -/
def ttReset (p : PortId) (cut : Bool) (s : State) : State :=
  let s := ttDiscard p cut s
  let t := (s.port p).tt
  let r := if t.pages.length < 3 then ttTake s else ttReplace t.pages s
  let s := r.2.modTt p fun t => { t with pages := r.1.1, st := if r.2.ttMayRun then .run else .idle }
  let s := ttEvt p 5 s
  if r.1.2 then s else ttNoPage p s

/-- Every TT. -/
def ttResetAll (s : State) : State := forEach downPorts (fun p s => ttReset p false s) s

/-- IDLE, holding nothing (R246, R263: global suspend, PU at full speed). -/
def ttIdle (p : PortId) (s : State) : State :=
  (ttDiscard p false s).modTt p fun t => { t with st := if t.st == .unavailable then .unavailable else .idle }

/-- From IDLE to RUN when R246 lets them. -/
def ttRunAll (s : State) : State :=
  forEach downPorts (fun p s =>
    if (s.port p).tt.st == .idle && s.ttMayRun then s.modTt p fun t => { t with st := .run } else s) s

/-! ### Leaving and entering port states -/

/-- Disconnected, or Powered-off without PORT_POWER (R228, R229): C_PORT_CONNECTION if PORT_CONNECTION was 1. -/
def uDisconnect (p : PortId) (s : State) : State :=
  let u := (s.port p).u
  let pw := s.portPower p
  let s := s.modU p fun u =>
    { u with ust := if pw then .disconnected else .poweredOff, conn := false, speed := .none, suspSel := false,
             suspGlob := false, suspPend := false, wakePend := false, resumeL1 := false,
             chg := { u.chg with connection := u.chg.connection || u.conn } }
  if u.conn then hpEvt p 1 s else s

/-- The gate closes (R228): the port's USB ends, and its TT is reset with a packet on the wire cut (R263). -/
def gateClose (p : PortId) (s : State) : State := ttReset p true (uDisconnect p s)

/-- Does something that may close the gate of a port (R228). -/
def withGate (p : PortId) (f : State → State) (s : State) : State :=
  let t := f s
  if s.gateOpen p && !t.gateOpen p then gateClose p t else t

/-- A port of 1 to 17 in Powered-off with nothing kept but its over-current (R242). -/
def UPort.off (u : UPort) : UPort := { oc := u.oc, ust := .poweredOff }

/-- Ports 1 to 17 enter Powered-off; change bits, TTs and LPM records are discarded (R242, R243). -/
def hubPortsOff (s : State) : State :=
  let s := forEach downPorts (fun p s => (s.modU p UPort.off).setReg (R.HP_L1 p) 0) s
  let s := s.modHub fun h => { h with p17 := {} }
  ttResetAll s

/-! ### The embedded function (R285) -/

/-- EFN_EVT bits: CARVE_FAIL 0, POISON 1, POISON_HALT 2, BATCH_ABORT 3, BATCH_MALFORMED 4, MTR_LOST 5. -/
def efnEvt (k : Nat) (s : State) : State := raiseEvt0 R.EFN_EVT k s

/-- Records of the EP4 stream lost (R288). -/
def mtrLost (n : Nat) (s : State) : State :=
  if n = 0 then s
  else efnEvt 5 ((s.addSat F.EFN_MTR_STAT_LOST n).modEfn fun e => { e with mtrLostFlag := true })

/-- Endpoint buffers emptied, halts and toggles reset. -/
def epsClear (s : State) : State :=
  s.modEfn fun e => { e with eps := Vector.replicate 7 {} }

/-- The EP1 messages under way at a bus reset: a batch fully received runs to its end and its response is discarded; one
partly received is discarded (R285). -/
def batchCut (s : State) : State :=
  match s.efn.batch with
  | .executing => s.modEfn fun e => { e with discardResp := true }
  | _ => s.modEfn fun e => { e with batch := .idle }

/-- The function goes down to `st` (R285). `n` is the count of EP4 records held. -/
def efnDown (st : EfnState) (n : Nat) (s : State) : State :=
  let s := s.modPath .usb fun x => { x with lockOpen := false, popWait := false }
  let s := batchCut s
  let s := mtrLost n s
  let s := epsClear s
  let s := freeIdle (s.modCad fun c => { c with ep2Discard := false, ep3Sent := [] })
  let s := forEach allPorts rxOwn s
  s.modEfn fun e => { e with st := st, addr := 0, held := none }

/-- EP4 records held: each transfer's records are counted by the stream's own list of lengths. -/
def State.ep4Records (s : State) : Nat := (s.efn.eps[(6 : Fin 7)]).xfers.length

/-! ### Upstream events -/

/-- TB2 loses its lock (R314). -/
def tb2Lose (s : State) : State :=
  if s.tim.tb2.valid then
    raiseEvt0 R.TIM_EVT 7 (s.modTim fun t => { t with tb2 := { t.tb2 with valid := false, agree := 0, missed := 0 } })
  else s.modTim fun t => { t with tb2 := { t.tb2 with agree := 0, missed := 0 } }

/-- What a bus reset and SetConfiguration(0) share (R242, R243). -/
def hubUnconfigure (s : State) : State :=
  let s := s.modHub fun h =>
    { h with alt := false, rwakeEn := false, suspended := false, l1 := false, l1Rwe := false, resuming := false }
  hubPortsOff (efnDown .detached s.ep4Records s)

/-- An upstream bus reset (R242): `sp` is the speed PU comes up at. -/
def hubBusReset (sp : UsbSpeed) (s : State) : State :=
  let s := tb2Lose s
  let s := s.modHub fun h => { h with st := .default_, speed := sp, addr := 0, testMode := false, answer := .none }
  hubEvt 1 (hubUnconfigure s)

/-- An upstream detach (R244): the effects of a bus reset, and the pull-up goes. -/
def hubDetach (s : State) : State :=
  if s.hub.st == .detached then s
  else (hubBusReset .none s).modHub fun h => { h with st := .detached }

end Sys2Proof.Machine
end

