-- ==== Sys2Proof/Machine/CadSend.lean ====
section
/-! DEFINITION. Sending on the Cadence Link (13_cadence_link.md R340 to R358): output queues, the order in which an output
chooses its next frame, aborts, BELL frames, retrains and the Attention of PU. -/

namespace Sys2Proof.Machine

/-! ### Launches against the wire (R340, R367, R369) -/

/-- LATE of a descriptor (R362). -/
def HeadDesc.late (d : HeadDesc) : Nat := bitsOf (d.words.getD 0 0) 29 2

/-- Launch time of a descriptor (R362). -/
def HeadDesc.time (d : HeadDesc) : TbTime :=
  ⟨(d.words.getD 2 0).toNat + bitsOf (d.words.getD 3 0) 0 16 * 2 ^ 32, (d.words.getD 1 0).toNat⟩

/-- Changes the outcome of port `p` in the head and in what is in flight where the old outcome satisfies `f`. -/
def modOutcome (q : Fin 18) (p : PortId) (f : PortOutcome → Bool) (o : PortOutcome → PortOutcome) (s : State) : State :=
  let g (d : HeadDesc) : HeadDesc :=
    { d with out := d.out.map fun e => if e.1 = p && f e.2 then (p, o e.2) else e }
  s.modLq q fun l => { l with head := l.head.map g, flight := l.flight.map g }

def PortOutcome.isOnWire : PortOutcome → Bool
  | .onWire _ => true
  | _ => false

/-- The descriptor of queue `q` whose frame is on the wire of `p`. -/
def State.descOnWire (s : State) (q : Fin 18) (p : PortId) : Option HeadDesc :=
  ((s.lq q).flight ++ (s.lq q).head.toList).find? fun d =>
    match d.outcome p with
    | some o => o.isOnWire
    | none => false

/-- The port a CAD_LATE_ERROR fault names: none for the broadcast queue (R404). -/
def lateFault (q : Fin 18) (s : State) : State := raiseAt .cadLateError (qPort q) s

/-- Changes the first descriptor of a list that satisfies `f`. -/
def modFirst (f : HeadDesc → Bool) (g : HeadDesc → HeadDesc) : List HeadDesc → List HeadDesc
  | [] => []
  | d :: l => if f d then g d :: l else d :: modFirst f g l

/-- The descriptor's frame leaves, or has left, a port on time. -/
def HeadDesc.anyOnTime (d : HeadDesc) : Bool := d.out.any fun e => e.2 == .onTime || e.2 == .onWire false

/-- The oldest descriptor whose frame waits to be sent late on `p` goes onto the wire (R369); its time is the actual one
unless a port was on time or an earlier one was late (R362). -/
def lateStarts (q : Fin 18) (p : PortId) (s : State) : State :=
  let g (d : HeadDesc) : HeadDesc :=
    { setOutcome p (.onWire true) d with actual := if d.actual.isSome then d.actual else some s.tb0 }
  let f (d : HeadDesc) : Bool := d.outcome p == some .sendLate
  if (s.lq q).flight.any f then s.modLq q fun l => { l with flight := modFirst f g l.flight }
  else s.modLq q fun l => { l with head := l.head.map fun d => if f d then g d else d }

/-- The actual time of an aborted launch no longer counts where no other port was on time (R362). -/
def reActual (q : Fin 18) (s : State) : State :=
  let g (d : HeadDesc) : HeadDesc :=
    if d.anyOnTime || d.out.any (fun e => e.2 == .lateSent || e.2 == .onWire true) then d else { d with actual := none }
  s.modLq q fun l => { l with head := l.head.map g, flight := l.flight.map g }

/-- A launch that leaves the wire unfinished is late: sent again under policy 1, dropped under 0, an error under 2 (R369). -/
def launchAborted (q : Fin 18) (p : PortId) (s : State) : State :=
  match s.descOnWire q p with
  | none => s
  | some d =>
    reActual q (match d.late with
      | 1 => (modOutcome q p PortOutcome.isOnWire (fun _ => .sendLate) s).modCl p fun l =>
          { l with outQ := { kind := .launch q, bytes := d.frame } :: l.outQ }
      | 0 => modOutcome q p PortOutcome.isOnWire (fun _ => .lateDropped) s
      | _ => lateFault q (modOutcome q p PortOutcome.isOnWire (fun _ => .lateError) s))

/-- Ends the frame in flight with K30.7: a forwarded frame waits again, a SYNC or DELAY_REQ is gone (R340). -/
def cadAbort (p : PortId) (s : State) : State :=
  match (s.port p).cl.wire with
  | none => s
  | some f =>
    let s := s.modCl p fun l => { l with wire := none }
    match f.kind, f.slot with
    | .launch q, _ => launchAborted q p s
    | _, some _ => s.modCl p fun l => { l with outQ := { f with bytes := [] } :: l.outQ }
    | _, none => s

/-! ### The next frame (R340) -/

def FrameKind.cls : FrameKind → Nat
  | .bell => 1
  | .launch _ | .sync | .delayReq => 2
  | .fwdUrgent => 3
  | .other | .train => 4

/-- The next SYNC time at or after now, in ns of TB0 (R355). -/
def State.nextSync (s : State) : Nat :=
  let r := max 1 (s.rd F.CAD_MODE_SYNC_RATE)
  match ((List.range r).map fun k => k * 1000000000 / r).find? fun n => decide (s.tb0.ns ≤ n) with
  | some n => s.tb0.sec * 1000000000 + n
  | none => (s.tb0.sec + 1) * 1000000000

/-- The hub originates SYNC: root, or synchronized with a known tier (R351). -/
def State.sendsSync (s : State) : Bool := s.cadRoot || (s.cadSync && s.tier != 0)

/-- The launch time of a queue's head that still waits on port `p`. -/
def State.headDue (s : State) (q : Fin 18) (p : PortId) : Option Nat :=
  match (s.lq q).head with
  | some d => if d.dead.isNone && d.outcome p == some .waiting then some (tbNs d.time) else none
  | none => none

/-- The earliest launch, SYNC or DELAY_REQ time due on a port (R340). -/
def State.nextDue (s : State) (p : PortId) : Option Nat :=
  let l := (s.headDue ⟨p.val, by omega⟩ p).toList ++ (s.headDue 17 p).toList ++
    (if decide (p.val < 16) && s.sendsSync then [s.nextSync] else []) ++
    (if p = PU then (s.cad.xs.filter fun x => x.t3.isNone).map fun x => tbNs x.due else [])
  l.min?

/-- Bytes a waiting frame takes on the wire with its CRC. -/
def OutFrame.size (f : OutFrame) : Nat := (if f.slot.isSome then f.len else f.bytes.length) + 4

/-- A forwarded or other frame may start only if it ends before the next due launch (R340). -/
def State.fits (s : State) (p : PortId) (f : OutFrame) : Bool :=
  decide (f.kind.cls ≤ 2) ||
    match s.nextDue p with
    | some t => decide (tbNs s.tb0 + frameNs (s.port p).cl.ver.val f.size ≤ t)
    | none => true

/-- The waiting frame of the lowest class, oldest first. -/
def firstOf (l : List OutFrame) : Nat → Option OutFrame
  | 0 => none
  | n + 1 => match l.find? fun f => f.kind.cls == 4 - n with
    | some f => some f
    | none => firstOf l n

/-- CL_ERR1.FWD_DROP counts a frame dropped (R340). -/
def fwdDrop (p : PortId) (s : State) : State := s.bump (F.CL_ERR1_POISON_FWD_DROP p)

/-- TSTAMP frames whose residence has passed 1 ms are dropped (R340). -/
def dropStale (p : PortId) (s : State) : State :=
  let old (f : OutFrame) : Bool := f.tstamp && decide (1000000 < (s.tim.tb1 - f.rx1).toNat)
  let n := ((s.port p).cl.outQ.filter old).length
  if n = 0 then s
  else freeIdle ((s.addSat (F.CL_ERR1_POISON_FWD_DROP p) n).modCl p fun l =>
    { l with outQ := l.outQ.filter fun f => !old f })

/-- CORR with the residence added by a transparent hub, in TB1 (R356). -/
def addResidence (s : State) (f : OutFrame) (l : List Byte) : List Byte :=
  if f.tstamp && s.cadTransparent then
    frPut l 12 6 ((frCorr l + (s.tim.tb1 - f.rx1).toNat * 256) % 2 ^ 48)
  else l

/-- Puts a frame on the wire; a forwarded frame is read from its slot, and poison found in it marks it (R297). -/
def cadStart (p : PortId) (f : OutFrame) (s : State) : State :=
  match f.slot with
  | none =>
    let s := match f.kind with
      | .launch q => lateStarts q p s
      | _ => s
    s.modCl p fun l => { l with wire := some { f with bytes := sealFrame f.poison f.bytes } }
  | some a =>
    let r := storeReadBytes 3 a f.len s
    let s := if r.1.2 then
        raiseFault { src := .poisonCad, port := some p, addr := 0x100000 + firstPoison s (a / 4) ((f.len + 3) / 4),
                     req := 3, acc := 1 } r.2
      else r.2
    s.modCl p fun l =>
      { l with wire := some { f with bytes := sealFrame r.1.2 (addResidence s f r.1.1), poison := r.1.2 } }

/-- The output of a port chooses its next frame when its wire is free (R340, R346). -/
def cadPump (p : PortId) (s : State) : State :=
  if (s.port p).cl.wire.isSome then s
  else
    let s := dropStale p s
    let q := (s.port p).cl.outQ
    let pick := match (s.port p).cl.st with
      | .up => firstOf q 4
      | .train | .retrain => q.find? fun f => f.kind == .train
      | _ => none
    match pick with
    | some f => if s.fits p f then cadStart p f (s.modCl p fun l => { l with outQ := l.outQ.erase f }) else s
    | none => s

/-- Queues a frame of class 3 or 4 in a forwarding slot (R340, R360). -/
def cadQueue (p : PortId) (k : FrameKind) (tstamp : Bool) (rx1 : BitVec 64) (l : List Byte) (s : State) : State :=
  let held := (s.port p).cl.outQ.filter fun f => f.slot.isSome
  let full := decide ((if p.val < 16 then 16 else 32) ≤ held.length)
  let victim := held.find? fun f => f.kind == .other
  if full && (k == .other || victim.isNone) then fwdDrop p s
  else
    let s := match full, victim with
      | true, some v => fwdDrop p (s.modCl p fun c => { c with outQ := c.outQ.erase v })
      | _, _ => s
    let r := takeFwdSlot s
    match r.1 with
    | none => fwdDrop p r.2
    | some a =>
      let s := r.2.storeWords a (bytesWords ((l.length + 3) / 4) l)
      cadPump p (s.modCl p fun c =>
        { c with outQ := c.outQ ++ [{ kind := k, slot := some a, len := l.length, tstamp := tstamp, rx1 := rx1 }] })

/-- Queues a frame the hub originates outside the slots. -/
def cadQueueOwn (p : PortId) (k : FrameKind) (l : List Byte) (s : State) : State :=
  cadPump p (s.modCl p fun c => { c with outQ := c.outQ ++ [{ kind := k, bytes := l }] })

/-! ### BELL frames (R358) -/

/-- ROUTE and HOP of an uplink frame the hub originates on PU: 0x8 + (tier − 1), or LINK while the tier is unknown. -/
def State.upRoute (s : State) : Nat := if s.tier = 0 then 0 else 8 + (s.tier - 1)

/-- The BELL frame for a port (R342, R358). -/
def bellFrame (p : PortId) (clear : Bool) (s : State) : List Byte :=
  let flags := b2n clear + 2 * b2n s.feed.tandem + 4 * b2n s.feed.degraded
  let dur := if clear then (s.reg R.FEED_BELL_DUR).toNat else 0
  let payload := beBytes 1 flags ++ beBytes 1 0 ++ beBytes 2 (s.feed.vin / 10) ++ beBytes 4 dur
  if p.val < 16 then mkFrame 0x12 2 s.cad.seqBell.toNat 0xF (s.rd F.CAD_SRC_ADDR) (s.tier + 1) 0 payload
  else mkFrame 0x12 2 s.cad.seqBell.toNat s.upRoute (s.rd F.CAD_SRC_ADDR) 0 0 payload

/-- Sends one BELL on a link that is UP, aborting any frame in flight (R340, R358). -/
def sendBell (clear : Bool) (p : PortId) (s : State) : State :=
  if (s.port p).cl.st == .up then
    let l := bellFrame p clear s
    let s := s.modCad fun c => { c with seqBell := c.seqBell + 1 }
    cadQueueOwn p .bell l (cadAbort p s)
  else s

/-- BELL on every UP downstream link, and on PU when UP (R358). -/
def sendBells (clear : Bool) (s : State) : State := forEach allPorts (sendBell clear) s

/-! ### Retrains (R327, R328, R348) -/

/-- The highest version at most `v` in the partner's VERSIONS and in the allowance (R326, R328). -/
def State.selVer (s : State) (p : PortId) (v : Nat) : Fin 3 :=
  if bitOf (s.reg (R.CL_PARTNER p)) 17 && decide (2 ≤ s.maxVer) && decide (2 ≤ v) then 2 else 1

/-- Training starts at step 1 (R346). -/
def cadTrain (p : PortId) (ver : Fin 3) (s : State) : State :=
  s.modCl p fun l => { l with st := .train, ver := ver, locked := false, echoes := 0 }

/-- A retrain: the ordered set, then the steps of R346 at `ver`; frames wait (R348, R349). -/
def cadRetrain (p : PortId) (ver : Fin 3) (s : State) : State :=
  let s := cadAbort p s
  clEvt p 2 (s.modCl p fun l => { l with st := .retrain, ver := ver, locked := false, echoes := 0, everLocked := false,
                                         attention := none })

/-- The Attention VDO (R328). -/
def attentionVdo (ver : Nat) : Word := 0xCD000100 ||| atBits 16 2 ver

/-- PU asks its parent for a retrain and repeats it (R327, R347). -/
def cadAttention (ver : Fin 3) (s : State) : State :=
  startVdm PU s.cadSvid (s.port PU).cl.objPos.val 6 [attentionVdo ver.val]
    (s.modCl PU fun l => { l with attention := some ver })

/-- The allowance has changed: every live link is taken to the newly selected version (R327). -/
def cadAllowance (s : State) : State :=
  let s := forEach downPorts (fun p s =>
    if (s.port p).cl.st.live then cadRetrain p (s.selVer p 2) s else s) s
  if (s.port PU).cl.st.live then cadAttention (if s.maxVer = 1 then 1 else 2) s else s

end Sys2Proof.Machine
end

