-- ==== Sys2Proof/Machine/TcCore.lean ====
section
/-! DEFINITION. The Type-C engine's shared parts (05_typec_attach.md): where a port may only sink, Rp, VCONN, entering and
leaving states, detach and error recovery of one port. What PU's leaving does to the feeds stands in FeedCore.lean. -/

namespace Sys2Proof.Machine

/-- TC_EVT bits: ATTACH 0, DETACH 1, WET 2, DRY 3, VCONN_OC 4, CC_OVP 5, SBU_OVP 6, ERR_RECOVERY 7, ACC_SEEN 8, VBUS_LATE 9,
SNK_PARTNER 10. -/
def tcEvt (p : PortId) (k : Nat) (s : State) : State := raiseEvt0 (R.TC_EVT p) k s

/-! ### Where a port may only sink (R140 to R144) -/

/-- A condition of the Rd rule holds (R140). -/
def State.rdCause (s : State) : Bool :=
  !s.glb.levelSet || s.feed.sel.isNone || s.feed.tandem || s.feed.below36Held

/-- The port cannot source (R142). -/
def State.sinkOnly (s : State) (p : PortId) : Bool :=
  p.val < 16 && (!s.convVerified p || (s.port p).pp.st == .locked)

/-- The port presents Rd alone (R140, R142, R143). -/
def State.rdAlone (s : State) (p : PortId) : Bool :=
  if p.val < 16 then s.feed.rdRule || s.sinkOnly p else !s.glb.levelSet || s.pwr.vaux == .puVbus

/-- Only PU_VBUS supplies the hub (R144). -/
def State.puSole (s : State) : Bool :=
  s.pwr.vaux == .puVbus || (s.feed.fc.st == .active && s.feed.fa.st != .ready && s.feed.fb.st != .ready)

/-- A retention bank that holds registers of the port is being reloaded (R399): banks 0 and 3 hold some of every port. -/
def State.reloadHolds (s : State) (p : PortId) : Bool :=
  let r := s.pwr.reload
  r.getLsbD 0 || r.getLsbD 3 || (if p.val < 8 then r.getLsbD 1 else r.getLsbD 2)

/-- The port is held in DISABLED: by policy once an image is applied, by TC_CTRL.DISABLE, or by a reload (R63, R142, R399). -/
def State.tcDisabled (s : State) (p : PortId) : Bool :=
  (s.img.applied && !s.enabled p) || s.rdB (F.TC_CTRL_DISABLE p) || s.reloadHolds p

/-- Rp the port would present as a source under no contract (R145): PU always Default. -/
def State.rpAdv (s : State) (p : PortId) : Fin 4 :=
  if p.val < 16 then
    match s.rd (F.TC_CTRL_RP_ADV p) with
    | 1 => 1
    | 2 => 2
    | 3 => 3
    | _ => if decide ((15000 : Int) ≤ s.headroom) then 3 else 2
  else 1

/-- CC is open in these states, and no VBUS or PD runs. -/
def TcState.isUnattached : TcState → Bool
  | .unattachedSnk | .unattachedSrc => true
  | _ => false

def TcState.isAttached : TcState → Bool
  | .attachedSnk | .attachedSrc => true
  | _ => false

/-- States that present Rp (R137). -/
def TcState.presentsRp : TcState → Bool
  | .unattachedSrc | .attachWaitSrc | .attachedSrc | .trySrc | .tryWaitSrc => true
  | _ => false

/-- The port goes to `st`; its USB gate follows (R227); as a sink it breaks off an output-present check (R125). -/
def tcEnter (p : PortId) (st : TcState) (s : State) : State :=
  let old := (s.port p).tc.st
  let s := noticeIf (st != old && st != .moistTest && old != .moistTest) .typec (some p) s
  let s := if st = .attachedSnk then s.modPp p fun x => { x with check := false } else s
  withGate p (fun s => s.modTc p fun t =>
    { t with st := st, rp := if st.presentsRp then s.rpAdv p else 0 }) s

/-- Mass-wet holds the port while it is unattached (R156). -/
def State.massHolds (s : State) (p : PortId) : Bool :=
  s.mass.active && s.rd F.TC_MASS_CFG_ACTION != 0 && decide (p.val < 16)

/-- The unattached state R139 calls for: DISABLED, WET while wet or held, else UNATTACHED_SNK. -/
def State.tcRest (s : State) (p : PortId) : TcState :=
  if s.tcDisabled p then .disabled
  else if (s.port p).tc.mstate != .dry || s.massHolds p then .wet
  else .unattachedSnk

/-- A port that presents Rp unattached goes to Rd when it may only sink (R140, R142). -/
def tcSinkOnly (p : PortId) (s : State) : State :=
  match (s.port p).tc.st with
  | .unattachedSrc | .attachWaitSrc | .trySrc | .tryWaitSrc =>
    if s.rdAlone p then tcEnter p .unattachedSnk s else s
  | _ => s

/-- Follows the conditions of the Rd rule: it begins with any of them and ends once none holds and VIN is at 36 V or more
(R140). -/
def rdTrack (s : State) : State :=
  let v := if s.rdCause then true else if s.feed.below36 then s.feed.rdRule else false
  let s := s.modFeed fun f => { f with rdRule := v }
  forEach allPorts tcSinkOnly s

/-! ### VCONN (R148) -/

/-- VCONN off. -/
def vconnOff (p : PortId) (s : State) : State := s.modTc p fun t => { t with vconn := false }

/-- An order number for a port that turns VCONN on now: above every other (R148). -/
def State.vconnNext (s : State) : Nat := (allPorts.map fun p => (s.port p).tc.vconnOrder + 1).foldl max 0

/-- VCONN on, unless R148 has removed it. -/
def vconnOn (p : PortId) (s : State) : State :=
  if (s.port p).tc.vconnLost || !decide (p.val < 16) then s
  else s.modTc p fun t => { t with vconn := true, vconnOrder := s.vconnNext }

/-! ### Detach and error recovery (R150, R151) -/

/-- What detach, error recovery, CC_FAULT, DISABLED and SHED share: the OFF condition, VCONN off, the PD engine reset, the
Cadence Link down, and the new state, by which USB disconnects. -/
def tcLeave (p : PortId) (c : LCause) (st : TcState) (s : State) : State :=
  let s := ppOff p (s.modPp p fun x => { x with call := false })
  let s := ocTrack p s
  let s := cadLeave p c (pdReset p s)
  let s := tcEnter p st s
  s.modTc p fun t =>
    { t with orient := false, cableRa := false, vconn := false, vconnLost := false, vbusCount := false }

/-- The state a port goes to after a detach: MOIST_TEST first when tests are enabled and the level is set (R150, R154). -/
def State.afterDetach (s : State) (p : PortId) : TcState :=
  if s.tcDisabled p then .disabled
  else if s.rdB (F.TC_CTRL_MOIST_EN p) && s.glb.levelSet then .moistTest
  else s.tcRest p

/-- Detach of a port (R150), PU's upstream detach (R244) included. -/
def tcDetach (p : PortId) (s : State) : State :=
  let s := tcLeave p .detach (s.afterDetach p) s
  let s := tcEvt p 1 s
  if p = PU then hubDetach s else s

/-- A request for error recovery that is refused queues its event with detail 1 (R144, R151). -/
def errRefused (p : PortId) (s : State) : State :=
  pushEvent (evSource (R.TC_EVT p)) (evCode (R.TC_EVT p) 7) 1 s

/-- States in which a request for error recovery is dropped (R151). -/
def TcState.dropsRecovery : TcState → Bool
  | .ccFault | .disabled | .shed | .moistTest | .wet => true
  | _ => false

/-- Entry to ERROR_RECOVERY (R151). -/
def tcRecoverNow (p : PortId) (s : State) : State :=
  let s := tcLeave p .errRecovery .errorRecovery s
  let s := tcEvt p 7 s
  if p = PU then hubDetach s else s

/-- A request for error recovery (R144, R151). -/
def tcErrRecovery (p : PortId) (s : State) : State :=
  if (s.port p).tc.st.dropsRecovery || (p = PU && s.puSole) then errRefused p s
  else tcRecoverNow p s

/-- A port is taken to DISABLED, WET or SHED: an attached one through the detach sequence. -/
def tcHold (p : PortId) (st : TcState) (s : State) : State :=
  if (s.port p).tc.st.isAttached then
    let s := tcEvt p 1 (tcLeave p .detach st s)
    if p = PU then hubDetach s else s
  else tcEnter p st s

/-- An attached source that can no longer source switches to Rd alone; its partner sees a detach (R142, R179, R183). -/
def tcSourceCheck (p : PortId) (s : State) : State :=
  if (s.port p).tc.st == .attachedSrc && s.sinkOnly p then tcDetach p s else tcSinkOnly p s

/-- TC_CTRL.DISABLE and the policy take effect (R63, R142). -/
def tcApplyDisable (p : PortId) (s : State) : State :=
  match s.tcDisabled p, (s.port p).tc.st with
  | true, .disabled | true, .ccFault => s
  | true, _ => tcHold p .disabled s
  | false, .disabled => tcEnter p (s.tcRest p) s
  | false, _ => s

end Sys2Proof.Machine
end

