-- ==== Sys2Proof/Machine/Level.lean ====
section
/-! DEFINITION. The service level (02_startup_and_image.md R46, R47) and the power budget (06_pd_engine.md R184 to R190):
a change of either and what follows at once. -/

namespace Sys2Proof.Machine

/-! ### Available power (R184, R190) -/

/-- eff × i_max × v_bus × d of the ACTIVE feed, in mW (R184). -/
def State.bmCapMw (s : State) : Nat :=
  let e := s.rd F.PD_BM_CFG_EFF
  let d := if s.feed.degraded then s.rd F.PD_BM_CFG_DEGR else 100
  if s.drives .fa then e * s.rd F.FEED_LIM_FA_MAX * s.bm.vinAvg * d / 10000
  else if s.drives .fb then e * s.rd F.FEED_LIM_FB_MAX * s.bm.vinAvg * d / 10000
  else if s.drives .fc then
    match (s.port PU).pd.contract with
    | some c => e * s.rd F.FEED_LIM_FC_MAX * c.mv * d / 100000
    | none => 0
  else 0

/-- P_avail in mW (R184). -/
def State.bmAvailMw (s : State) : Nat :=
  if !s.feedActive || s.feed.tandem then 0
  else min (s.rd F.PD_BM_CFG_BUDGET * 1000) s.bmCapMw - s.rd F.PD_BM_AUX_AUX_W * 1000 - 5000

/-- The held, lower P_avail that shares come from after a change to `v` (R190). -/
def Bm.heldFor (b : Bm) (v : Nat) (sources : Bool) : Option Nat :=
  let old := b.heldAvail.getD b.avail
  if old < v && sources then some old else none

/-- EPR ends by the hub: EPR_Source_Capabilities that carry SPR PDOs only (R175 step 1). -/
def eprExitStart (p : PortId) (s : State) : State :=
  pdSendCaps p (s.modPd p fun x => { x with eprExiting := true })

/-- Ports in EPR mode that R172 no longer permits, lowest priority first (R175). -/
def eprCheck (s : State) : State :=
  forEach (s.lowestFirst downPorts) (fun p s =>
    if (s.port p).pd.epr && !(s.port p).pd.eprExiting && !s.eprPermitted p then eprExitStart p s else s) s

/-- P_avail computed anew (R184), the raise delay (R190), the reclaim walk (R188) and EPR (R175). -/
def bmRecompute (s : State) : State :=
  let v := s.bmAvailMw
  let s := s.modBm fun b => { b with avail := v, heldAvail := b.heldFor v (!s.sources.isEmpty), cap := s.bmCapMw }
  eprCheck (bmWalk s)

/-! ### The service level (R46) -/

/-- DISC_OK: Level 2 has been reached; the held increment takes effect (R309). -/
def discReached (s : State) : State :=
  let t := s.tim
  let s := match t.incHeld with
    | some w => s.setReg R.TIM_TB0_INC w
    | none => s
  s.modTim fun t => { t with discOk := true, incHeld := none }

/-- A change of level queues its event: new level in [7:0], previous in [15:8] (R46, R416). -/
def levelEvent (n old : Nat) (s : State) : State := pushEvent 0 0xFF06 (atBits 0 8 n ||| atBits 8 8 old) s

/-- Moves to level `n`: the allowance of the Cadence Link (R326), EPR (R47, R175) and the budget (R184) follow. -/
def setLevel (n : Fin 3) (s : State) : State :=
  let old := s.glb.level
  let v := s.maxVer
  let s := levelEvent n.val old.val (s.modGlb fun g => { g with level := n, levelSet := true })
  let s := if n = 2 && !s.tim.discOk then discReached s else s
  let s := if s.maxVer ≠ v then cadAllowance s else s
  bmRecompute s

/-- Level 2 falls to Level 1 (R46). -/
def levelDown (s : State) : State := if s.glb.level = 2 then setLevel 1 s else s

/-- A commit that changes what a port advertises sends new capabilities under a contract (R170). -/
def pdTableChanged (p : PortId) (s : State) : State :=
  if (s.port p).pd.contract.isSome && (s.port p).pd.source then pdSendCaps p s else s

end Sys2Proof.Machine
end

