-- ==== Sys2Proof/Machine/FeedCore.lean ====
section
/-! DEFINITION. Feed selection, switchover, total feed loss, the bell and the aux outputs (03_feeds.md), as far as several
commands share them. -/

namespace Sys2Proof.Machine

/-- FEED_EVT bits: BELL 0, BELL_CLEAR 1, SWITCH 2, TOTAL_LOSS 3, TANDEM_ENTER 4, TANDEM_EXIT 5, FEED_TRIP 6, FEED_LOCK 7,
AX_TRIP 8, DEGRADED 9. The bell is wake source VIN_WARN, trips are PROT, and 2 to 5 FEED (R389). -/
def feedEvt (k : Nat) (s : State) : State :=
  let s := noticeIf (k == 0) .vinWarn none s
  let s := noticeIf (k == 6 || k == 8) .prot none s
  raiseEvt0 R.FEED_EVT k (noticeIf (decide (2 ≤ k ∧ k ≤ 5)) .feed none s)

/-- Bit `k` of FEED_CTRL.ENABLE: 0 FA, 1 FB, 2 FC, 3 FT, 4 AX0, 5 AX1. -/
def State.feedEn (s : State) (k : Nat) : Bool := (s.rd F.FEED_CTRL_ENABLE).testBit k

/-- The number of a feed in FEED_CTRL and FEED_UNLOCK. -/
def feedCode : FeedId → Nat
  | .fa => 0
  | .fb => 1
  | .fc => 2

/-- The feed a two-bit code of PIN and PRIO names; 3 names none. -/
def feedOfCode : Nat → Option FeedId
  | 0 => some .fa
  | 1 => some .fb
  | 2 => some .fc
  | _ => none

def allFeeds : List FeedId := [.fa, .fb, .fc]

/-! ### Rank and choice (R78) -/

/-- The order of selection: the feed PIN names, then PRIO's three slots. -/
def State.feedOrder (s : State) : List FeedId :=
  let w := s.rd F.FEED_CTRL_PRIO
  let l := [w % 4, w / 4 % 4, w / 16 % 4].filterMap feedOfCode
  match feedOfCode (s.rd F.FEED_CTRL_PIN) with
  | some f => f :: l.erase f
  | none => l

def State.feedRank (s : State) (f : FeedId) : Nat := s.feedOrder.idxOf f

/-- The dynamo hand-over is in progress (R52). -/
def State.dynRuns (s : State) : Bool :=
  match s.dyn.step with
  | .idle | .ended => false
  | _ => true

/-- The READY feed R78 chooses; while the hand-over runs, neither FA nor FB (R52). -/
def State.feedPick (s : State) : Option FeedId :=
  s.feedOrder.find? fun f => (s.line f).st == .ready && (!s.dynRuns || f == .fc)

/-- The ACTIVE feed. -/
def State.activeFeed (s : State) : Option FeedId := allFeeds.find? fun f => (s.line f).st == .active

/-- A pair is being turned off by a switchover. -/
def State.breaking (s : State) : Bool := s.feed.switching && s.feed.old.isSome

/-! ### Pairs -/

/-- A feed pair is turned off; FC's is the PU pair (R80, R106). -/
def feedPairOff (f : FeedId) (s : State) : State :=
  let s := s.modLine f fun l => { l with gate := if l.gate == .off then .off else .discharging }
  if f = .fc then ppOff PU s else s

/-- What the PU pair needs but for VBUS and the selection (R106). -/
def State.puConds (s : State) : Bool :=
  (s.port PU).pd.contract.isSome && s.feedEn 2 && !s.pmb.stuck && !s.rdB (F.PP_CTRL_FORCE_OFF PU) && !s.held (.port PU)

/-- The PU pair may leave OFF. -/
def State.puMayRamp (s : State) : Bool := (s.port PU).pp.st == .off && s.puConds

/-- A feed pair is turned on, onto a live bus or onto one below 30 V (R83). A PU pair that is on stays on (R106). -/
def feedPairOn (f : FeedId) (live : Bool) (s : State) : State :=
  let on := f == .fc && (s.port PU).pp.st.conducting
  let s := s.modLine f fun l =>
    { l with gate := if on then .full else .charging, live := live, rampEnded := on }
  if f = .fc && s.puMayRamp then ppEnterRamp PU 0 s else s

/-! ### Events of the hand-over (R51, R52) -/

/-- The hand-over ends: 0 FC ACTIVE, 1 FA or FB READY, 2 abandoned, 3 PU lost while VTAN holds VAUX5. -/
def dynEnd (k : Nat) (s : State) : State :=
  let s := s.modDyn fun _ => { step := .ended, bridge := false }
  pushEvent 0x20 0xFF0E (BitVec.ofNat 32 k) s

/-- The hand-over is abandoned (R51): the contract of 5 V stays, and the PU pair leaves the bus. -/
def dynAbandon (s : State) : State := pushEvent 0x20 0xFF07 0 (ppOff PU (dynEnd 2 s))

/-! ### Selection -/

/-- What follows a feed's taking over the bus: SEL, the SWITCH event of a switchover, the budget (R184), the Rd rule (R140),
the hub status (R224), and paths that wait for a feed (R108). -/
def feedConducts (f : FeedId) (s : State) : State :=
  let sw := s.feed.switching
  let cool (l : FeedLine) : FeedLine := if l.st == .tripped then { l with st := .cooldown } else l
  let s := s.modFeed fun x =>
    { x with sel := some f, new_ := none, fa := cool x.fa, fb := cool x.fb, fc := cool x.fc }
  let s := s.modLine f fun l => { l with gate := if l.gate == .charging then .conducting else l.gate }
  let s := s.modPwr fun x => { x with afeOn := x.afeOn || (x.ldosOk && x.st != .deep && x.st != .wakeFail) }
  let s := if sw then feedEvt 2 s else s
  ppKickAll (localTrack (rdTrack (bmRecompute s)))

/-- A feed becomes ACTIVE and its pair is turned on (R78, R83); `first` when none was ACTIVE before: converters are verified
(R207). FC's success ends the hand-over (R52). -/
def feedStart (f : FeedId) (first : Bool) (s : State) : State :=
  let live := decide (30000 ≤ s.feed.vin)
  let s := s.modLine f fun l => { l with st := .active }
  let s := s.modFeed fun x => { x with new_ := some f, totalLoss := false }
  let s := if f = .fc && s.dynRuns then dynEnd 0 s else s
  let s := feedPairOn f live s
  let s := if first then pmbVerifyAll s else s
  if (s.line f).gate == .full then feedConducts f s else s

/-- With no feed driving the bus and no switchover under way, a READY feed is selected (R78); no pair turns on while a class
A condition is present (R408). -/
def feedSelect (s : State) : State :=
  if s.feedActive || s.feed.switching || s.classA then s
  else match s.feedPick with
    | some f => feedStart f true s
    | none => s

/-- The break of a switchover (R80): the pair of `f` is turned off, and `f` takes state `next` once that is confirmed. A
second trigger does not restart the break (R81). Level 2 ends (R46). -/
def feedBreak (f : FeedId) (next : FeedState) (s : State) : State :=
  if s.breaking then s
  else
    let s := s.modFeed fun x => { x with switching := true, old := some f, oldNext := next, new_ := none }
    levelDown (feedPairOff f s)

/-- A feed is locked (R82, R84, R85): a class B fault and the event. -/
def feedLockNow (f : FeedId) (c : FeedCause) (s : State) : State :=
  let s := s.modLine f fun l => { l with st := .locked, cause := c }
  raiseAt .feedLock none (feedEvt 7 s)

/-- The feed takes the state its trigger calls for, once its pair is off; a feed outside its window is not READY (R75). -/
def feedSettleOld (f : FeedId) (next : FeedState) (s : State) : State :=
  let next := if next == .ready && !(s.line f).inWindow then .absent else next
  let s := s.modLine f fun l => { l with st := next, gate := .off, rampEnded := false }
  if next = .locked then feedLockNow f (s.line f).cause s else s

/-- A trip is counted; a third within 60 s leads to LOCKED (R84). -/
def feedTripNow (f : FeedId) (c : FeedCause) (s : State) : State :=
  let now := s.tb3
  let l := (s.line f).trips.filter fun t => s.within t 60
  let s := s.modLine f fun x => { x with cause := c, trips := now :: l }
  feedBreak f (if 2 ≤ l.length then .locked else .tripped) (feedEvt 6 s)

/-- The tandem state and total feed loss end: a feed has become READY (R97). -/
def tandemEnd (s : State) : State :=
  if s.feed.tandem then
    let s := s.modFeed fun x => { x with tandem := false, totalLoss := false }
    feedEvt 5 (s.modPwr fun x => { x with afeOn := true })
  else s.modFeed fun x => { x with totalLoss := false }

/-- A feed has become READY (R75): the tandem state ends, FA or FB ends the hand-over (R52), and selection is
reconsidered (R78). A feed that drove the bus through a failed pair (R82) is chosen like any other once it is READY. -/
def feedReady (f : FeedId) (s : State) : State :=
  let s := tandemEnd (s.modLine f fun l => { l with st := .ready })
  let s := s.modFeed fun x => { x with failed := if x.failed == some f then none else x.failed }
  let s := if f ≠ .fc && s.dynRuns then
      let s := dynEnd 1 s
      if (s.port PU).pp.st.conducting then feedBreak .fc (s.line .fc).st s else s
    else s
  feedSelect s

/-- FC is lost (R76): an ACTIVE one switches over, another goes to ABSENT; the hand-over ends (R52). -/
def fcLost (s : State) : State :=
  let s := if s.dynRuns then
      let s := s.modDyn fun _ => { step := .ended, bridge := false }
      ppOff PU (if 4400 ≤ s.feed.vtan then pushEvent 0x20 0xFF0E 3 s else s)
    else s
  let s := s.modLine .fc fun l => { l with inWindow := false }
  match s.feed.fc.st with
  | .active => feedBreak .fc .absent s
  | .qualifying | .ready => feedPairOff .fc (s.modLine .fc fun l => { l with st := .absent })
  | _ => s

/-! ### The bell (R89, R90) -/

/-- The bell rings: EWARN_N (the BELL flag), BELL frames on live links, Alerts on ports with a 3.x contract, the event. A
further fall does not ring again. -/
def bellNow (s : State) : State :=
  if s.feed.bell then s
  else
    let s := s.modFeed fun x => { x with bell := true }
    let s := sendBells false s
    let s := forEach downPorts (fun p s =>
      let x := (s.port p).pd
      if x.contract.isSome && x.rev == 2 && s.coreUp then pdSend p (.alert adoInput) s else s) s
    feedEvt 0 s

/-! ### Aux outputs (R98 to R100) -/

/-- The aux output may run: enabled, a feed ACTIVE, not LOCKED, not held (R98, R411). -/
def State.axMay (s : State) (a : AxId) : Bool :=
  s.feedEn (4 + a.val) && s.feedActive && (s.ax a).st != .locked && !s.held (.ax a)

/-- An aux output turns off: PGOOD low at once, the 10 ms check pending except in the tandem state (R98 to R100). -/
def axOff (a : AxId) (s : State) : State :=
  match (s.ax a).st with
  | .ramp | .on | .limit =>
    s.modAx a fun x =>
      { x with st := .off, retries := 0, pgood := false, gateFull := false, offCheck := !s.feed.tandem }
  | .cooldown => s.modAx a fun x => { x with st := .off, retries := 0, backoffDone := false }
  | _ => s

/-- Entry of an aux output to LOCKED: a class B fault (R98, R99). -/
def axLock (a : AxId) (c : FeedCause) (s : State) : State :=
  raiseAt .axLock none (s.modAx a fun x =>
    { x with st := .locked, cause := c, pgood := false, gateFull := false, backoffDone := false })

/-- A trip of an aux output (R98). -/
def axTrip (a : AxId) (c : FeedCause) (counted : Bool) (s : State) : State :=
  if (s.ax a).st.conducting then feedEvt 8 (axTripState a c counted s) else s

def allAx : List AxId := [0, 1]

/-! ### Total feed loss (R92 to R95) -/

/-- A port takes part in Fast Role Swap (R93, R180). -/
def State.frsQualifies (s : State) (p : PortId) : Bool :=
  let x := s.port p
  s.img.tandemCap.getLsbD p.val && x.pd.tandemVdo && x.pd.frsCur != 0 && x.tc.st == .attachedSrc &&
    (match x.pd.contract with
     | some c => decide (c.mv ≤ 20000)
     | none => false) &&
    (match x.pd.trans with
     | some t => decide (t.new.mv ≤ 20000)
     | none => true) &&
    (x.pp.st == .on || x.pp.st == .limit) && s.feedEn 3

/-- A qualifying port: its pair goes off, it signals Fast Role Swap, and it presents Rd (R94, R196). -/
def frsSignal (p : PortId) (s : State) : State :=
  let s := ppOff p (s.modPp p fun x => { x with call := false })
  let s := pdEndContract p s
  let s := s.modPd p fun x => { x with st := .frs, swap := .frsSignal, source := false, tx := [] }
  let s := pdSend p .frSwapSignal s
  let s := s.modFeed fun x =>
    { x with formerTandem := x.formerTandem ++ if h : p.val < 16 then [⟨p.val, h⟩] else [] }
  tcEnter p .attachedSnk s

/-- What a downstream port does at the declaration (R94): Fast Role Swap, a detach, or Rd; a pending
output-present check is broken off (R125). -/
def totalLossPort (p : PortId) (s : State) : State :=
  let s := s.modPp p fun x => { x with check := false }
  if s.frsQualifies p then frsSignal p s
  else if (s.port p).tc.st == .attachedSrc then tcEvt p 1 (tcLeave p .detach (s.tcRest p) s)
  else ocTrack p (ppOff p s)

/-- Total feed loss is declared (R92, R94, R209): the bell, every pair off, Fast Role Swap, converters commanded off. -/
def totalLossNow (s : State) : State :=
  let s := s.modFeed fun x =>
    { x with totalLoss := true, sel := none, switching := false, old := none, new_ := none, failed := none }
  let s := pmbAllOff (feedEvt 3 (bellNow s))
  let s := forEach allAx axOff s
  let s := ppOff PU (forEach downPorts totalLossPort s)
  let s := forEach downPorts bmRegrant s
  bmRecompute (localTrack (rdTrack s))

/-- The pair of a switchover is off: the new feed is chosen afresh, or total feed loss is declared (R81, R92). -/
def feedChoose (first : Bool) (s : State) : State :=
  if s.classA then s.modFeed fun x => { x with switching := false }
  else match s.feedPick with
    | some f => feedStart f first s
    | none => totalLossNow s

/-! ### A committed FEED_CTRL (R78, R79, R98) -/

/-- ENABLE of one feed takes effect. -/
def feedApplyEn (f : FeedId) (s : State) : State :=
  if s.feedEn (feedCode f) then
    if (s.line f).st == .disabled then s.modLine f fun l => { l with st := .absent } else s
  else match (s.line f).st with
    | .disabled | .locked => s
    | .active => feedBreak f .disabled s
    | _ =>
      let s := s.modLine f fun l => { l with st := .disabled }
      if f = .fc then ppOff PU s else s

/-- The selection after a committed change of PIN or PRIO (R78). -/
def feedReorder (s : State) : State :=
  match s.activeFeed, s.feedPick with
  | some f, some g => if decide (s.feedRank g < s.feedRank f) && !s.feed.switching then feedBreak f .ready s else s
  | _, _ => s

/-- FEED_CTRL has been committed; `moved` says PIN or PRIO changed. FC disabled ends a hand-over (R51). -/
def feedApplyCtrl (moved : Bool) (s : State) : State :=
  let s := forEach allFeeds feedApplyEn s
  let s := forEach allAx (fun a s => if s.feedEn (4 + a.val) then s else axOff a s) s
  let s := s.modFeed fun x => { x with ftPresent := decide (4400 ≤ x.vtan) && s.feedEn 3 }
  let s := if s.dynRuns && !s.feedEn 2 then dynAbandon s else s
  if moved then feedReorder s else s

/-- FEED_UNLOCK (R85): LOCKED feeds go to ABSENT, LOCKED aux outputs to OFF; a feed whose ENABLE bit is 0 is DISABLED. -/
def feedUnlock (v : Word) (s : State) : State :=
  let s := forEach allFeeds (fun f s =>
    if bitOf v (feedCode f) && (s.line f).st == .locked then
      s.modLine f fun l => { l with st := if s.feedEn (feedCode f) then .absent else .disabled }
    else s) s
  forEach allAx (fun a s =>
    if bitOf v (4 + a.val) && (s.ax a).st == .locked then s.modAx a fun x => { x with st := .off, retries := 0 } else s) s

end Sys2Proof.Machine
end

