-- ==== Sys2Proof/Machine/PortOps.lean ====
section
/-! DEFINITION. Detach, error recovery, Hard Reset, trips and locks of a port, PU's part in the feeds included
(05_typec_attach.md R150, R151; 06_pd_engine.md R165, R166, R181 to R183; 04_port_power_path.md R121 to R123). -/

namespace Sys2Proof.Machine

/-! ### Detach and error recovery -/

/-- VAUX5 passes to VTAN, or to none, when PU_VBUS goes (R15). -/
def puVbusGone (s : State) : State :=
  if s.pwr.vaux == .puVbus then
    s.modPwr fun x => { x with vaux := if 4400 ≤ s.feed.vtan then .vtan else .none }
  else s

/-- Detach of a port (R150); PU takes FC with it (R52, R76). -/
def portDetach (p : PortId) (s : State) : State :=
  if p = PU then puVbusGone (tcDetach p (fcLost s)) else tcDetach p s

/-- A request for error recovery of a port (R144, R151). -/
def portErrRecovery (p : PortId) (s : State) : State :=
  if p = PU && !(s.puSole || (s.port p).tc.st.dropsRecovery) then tcErrRecovery p (fcLost s) else tcErrRecovery p s

/-- A port is taken to DISABLED, WET or SHED. -/
def portHold (p : PortId) (st : TcState) (s : State) : State :=
  tcHold p st (if p = PU then fcLost s else s)

/-- A port that can no longer source switches to Rd; its partner sees a detach (R142, R179, R183). -/
def portSourceCheck (p : PortId) (s : State) : State := tcSourceCheck p s

/-- TC_CTRL.DISABLE and the policy take effect (R63, R142). -/
def portApplyDisable (p : PortId) (s : State) : State :=
  match s.tcDisabled p, (s.port p).tc.st with
  | true, .disabled | true, .ccFault => s
  | true, _ => portHold p .disabled s
  | false, .disabled => tcEnter p (s.tcRest p) s
  | false, _ => s

/-! ### Hard Reset -/

/-- A Hard Reset leaves the mode (R329), abandons a swap (R182) and, on PU, takes FC (R76). -/
def hardResetCommon (p : PortId) (s : State) : State :=
  let s := cadLeave p .hardReset s
  let s := s.modPd p fun x => { x with source := (s.port p).tc.st == .attachedSrc }
  let s := if (s.port p).pd.drivenNew then
      ppOff p ((s.modPp p fun x => { x with call := false }).modPd p fun x => { x with drivenNew := false, hrst := .discharge })
    else s
  if p = PU then fcLost s else s

/-- The hub sends a Hard Reset where nothing stands against it (R181, R182). -/
def hardResetNow (p : PortId) (s : State) : State :=
  let s := s.modPd p fun x => { x with source := (s.port p).tc.st == .attachedSrc }
  let dn := (s.port p).pd.drivenNew
  let s := pdHardResetTx p s
  hardResetCommon p (s.modPd p fun x => { x with drivenNew := dn })

/-- Where a Hard Reset is called for (R165, R166, R182): in the tandem state a Soft_Reset, or no contract when that has
failed; Soft_Reset on PU while it is the hub's only supply; ERROR_RECOVERY after nHardResetCount + 1 of them. -/
def hardReset (p : PortId) (s : State) : State :=
  let x := (s.port p).pd
  if s.feed.tandem then
    if x.st == .softReset then
      (pdEndContract p s).modPd p fun x => { x with st := .implicit, await := none, swap := .none, tx := [] }
    else pdSoftReset p (s.modPd p fun x => { x with swap := .none })
  else if p = PU && s.puSole then pdEvt p 14 (pdSoftReset p s)
  else if x.source && decide (3 ≤ x.hrstRun) then portErrRecovery p s
  else hardResetNow p s

/-- A protocol error or a missing response (R165): Soft_Reset, or Hard Reset in a power transition or a swap; a Soft_Reset
that failed leads to Hard Reset. -/
def pdEscalate (p : PortId) (s : State) : State :=
  let x := (s.port p).pd
  if x.st == .softReset || x.trans.isSome || x.swap != .none then hardReset p s else pdSoftReset p s

/-! ### Trips and locks (R122, R183) -/

/-- A die-temperature fault is present: the Alert carries OTP too (R197). -/
def State.thermal (s : State) : Bool := s.flt.tempCrit || s.flt.tempHigh

/-- The Alert of a trip or lock at 3.x (R183, R197), and its Status flags. -/
def State.tripAdo (s : State) : Word := if s.thermal then adoOcp ||| adoOtp else adoOcp
def State.tripFlags (s : State) : BitVec 3 := if s.thermal then 3 else 1

/-- The engine's answer to a trip: Alert at 3.x, then Hard Reset; VBUS stays off for tSrcRecover besides the backoff
(R183). -/
def pdPathTrip (p : PortId) (s : State) : State :=
  let v3 := (s.port p).pd.rev == 2
  let ado := s.tripAdo
  let s := s.modPd p fun x => { x with evFlags := x.evFlags ||| s.tripFlags }
  let s := hardReset p s
  let s := s.modPd p fun x =>
    { x with tx := if v3 && x.tx == [.hardReset] then [.alert ado, .hardReset] else x.tx,
             hrst := if x.source && x.st == .hardReset then .recover else x.hrst }
  s

/-- A trip of a port's path (R108, R122, R183, R224). -/
def pathTrip (p : PortId) (c : PpCause) (s : State) : State :=
  if (s.port p).pp.st.conducting then
    ocTrack p (pdPathTrip p (pdEndContract p (ppTripState p c s)))
  else s

/-- Entry of a port's path to LOCKED (R122, R123, R183): a class B fault, the contract ends, Alert and Hard Reset are sent,
and the port becomes sink-only. -/
def pathLock (p : PortId) (c : PpCause) (s : State) : State :=
  let v3 := (s.port p).pd.rev == 2
  let ado := s.tripAdo
  let s := raiseAt .portLock (some p) (pdEndContract p (ppLockState p c s))
  let s := ocTrack p s
  if p = PU then hardReset p s
  else if (s.port p).tc.st == .attachedSrc && !s.feed.tandem then
    let s := pdEvt p 2 (portSourceCheck p s)
    if s.glb.level == 0 then s
    else s.modPd p fun x => { x with tx := if v3 then [.alert ado, .hardReset] else [.hardReset] }
  else tcSinkOnly p s

/-- The pair of a tripped path is off (R108, R121): COOLDOWN, counting a retry unless the cause is not counted, or LOCKED
when no retry is left. During COOLDOWN the converter goes to 5.0 V (R122); an OFF condition that arose meanwhile acts now
(R109). -/
def pathCool (p : PortId) (s : State) : State :=
  let x := (s.port p).pp
  if x.counted && decide (s.rd (F.PP_CTRL_RETRY_CNT p) ≤ x.retries.val) then pathLock p x.cause s
  else
    let s := s.modPp p fun x =>
      { x with st := .cooldown, backoffDone := false,
               retries := if x.counted && decide (x.retries.val < 15) then x.retries + 1 else x.retries }
    if x.offPend then ppOff p s
    else match s.conv p with
      | some i => pmbVout i 5000 .cooldown5 s
      | none => s

/-- The cooldown of a path has run out and every condition of RAMP holds (R108, R121, R183). -/
def State.coolReady (s : State) (p : PortId) : Bool :=
  let x := s.port p
  x.pp.st == .cooldown && x.pp.backoffDone && x.pd.hrst != .recover &&
    (if p = PU then s.puConds && s.feed.fc.st == .active else s.ppReady p)

/-- Every path that a safe state or a class A fault trips (R405, R408). -/
def tripPath (x : PathRef) (c : PpCause) (fc : FeedCause) (s : State) : State :=
  match x with
  | .port p => pathTrip p c s
  | .ax a => axTrip a fc false s

def allPaths : List PathRef := allPorts.map .port ++ allAx.map .ax

/-! ### PP_UNLOCK and FORCE_OFF -/

/-- PP_UNLOCK (R123): LOCKED goes to OFF with RETRIES 0; it has no effect in another state. -/
def ppUnlock (p : PortId) (s : State) : State :=
  if (s.port p).pp.st == .locked then
    ppKick p (s.modPp p fun x => { x with st := .off, retries := 0, backoffDone := false, offPend := false })
  else s

/-- A committed FORCE_OFF (R106, R108): an OFF condition of the path; an ACTIVE FC loses its pair and switches over. -/
def ppForceOff (p : PortId) (s : State) : State :=
  if p = PU && s.feed.fc.st == .active then fcLost s else ppOff p s

end Sys2Proof.Machine
end

