-- ==== Sys2Proof/Machine/Resets.lean ====
section
/-! DEFINITION. Cold and warm resets (01_architecture.md R25, R26, R39; 02_startup_and_image.md R40; 03_feeds.md R86;
17_register_access.md R444, R445): what each keeps, and the phase from which the release order runs. -/

namespace Sys2Proof.Machine

/-- PU_VBUS can hold VAUX5: PU is attached and its VBUS lies in the window of the path (R15). -/
def State.puHolds (s : State) : Bool :=
  (s.port PU).tc.st == .attachedSnk &&
    (match (s.port PU).pd.contract with
     | some c => decide (c.mv ≤ 6000)
     | none => true)

/-- What supplies VAUX5 now (R14, R15). -/
def State.supplyNow (s : State) : VauxSource :=
  if 31000 ≤ s.feed.vin then .buck
  else if s.puHolds then .puVbus
  else if 4400 ≤ s.feed.vtan then .vtan
  else .none

/-- The feed whose pair HVS keeps on through a reset: the ACTIVE one, when it is the hub's only supply and VIN is at 31 V
or more (R86). -/
def State.keptFeed (s : State) : Option FeedId :=
  if decide (31000 ≤ s.feed.vin) && !s.puHolds && decide (s.feed.vtan < 4400) && !s.classA then s.activeFeed else none

/-- A feed line through a reset: a kept pair stays, another ACTIVE feed is turned off. -/
def FeedLine.afterReset (kept warm : Bool) (l : FeedLine) : FeedLine :=
  if kept then l
  else if warm then { l with st := if l.st == .active then (if l.inWindow then .ready else .absent) else l.st, gate := .off, rampEnded := false }
  else { inWindow := l.inWindow }

/-- HVS through a reset: the voltages it watches, the windows, and the kept pair (R25, R86). -/
def State.feedAfterReset (s : State) (warm : Bool) : Feed :=
  let k := s.keptFeed
  let x := s.feed
  let base : Feed :=
    { fa := x.fa.afterReset (k == some .fa) warm, fb := x.fb.afterReset (k == some .fb) warm,
      fc := x.fc.afterReset (k == some .fc) warm, sel := k, ftPresent := x.ftPresent, below36 := x.below36,
      vin := x.vin, vtan := x.vtan }
  if warm then { base with bell := x.bell, degraded := x.degraded, tandem := x.tandem, totalLoss := x.tandem }
  else base

/-- The registers of AON that a warm reset keeps (R39, R302, and the PWR register tables). -/
def keptWarm (a : Nat) : Bool :=
  decide (R.STO_RETIRE 0 ≤ a ∧ a ≤ R.STO_RETIRE 15) || decide (R.FLT_CAP_INFO ≤ a ∧ a ≤ R.FLT_CAP_T1HI) ||
    decide (R.PWR_WAKE_REC ≤ a ∧ a ≤ R.PWR_RET_STATUS) || a == R.FLT_TEMP || a == R.EVQ_LOST

/-- What every reset leaves outside the hub: the flash, the OTP memory, the straps and waiting commands, and the model's
own counter. -/
def State.outside (s : State) (t : State) : State :=
  { t with pending := s.pending, free := s.free,
           nvm := { t.nvm with flash := s.nvm.flash, otp := s.nvm.otp, jedec := s.nvm.jedec },
           glb := { t.glb with straps := s.glb.straps } }

/-- Writes the start cause (R40); the port is 0xFF except for HRST_TANDEM. -/
def setCause (c port : Nat) (s : State) : State :=
  s.setReg R.GLB_RST_CAUSE (atBits 8 8 port ||| atBits 0 8 c)

/-- A cold reset with a cause (R25, R26, R40): every domain, TB3, retention memory and the capture are reset; the release
order starts. -/
def coldReset (cause : Nat) (s : State) : State :=
  let v := s.supplyNow
  let t : State := { feed := s.feedAfterReset false, pwr := { vaux := v }, glb := { phase := .ldos },
                     tim := { x32Rc := s.glb.straps.getLsbD 2 } }
  setCause cause 0xFF (s.outside t)

/-- The event queue through a warm reset: SEQ, the AON buffer and the count of the entries lost stay (R33). -/
def State.evqAfterWarm (s : State) : Evq :=
  { seq := s.evq.seq, aonBuf := s.evq.aonBuf, lostNext := s.evq.lostNext + (s.evq.held.map fun m => m.lost.getD 1).sum }

/-- TIME through a warm reset: TB3 runs on, the shadows stay for the re-advance (R313, R316). -/
def Tim.afterWarm (x : Tim) : Tim :=
  { tb3 := x.tb3, x32Phase := x.x32Phase, x32Rc := x.x32Rc, shadow0 := x.shadow0, shadow1 := x.shadow1,
    shadow3 := x.shadow3, tb0 := x.tb0, tb1 := x.tb1, readvance := true }

/-- The collector through a warm reset: the reset-loop count and the conditions stay, and a pulse runs on (R407, R409). -/
def Flt.afterWarm (x : Flt) : Flt :=
  { due := x.due, resets := x.resets, demoted := x.demoted, pulse := x.pulse, tempCrit := x.tempCrit, vinOv := x.vinOv,
    x24Stop := x.x24Stop, tempHigh := x.tempHigh }

/-- A warm reset with a cause (R25, R26, R40): every domain but HVS and AON; the image is loaded again. -/
def warmReset (cause : Nat) (s : State) : State :=
  let n := (s.evq.held.filter fun m => m.lost.isNone).length
  let s := evqCountLost n s
  let t : State :=
    { regs := s.regs.keep keptWarm, feed := s.feedAfterReset true, evq := s.evqAfterWarm, tim := s.tim.afterWarm,
      flt := s.flt.afterWarm, pwr := { vaux := s.pwr.vaux, rc8Run := s.pwr.rc8Run }, glb := { phase := .ldos } }
  feedSelect (setCause cause 0xFF (s.outside t))

/-- The hub has lost every supply (R52, R403): only what lies outside it stays. -/
def powerLost (s : State) : State :=
  s.outside { feed := { s.feedAfterReset false with sel := none, fa := {}, fb := {}, fc := {} } }

end Sys2Proof.Machine
end

