-- ==== Sys2Proof/Machine/Faults.lean ====
section
/-! DEFINITION. The fault collector (16_faults.md R404 to R412): capture, counters, reactions, class A, recovery. A meaning
that may raise a fault ends with `settle`, which collects what was raised. -/

namespace Sys2Proof.Machine

/-! ### Capture and counters (R410) -/

/-- The PORT of the capture and of the event: 31 and 0xFF stand for none. -/
def FaultDue.capPort (d : FaultDue) : Nat := match d.port with
  | some p => p.val
  | none => 31

def FaultDue.evPort (d : FaultDue) : Nat := match d.port with
  | some p => p.val
  | none => 255

/-- The first fault fills the capture; a later one is merged (R39, R410). -/
def faultCapture (d : FaultDue) (s : State) : State :=
  if s.rdB F.FLT_CAP_INFO_VALID then
    let s := s.bump F.FLT_CAP_INFO_MERGED
    s.wr F.FLT_CAP_INFO_MCLASS (s.rd F.FLT_CAP_INFO_MCLASS ||| 2 ^ d.src.cls)
  else
    let s := s.setReg R.FLT_CAP_INFO (atBits 31 1 1 ||| atBits 29 2 d.acc ||| atBits 25 4 d.req |||
      atBits 21 4 (2 ^ d.src.cls) ||| atBits 19 2 d.src.cls ||| atBits 14 5 d.capPort ||| atBits 8 6 d.src.code)
    let s := s.setReg R.FLT_CAP_ADDR (BitVec.ofNat 32 d.addr)
    let s := s.setReg R.FLT_CAP_T0S (BitVec.ofNat 32 s.tb0.sec)
    let s := s.setReg R.FLT_CAP_T0NS (BitVec.ofNat 32 s.tb0.ns)
    let s := s.setReg R.FLT_CAP_T1LO (BitVec.ofNat 32 s.tim.tb1.toNat)
    s.setReg R.FLT_CAP_T1HI (BitVec.ofNat 32 (s.tim.tb1.toNat / 2 ^ 32))

/-- The class counters, saturating (FLT_CNT). -/
def faultCount (d : FaultDue) (s : State) : State :=
  match d.src.cls with
  | 0 => s.bump F.FLT_CNT_AB_A_C
  | 1 => s.bump F.FLT_CNT_AB_B_D
  | 2 => s.bump F.FLT_CNT_CD_A_C
  | _ => s.bump F.FLT_CNT_CD_B_D

/-! ### Reactions (R405 to R407) -/

/-- Sources that carry a port (R404). -/
def FSrc.hasPort : FSrc → Bool
  | .convOn | .portLock | .vconnOc | .ccOvp | .sbuOvp | .pmbFaulty | .ttOverrun | .cadFailed | .cadLateError | .cadNoPages
  | .poisonTt | .poisonCad | .poisonPd | .ttNoPage => true
  | _ => false

/-- The code that takes effect (R405): 6 and 7 as 5, at least 2 for class A, 3 as 2 without a port. -/
def reactEffective (f : FSrc) (r : Nat) : Nat :=
  let r := if 5 < r then 5 else r
  let r := if f.cls = 0 ∧ r < 2 then 2 else r
  if r = 3 ∧ !f.hasPort then 2 else r

/-- The reaction chosen for a source in FLT_REACT. -/
def State.reaction (s : State) (f : FSrc) : Nat :=
  reactEffective f (bitsOf (s.reg (R.FLT_REACT (f.code / 8))) (4 * (f.code % 8)) 4)

/-- Warm resets by reactions within the last ten minutes (R407). -/
def State.recentResets (s : State) : List Nat := s.flt.resets.filter fun t => s.within t 600

/-- All-ports safe state: P0 to P15, PU, AX0 and AX1 trip (R405). -/
def safeStateAll (s : State) : State := forEach allPaths (fun x s => tripPath x .safeState .safeState s) s

/-- Code 5: a warm reset with cause FAULT_WARM, or code 4 once three happened within ten minutes (R407). -/
def reactWarm (d : FaultDue) (s : State) : State :=
  if 3 ≤ s.recentResets.length then
    let s := s.modFlt fun f => { f with demoted := true }
    safeStateAll (pushEvent 0x02 0xFF0B (BitVec.ofNat 32 d.src.code) s)
  else
    let now := s.tb3
    warmReset 9 (s.modFlt fun f => { f with resets := now :: s.recentResets })

/-- The fault's entry in the event queue (R405, R416). -/
def faultEvent (d : FaultDue) (s : State) : State :=
  pushEvent 0x02 (BitVec.ofNat 16 (0xFE00 + d.src.code)) (atBits 24 8 d.evPort ||| atBits 0 24 d.addr) s

/-- The port path of a source trips with cause "safe-state reaction" (R405). -/
def safeStatePort (d : FaultDue) (s : State) : State :=
  match d.port with
  | some p => pathTrip p .safeState s
  | none => s

/-- The reaction of a fault; each code includes the lower ones, 3 to 5 each include 2 (R405). -/
def faultReact (r : Nat) (d : FaultDue) (s : State) : State :=
  let s := if 1 ≤ r then faultEvent d s else s
  let s := if 2 ≤ r then s.modFlt fun f => { f with pulse := true } else s
  match r with
  | 3 => safeStatePort d s
  | 4 => safeStateAll s
  | 5 => reactWarm d s
  | _ => s

/-! ### Class A (R408, R411) -/

/-- A feed that is neither LOCKED nor DISABLED enters ABSENT, its pair off. -/
def FeedLine.classAOff (l : FeedLine) : FeedLine :=
  { l with st := if l.st == .locked || l.st == .disabled then l.st else .absent, gate := .off, rampEnded := false }

/-- Every feed pair off (R88, R408). -/
def feedsClassA (s : State) : State :=
  let s := s.modFeed fun x =>
    { x with fa := x.fa.classAOff, fb := x.fb.classAOff, fc := x.fc.classAOff, sel := none, switching := false,
             old := none, new_ := none, failed := none }
  bmRecompute (localTrack (rdTrack s))

/-- A class A fault: every path in RAMP, ON or LIMIT trips, every feed pair goes off, recovery begins (R408, R411). -/
def classAFault (s : State) : State :=
  let s := s.modFlt fun f => { f with recovery := true, releasing := false, release := [] }
  feedsClassA (forEach allPaths (fun x s => tripPath x .classA .safeState s) s)

/-! ### Collecting -/

/-- One fault: capture or merge, counter, class A effects, reaction (R405, R406). -/
def faultOne (d : FaultDue) (s : State) : State :=
  let r := s.reaction d.src
  let s := faultCount d (faultCapture d s)
  let s := if d.src.cls = 0 then classAFault s else s
  faultReact r d s

/-- The fault of the earliest class, lowest code first (R410). -/
def firstDue : List FaultDue → Option FaultDue
  | [] => none
  | d :: l => match firstDue l with
    | none => some d
    | some e => if e.src.code < d.src.code then some e else some d

/-- Collects every fault raised; faults that reactions raise follow. -/
def settleN : Nat → State → State
  | 0, s => s
  | n + 1, s =>
    match firstDue s.flt.due with
    | none => s
    | some d => settleN n (faultOne d (s.modFlt fun f => { f with due := f.due.erase d }))

/-- At most one lock of each path and each feed, and the faults of one command, can be due. -/
def settle (s : State) : State := settleN 200 s

/-! ### Recovery (R411, R412) -/

/-- Recovery's release order: AX0, AX1, then P0 to P15 and PU by priority and number (R412). -/
def State.releaseOrder (s : State) : List PathRef :=
  allAx.map .ax ++ ((List.range 8).flatMap fun k => (allPorts.filter fun p => s.prio p == k).map .port)

/-- The next path is released; the last ends recovery (R412). -/
def releaseNext (s : State) : State :=
  match s.flt.release with
  | [] => s
  | _ :: rest =>
    let s := s.modFlt fun f => { f with release := rest }
    let s := if rest.isEmpty then
        pushEvent 0x02 0xFF0C 0 (s.modFlt fun f => { f with recovery := false, releasing := false })
      else s
    ppKickAll s

/-- Releases every path that is due together (STAGGER 0). -/
def releaseAll : Nat → State → State
  | 0, s => s
  | n + 1, s => if s.flt.release.isEmpty then s else releaseAll n (releaseNext s)

/-- Recovery ends: releases begin, all together when STAGGER is 0 (R412). -/
def recoveryEnd (s : State) : State :=
  let s := s.modFlt fun f => { f with releasing := true, release := s.releaseOrder }
  if s.rd F.FLT_CFG_STAGGER = 0 then releaseAll 19 s else releaseNext s

end Sys2Proof.Machine
end

