-- ==== Sys2Proof/Machine/EvqCore.lean ====
section
/-! DEFINITION. Pops and the flush of the event queue (16_faults.md R417 to R419), and the poison of an entry
(11_central_store.md R297). -/

namespace Sys2Proof.Machine

/-- Pops of an empty queue block (R419). -/
def State.popBlocks (s : State) : Bool := s.glb.level != 2 || s.rdB F.GLB_TEST_EVQ_BLOCK || s.flt.recovery

/-- The words a pop that pops nothing returns (R419). -/
def noEntry (timeout : Bool) : List Word := [0, 0, 0, atBits 30 1 (b2n timeout)]

/-- The four words of an entry at store address `a`; a poisoned one is replaced, and keeps its SEQ (R297). -/
def evqEntryWords (a : Nat) (s : State) : List Word × State :=
  let r := storeReadWords 8 4 (a / 4) s
  if r.1.2 then
    let e : EvEntry := { source := 0x07, code := 0xFF05, detail := BitVec.ofNat 32 a, at_ := s.tb0 }
    let t := raiseFault { src := .poisonEvq, addr := 0x100000 + firstPoison s (a / 4) 4, req := 8, acc := 1 } r.2
    match evWords e with
    | w :: l => (evqSeqWord t w :: l, t)
    | [] => ([], t)
  else match r.1.1 with
    | w :: l => (evqSeqWord r.2 w :: l, r.2)
    | [] => ([], r.2)

/-- Pops the oldest entry, if there is one: its words, with SEQ assigned. -/
def evqTake (s : State) : Option (List Word) × State :=
  match s.evq.held with
  | [] => (none, s)
  | m :: _ =>
    let r := evqEntryWords m.addr s
    (some r.1, evqDropOldest r.2)

/-- A read of EVQ_POP on a path (R419): the words of the oldest entry, or of none; or it waits. -/
def evqPopRead (p : Path) (s : State) : Option (List Word) × State :=
  let r := evqTake s
  match r.1 with
  | some ws => (some ws, latchPop p ws r.2)
  | none =>
    if s.popBlocks then (none, r.2.modPath p fun x => { x with popWait := true })
    else (some (noEntry false), latchPop p (noEntry false) r.2)

/-- EVQ_CMD.FLUSH: every entry is discarded and counted as lost (R418). -/
def evqFlush (s : State) : State :=
  let n := (s.evq.held.map fun m => m.lost.getD 1).sum
  let ord := (s.evq.held.filter fun m => m.lost.isNone).length
  (evqOwe n (evqCountLost ord s)).modEvq fun q => { q with held := [] }

end Sys2Proof.Machine
end

