-- ==== Sys2Proof/Machine/StoAct.lean ====
section
/-! DEFINITION. What writes and reads of the STO block and of the store window do (11_central_store.md R289, R290, R299 to
R302). -/

namespace Sys2Proof.Machine

/-- The requester of a path (R27). -/
def pathReq : Path → Nat
  | .usb => 0
  | .i2c => 1
  | .loader => 6

/-- A read of the store window: the word and its poison (R289, R295, R296). -/
def windowRead (p : Path) (a : Nat) (s : State) : (Word × Bool) × State := storeRead (pathReq p) (a / 4) s

/-- A write of the store window; an armed flip of its path alters what is stored and disarms (R290, R301). -/
def windowWrite (p : Path) (a : Nat) (v : Word) (s : State) : State :=
  if s.sto.armed = some p then
    let d := s.reg R.STO_FLIP_D
    let c := BitVec.ofNat 7 (s.rd F.STO_FLIP_C_CHK)
    let s := s.setCell (a / 4) { data := v ^^^ d, dErr := d, cErr := c }
    raiseEvt0 R.STO_EVT 6 (s.modSto fun x => { x with armed := none })
  else storeWrite (a / 4) v false s

/-- STO_CMD.CLR_LOG (R299). -/
def stoClrLog (s : State) : State :=
  (forEach logEntries (fun k s => s.setReg (R.STO_ECCLOG k) 0) s).wr F.STO_STATUS_LOG_FULL 0

/-- STO_CMD.CLR_CNT (R299). -/
def stoClrCnt (s : State) : State := forEach [0, 1, 2, 3] (fun k s => s.setReg (R.STO_BANK k) 0) s

/-- A write of STO_CMD. -/
def stoCmd (v : Word) (s : State) : State :=
  let s := if bitOf v 0 then stoClrCnt s else s
  if bitOf v 1 then stoClrLog s else s

/-- A write of 1 to an ECC log entry's VALID clears the entry (R299). -/
def ecclogClear (k : Nat) (v : Word) (s : State) : State := if bitOf v 31 then s.setReg (R.STO_ECCLOG k) 0 else s

/-- STO_FLIP_C.ARM as written with the lockring open: 1 arms the path, 0 disarms; the loader arms nothing (R66, R301). -/
def flipArm (p : Path) (v : Word) (s : State) : State :=
  if p = .loader then s
  else if bitOf v 8 then
    (s.wr F.STO_FLIP_C_PATH (if p = .i2c then 1 else 0)).modSto fun x => { x with armed := some p }
  else s.modSto fun x => { x with armed := none }

/-- STO_RETIRE written with the lockring open: ones retire pages, zeros do nothing (R302). -/
def retireWrite (k : Nat) (v : Word) (s : State) : State :=
  s.setReg (R.STO_RETIRE k) (s.reg (R.STO_RETIRE k) ||| v)

/-- One slot of the patrol scrub (R300): a non-retired word is read for requester 7; the last word ends the pass. -/
def scrubSlot (s : State) : State :=
  let k := s.sto.scrubPos
  let s := if s.retired (k / 256) then s else (storeRead 7 k s).2
  if k + 1 < 131072 then s.modSto fun x => { x with scrubPos := k + 1 }
  else raiseEvt0 R.STO_EVT 3 ((s.bumpWrap F.STO_SCRUB_PASSES).modSto fun x => { x with scrubPos := 0 })

/-- The scrubber runs (R300). -/
def State.scrubs (s : State) : Bool := s.rdB F.STO_CFG_SCRUB_EN && s.sto.fillDone && s.coreUp

end Sys2Proof.Machine
end

