-- ==== Sys2Proof/Machine/PmbCore.lean ====
section
/-! DEFINITION. What the end of a PMBus transaction does (07_pmbus_link.md R203 to R214): confirmation and retries, targets
declared faulty, verification, alert service, the stuck bus, and software transactions. -/

namespace Sys2Proof.Machine

/-- PMB_EVT bits: FAULTY 0, VERIFIED 1, ALERT 2, ALERT_UNKNOWN 3, ALERT_STORM 4, STUCK 5, SW_DONE 6. -/
def pmbEvt (k : Nat) (detail : Word) (s : State) : State := raiseEvt R.PMB_EVT k detail s

def TgtCause.code : TgtCause → Nat
  | .none => 0 | .noAck => 1 | .pec => 2 | .status => 3 | .format => 4 | .noFeed => 5 | .vout => 6 | .timeout => 7
  | .busy => 8

def TgtState.code : TgtState → Nat
  | .absent => 0 | .unverified => 1 | .verified => 2 | .faulty => 3

/-! ### STATUS_WORD and voltages (R203, R204) -/

/-- The fault bits 15, 14, 13, 5, 4, 3 and 2 of STATUS_WORD (R204). -/
def statusFaults (v : BitVec 16) : BitVec 16 := v &&& 0xE03C

/-- No fault bit but INPUT (13) and VIN_UV (3). -/
def statusInputOnly (v : BitVec 16) : Bool := statusFaults v != 0 && v &&& 0xC034 == 0

/-- The exponent of VOUT_MODE when its format suits the target (R203): linear mode, and a range by class of port. -/
def voutExp (s : State) (t : Target) (mode : Nat) : Option Int :=
  let n := signed 5 (mode % 32)
  if mode / 32 % 8 ≠ 0 then none
  else if t.role.toNat < 16 then
    if h : t.role.toNat < 17 then
      if n ≤ -4 ∧ (if s.eprClass ⟨t.role.toNat, h⟩ then (-10 : Int) ≤ n else (-11 : Int) ≤ n) then some n else none
    else none
  else if -16 ≤ n ∧ n ≤ -8 then some n else none

/-- READ_VOUT in mV by a target's exponent. -/
def voutMv (t : Target) (w : Nat) : Nat := w * 1000 / 2 ^ (-(t.exp.getD 0)).toNat

/-- VOUT_COMMAND's word: round(V ÷ 2^N) (R203). -/
def voutWord (t : Target) (mv : Nat) : Nat := (mv * 2 ^ (-(t.exp.getD 0)).toNat + 500) / 1000

/-- READ_VOUT within `pct` percent of `mv` (R204). -/
def voutWithin (t : Target) (w mv pct : Nat) : Bool :=
  let d := 2 ^ (-(t.exp.getD 0)).toNat
  decide (mv * (100 - pct) * d ≤ w * 100000 ∧ w * 100000 ≤ mv * (100 + pct) * d)

/-! ### A target declared faulty (R205) -/

/-- The port of a converter. -/
def Target.port? (t : Target) : Option PortId := if h : t.role.toNat < 16 then some ⟨t.role.toNat, by omega⟩ else none

/-- The wire is free again. -/
def pmbFree (s : State) : State := s.modPmb fun p => { p with wire := none }

/-- Ended by a missing acknowledgement, a bad PEC counting as one (R200). -/
def TgtCause.missing : TgtCause → Bool
  | .noAck | .pec | .timeout => true
  | _ => false

/-- Target `i` is marked faulty (R205): state, cause and event, and the class B fault. A port converter that fails by missing
acknowledgement while no feed is ACTIVE takes cause NO_FEED and raises no fault; the VDDC regulator is a class A fault
(R210). -/
def pmbMark (i : Nat) (t : Target) (c : TgtCause) (s : State) : State :=
  let noFeed := t.port?.isSome && c.missing && !s.feedActive
  let c := if noFeed then .noFeed else c
  let s := pmbEvt 0 (atBits 28 4 c.code ||| atBits 0 5 i)
    (s.modTarget i fun t => { t with st := .faulty, cause := c, confirmed := 0 })
  if t.role.toNat = 0x20 then raiseAt .vddc none s
  else if noFeed then s else raiseAt .pmbFaulty t.port? s

/-- Declares target `i` faulty (R205): it is marked, its port takes the OFF condition and becomes sink-only, and Level 2 falls
to Level 1 for a REQUIRED one. -/
def pmbFaulty (i : Nat) (c : TgtCause) (s : State) : State :=
  match s.target? i with
  | none => s
  | some t =>
    let s := pmbMark i t c s
    let s := match t.port? with
      | some p => portSourceCheck p (ppOff p s)
      | none => s
    if t.required && t.port?.isSome then levelDown s else s

/-- A command ends with its target faulty, and what was raised with it goes no further; a shorted pass whose converter
cannot be confirmed off is a class A fault (R127). -/
def pmbFail (t : Txn) (c : TgtCause) (s : State) : State :=
  let s := s.modPmb fun p => { p with blocked := p.blocked.filter fun x => !(x.tgt == t.tgt && x.why == .pathOn && t.why == .pathOn) }
  let s := pmbFaulty t.tgt c s
  let s := if t.why = .shortedOff then raiseAt .convOn ((s.target? t.tgt).bind Target.port?) s else s
  pmbNext t.tgt s

/-- The command waits for its repeat, 100 µs later; the fourth failed attempt declares the target faulty (R204, R205). -/
def pmbRepeat (t : Txn) (c : TgtCause) (s : State) : State :=
  if 3 ≤ t.attempts then pmbFail t c s
  else pmbPump (s.modPmb fun p =>
    { p with delayed := p.delayed ++ [{ t with attempts := t.attempts + 1, phase := .send, late := false }] })

/-- The confirming read is made again without counting a repeat. -/
def pmbReread (t : Txn) (s : State) : State := pmbPump (s.modPmb fun p => { p with delayed := p.delayed ++ [t] })

/-! ### Verification (R206, R207) -/

/-- A target has been verified. -/
def pmbVerified (i : Nat) (s : State) : State :=
  pmbEvt 1 (atBits 0 5 i) (s.modTarget i fun t => { t with st := .verified, cause := .none, confirmed := 0 })

/-- The next step of a verification; the last one verifies the target. -/
def pmbVerifyNext (t : Txn) (k : Nat) (s : State) : State :=
  let conv := ((s.target? t.tgt).bind Target.port?).isSome
  match (if conv then verifyCmd (s.slewOf t.tgt) (k + 1) else none) with
  | some c => pmbIssue { cls := 5, tgt := t.tgt, cmd := c, why := .verify (k + 1) } s
  | none => pmbVerified t.tgt s

/-! ### Success (R204, R208, R178) -/

/-- A confirmed command takes its effect. -/
def pmbSucceed (t : Txn) (s : State) : State :=
  let s := match t.why, t.cmd with
    | .verify k, _ => pmbVerifyNext t k s
    | .pathOn, .opOn => s.modTarget t.tgt fun x => { x with confirmed := 5000 }
    | .cooldown5, .voutCommand mv => s.modTarget t.tgt fun x => { x with confirmed := mv }
    | .pdChange, .voutCommand mv =>
      let s := s.modTarget t.tgt fun x => { x with confirmed := mv }
      match (s.target? t.tgt).bind Target.port? with
      | some p => s.modPd p fun x => { x with trans := x.trans.map fun c => { c with commanded := true } }
      | none => s
    | _, _ => s
  pmbNext t.tgt s

/-! ### Alert service (R211) -/

/-- INPUT alone is excused while a switchover runs, within 10 ms after one, and in the tandem state (R211). -/
def State.inputExcused (s : State) : Bool :=
  s.feed.switching || s.feed.tandem ||
    (match s.feed.lastSwitch with
     | some t => decide ((s.tb3 - t) * 1000 ≤ 10 * 32768)
     | none => false)

/-- CLEAR_FAULTS to a serviced target. -/
def pmbClear (i : Nat) (s : State) : State := pmbRaise { cls := 4, tgt := i, cmd := .clearFaults, why := .alert } s

/-- What the STATUS_WORD of a target leads to in alert service (R211). -/
def alertAct (i : Nat) (v : BitVec 16) (s : State) : State :=
  match s.target? i with
  | none => s
  | some t =>
    let s := pmbEvt 2 (atBits 16 16 v.toNat ||| atBits 0 5 i) (s.modTarget i fun t => { t with status := v })
    if t.role.toNat = 0x20 then raiseAt .vddc none s
    else if t.port?.isSome then
      if statusFaults v = 0 then pmbClear i s
      else if statusInputOnly v && s.inputExcused then pmbClear i s
      else pmbFaulty i .status s
    else pmbClear i s

/-- A target polled during a storm is acted on when it shows a fault bit (R211). -/
def alertPolled (t : Txn) (v : BitVec 16) (s : State) : State :=
  let s := s.modTarget t.tgt fun x => { x with status := v }
  pmbNext t.tgt (if s.pmb.storms.isEmpty || statusFaults v != 0 then alertAct t.tgt v s else s)

/-- A round of alert service during a storm: the STATUS_WORD of every target that is not ignored, in index order (R211). -/
def alertRound (s : State) : State :=
  forEach (List.range s.pmb.targets.length) (fun i s =>
    match s.target? i with
    | some t =>
      if s.pmb.storms.contains t.addr then s
      else pmbRaise { cls := 4, tgt := i, cmd := .statusWord, why := .alert } s
    | none => s) s

/-- One service: the address read, its PEC, and the STATUS_WORD read after it (R211). -/
def alertServe (addr : BitVec 7) (pecOk : Bool) (ack : PmbAck) (status : BitVec 16) (s : State) : State :=
  let now := s.tb3
  let recent := (addr, now) :: s.pmb.responders.filter fun e => s.within e.2 1
  if !pecOk then pmbEvt 3 (atBits 8 1 1 ||| atBits 0 7 addr.toNat) s
  else
    let s := s.modPmb fun p => { p with responders := recent }
    if 8 < (recent.filter fun e => e.1 = addr).length then
      pmbEvt 4 (atBits 0 7 addr.toNat) (s.modPmb fun p => { p with storms := addr :: p.storms })
    else match s.pmb.targets.findIdx? fun t => t.addr = addr with
      | none => pmbEvt 3 (atBits 0 7 addr.toNat) s
      | some i =>
        if ack = .ok then alertAct i status s
        else
          -- the read is repeated under R204
          let s := if ack = .badPec then s.bump F.PMB_ERRCNT_PEC else s.bump F.PMB_ERRCNT_NAK
          pmbRaise { cls := 4, tgt := i, cmd := .statusWord, why := .alert, attempts := 1 } s

/-! ### Software transactions (R214) -/

/-- The command codes of R202. -/
def pmbCodes : List Nat := [0x01, 0x02, 0x03, 0x20, 0x21, 0x27, 0x79, 0x8B]

def swResult (r : Nat) (s : State) : State := s.wr F.PMB_SW_CTRL_RESULT r

/-- PMB_SW_CTRL.GO (R214): queued as class 6, refused while one is pending, or denied. -/
def pmbSwGo (s : State) : State :=
  let code := bitsOf (s.reg R.PMB_SW_CTRL) 8 8
  let i := s.rd F.PMB_SW_CTRL_INDEX
  let read := s.rdB F.PMB_SW_CTRL_READ
  let len := s.rd F.PMB_SW_CTRL_LEN
  if s.pmb.swBusy then swResult 4 s
  else match s.target? i with
    | none => swResult 3 s
    | some t =>
      if !pmbCodes.contains code ||
          (!read && code != 0x03 && (t.port?.isSome || t.role.toNat == 0x20)) then swResult 3 s
      else
        let cmd := .soft (BitVec.ofNat 8 code) read (BitVec.ofNat 2 len) (BitVec.ofNat 16 (s.rd F.PMB_SW_DATA_DATA))
        pmbRaise { cls := 6, tgt := i, cmd := cmd, why := .software } (s.modPmb fun p => { p with swBusy := true })

/-- What a read by software leaves in PMB_TST. -/
def swRecord (i code : Nat) (data : BitVec 16) (s : State) : State :=
  if code = 0x79 then s.modTarget i fun t => { t with status := data }
  else if code = 0x8B then s.modTarget i fun t => { t with vout := voutMv t data.toNat }
  else s

/-- A software transaction ends: neither repeated nor confirmed (R214). -/
def pmbSwDone (t : Txn) (ack : PmbAck) (data : BitVec 16) (s : State) : State :=
  let r := match ack with
    | .ok => 0
    | .badPec => 2
    | _ => 1
  let s := s.modPmb fun p => { p with swBusy := false }
  let s := match t.cmd with
    | .soft code true len _ =>
      if ack = .ok then
        let d := if len.toNat < 2 then data &&& 0xFF else data
        swRecord t.tgt code.toNat d (s.wr F.PMB_SW_DATA_DATA d.toNat)
      else s
    | _ => s
  pmbNext t.tgt (pmbEvt 6 (atBits 0 4 r) (swResult r s))

/-! ### The end of a transaction (R200, R204) -/

/-- The confirming reads and the reads that are commands are judged (R203, R204, R205). -/
def pmbJudge (t : Txn) (data : BitVec 16) (s : State) : State :=
  match s.target? t.tgt with
  | none => pmbPump s
  | some x =>
    match t.cmd with
    | .voutMode =>
      match voutExp s x (data.toNat % 256) with
      | some n => pmbSucceed t (s.modTarget t.tgt fun x => { x with exp := some n })
      | none => pmbFail t .format s
    | .readVout => pmbSucceed t (s.modTarget t.tgt fun x => { x with vout := voutMv x data.toNat })
    | .opOn =>
      let s := s.modTarget t.tgt fun x => { x with vout := voutMv x data.toNat }
      if voutWithin x data.toNat 5000 5 then pmbSucceed t s
      else if t.late then pmbFail t .vout s else pmbReread t s
    | c =>
      if t.why = .alert && c = .statusWord then alertPolled t data s
      else
        let s := s.modTarget t.tgt fun x => { x with status := data }
        if statusFaults data ≠ 0 then pmbFail t .status s
        else if data.getLsbD 7 then
          if 9 ≤ t.busyReads then pmbFail t .busy s else pmbReread { t with busyReads := t.busyReads + 1 } s
        else if data.getLsbD 1 then
          if 3 ≤ t.attempts then pmbFail t .status s
          else
            -- CLEAR_FAULTS goes out, then the command again
            pmbIssue { t with attempts := t.attempts + 1, phase := .clear } s
        else if c = .opOff && !data.getLsbD 6 then (if t.late then pmbFail t .status s else pmbReread t s)
        else pmbSucceed t s

/-- Commands that are reads have no confirmation of their own. -/
def PmbCmd.isRead : PmbCmd → Bool
  | .voutMode | .statusWord | .readVout => true
  | _ => false

/-- A missing acknowledgement, or what is treated as one, is counted; then the repeat. -/
def pmbMiss (t : Txn) (c : TgtCause) (s : State) : State :=
  let s := if c = .pec then s.bump F.PMB_ERRCNT_PEC else s.bump F.PMB_ERRCNT_NAK
  pmbRepeat t c s

/-- The transaction on the wire has ended (R204). -/
def pmbEnd (ack : PmbAck) (data : BitVec 16) (s : State) : State :=
  match s.pmb.wire with
  | none => s
  | some t =>
    let s := pmbFree s
    match t.cmd with
      | .soft _ _ _ _ =>
        let s := match ack with
          | .ok => s
          | .badPec => s.bump F.PMB_ERRCNT_PEC
          | _ => s.bump F.PMB_ERRCNT_NAK
        pmbSwDone t ack data s
      | _ =>
        if t.cut then pmbNext t.tgt s
        else if t.phase = .clear then pmbIssue { t with phase := .send } s
        else match ack with
          | .noAck => pmbMiss t .noAck s
          | .badPec => pmbMiss t .pec s
          | .stretched => pmbMiss t .timeout s
          | .ok =>
            if t.phase = .confirm || t.cmd.isRead then pmbJudge t data s
            else pmbIssue { t with phase := .confirm, since := s.tb3, late := false } s

/-! ### The stuck bus (R213) -/

/-- A line held low for 35 ms: recovery clocks, and after a further 35 ms STUCK, every port OFF and a class B fault. -/
def pmbBusHeld (s : State) : State :=
  if s.pmb.stuck then s
  else if s.pmb.recovering then
    let s := pmbEvt 5 0 (s.modPmb fun p => { p with stuck := true })
    raiseAt .pmbStuck none (forEach allPorts ppOff s)
  else s.modPmb fun p => { p with recovering := true }

/-- The bus is free again: STUCK clears and the ports restart. -/
def pmbBusFree (s : State) : State :=
  ppKickAll (pmbPump (s.modPmb fun p => { p with stuck := false, recovering := false }))

/-! ### Voltage slew (R208) -/

/-- VOUT_TRANSITION_RATE after a committed change of PD_TRANS.SLEW; after PS_RDY when a voltage change runs (R208). -/
def pmbSlew (p : PortId) (s : State) : State :=
  if (s.port p).pd.trans.isSome then s.modPd p fun x => { x with slewPend := true }
  else if s.convVerified p then
    match s.conv p with
    | some i =>
      pmbRaise { cls := 3, tgt := i, cmd := .transitionRate (s.slewOf i), why := .slew }
        (s.modPd p fun x => { x with slewPend := false })
    | none => s
  else s

/-- A write of PMB_VERIFY (R207). -/
def pmbVerifyBits (v : Word) (s : State) : State :=
  forEach ((List.range 24).filter fun k => bitOf v k) pmbVerify s

end Sys2Proof.Machine
end

