-- ==== Sys2Proof/Machine/EfnCore.lean ====
section
/-! DEFINITION. The carving of the endpoint buffers and the rings they hold (10_embedded_function.md R265, R267 to R274). -/

namespace Sys2Proof.Machine

/-! ### The carving (R267 to R270) -/

/-- BASE and SIZE of the seven buffers, in 64-byte units. -/
abbrev Carving := List (Nat × Nat)

/-- The pages a buffer touches. -/
def bufPages (b : Nat × Nat) : List Nat :=
  if b.2 = 0 then [] else (List.range ((b.1 + b.2 - 1) / 16 - b.1 / 16 + 1)).map (· + b.1 / 16)

/-- SIZE 2 to 16 for EP0, 8 to 256 for a bulk buffer (R267). -/
def carveSizeBad (e : Nat) (b : Nat × Nat) : Bool :=
  if e = 0 then !decide (2 ≤ b.2 ∧ b.2 ≤ 16) else !decide (8 ≤ b.2 ∧ b.2 ≤ 256)

def carveOverlap (a b : Nat × Nat) : Bool := decide (a.1 < b.1 + b.2 ∧ b.1 < a.1 + a.2)

/-- Buffer `e` overlaps another. -/
def carveOverlapBad (c : Carving) (e : Nat) (b : Nat × Nat) : Bool :=
  (List.range c.length).any fun k => k != e && carveOverlap b (c.getD k (0, 0))

/-- The first buffer that breaks a rule. -/
def carveFirst (c : Carving) (bad : Nat → Nat × Nat → Bool) : Option Nat :=
  (List.range c.length).find? fun e => bad e (c.getD e (0, 0))

/-- The result code of the first rule of R267 broken and the first buffer that breaks it: 2 SIZE, 3 OVERLAP,
4 OUTSIDE_REGION, 5 RETIRED_PAGE. -/
def carveCheck (pages : Nat) (retired : Nat → Bool) (c : Carving) : Option (Nat × Nat) :=
  match carveFirst c carveSizeBad with
  | some e => some (2, e)
  | none =>
    match carveFirst c (carveOverlapBad c) with
    | some e => some (3, e)
    | none =>
      match carveFirst c fun _ b => decide (pages * 16 < b.1 + b.2) with
      | some e => some (4, e)
      | none =>
        match carveFirst c fun _ b => (bufPages b).any retired with
        | some e => some (5, e)
        | none => none

def epList : List (Fin 7) := List.finRange 7

/-- The staged carving, and the carving in effect. -/
def State.staged (s : State) : Carving :=
  (List.range 7).map fun e => (s.rd (F.EFN_EP_BASE_BASE e), s.rd (F.EFN_EP_SIZE_SIZE e))
def State.act (s : State) : Carving :=
  (List.range 7).map fun e => (s.rd (F.EFN_EP_BASE_ACT e), s.rd (F.EFN_EP_SIZE_ACT e))

/-- An ACT buffer touches a retired page (R270). -/
def State.retiredInUse (s : State) : Bool := s.act.any fun b => (bufPages b).any s.retired

/-- Pages of the EFN region that the ACT carving touches (R291). -/
def State.efnUsed (s : State) : List Nat := (s.act.flatMap bufPages).dedup

def State.modEp (s : State) (e : Fin 7) (f : EpBuf → EpBuf) : State :=
  s.modEfn fun x => { x with eps := x.eps.set e (f x.eps[e]) }

def State.ep (s : State) (e : Fin 7) : EpBuf := s.efn.eps[e]

/-- A buffer is emptied. -/
def epEmpty (e : Fin 7) (s : State) : State :=
  let s := s.modEp e fun b => { b with fill := 0, rd := 0, xfers := [], part := 0, more := false, sent := none }
  if e = 5 then s.modCad fun c => { c with ep3Sent := [] } else s

/-- The staged values of a buffer become its ACT values; a changed buffer is emptied (R269). -/
def carveTake (e : Fin 7) (s : State) : State :=
  let b := s.rd (F.EFN_EP_BASE_BASE e)
  let z := s.rd (F.EFN_EP_SIZE_SIZE e)
  if b = s.rd (F.EFN_EP_BASE_ACT e) ∧ z = s.rd (F.EFN_EP_SIZE_ACT e) then s
  else epEmpty e ((s.wr (F.EFN_EP_BASE_ACT e) b).wr (F.EFN_EP_SIZE_ACT e) z)

/-- EFN_CARVE's RESULT and BAD_E; every result but OK queues CARVE_FAIL (R269). -/
def carveResult (r e : Nat) (s : State) : State :=
  let s := (s.wr F.EFN_CARVE_RESULT r).wr F.EFN_CARVE_BAD_E e
  if r = 0 then s else efnEvt 0 s

/-- EFN_CARVE.APPLY (R269). At Level 0 the rules apply to buffers 0 to 2 only (R267). -/
def carveApply (s : State) : State :=
  if s.efn.st == .configured then carveResult 1 0 s
  else
    let c := if s.glb.level = 0 then s.staged.take 3 else s.staged
    match carveCheck (s.rgnCount 0) s.retired c with
    | some (r, e) => carveResult r e s
    | none => carveResult 0 0 (forEach epList carveTake s)

/-- The carving of an image's REGION_MAP, or of a start without one, comes into force (R268). -/
def carveSet (c : Carving) (s : State) : State :=
  forEach epList (fun e s =>
    let b := c.getD e.val (0, 0)
    let s := (s.wr (F.EFN_EP_BASE_BASE e) b.1).wr (F.EFN_EP_SIZE_SIZE e) b.2
    (s.wr (F.EFN_EP_BASE_ACT e) b.1).wr (F.EFN_EP_SIZE_ACT e) b.2) s

/-! ### The rings (R271, R272) -/

/-- First store byte and size in bytes of a buffer. -/
def State.epBase (s : State) (e : Fin 7) : Nat := s.rd (F.EFN_EP_BASE_ACT e) * 64
def State.epSize (s : State) (e : Fin 7) : Nat := s.rd (F.EFN_EP_SIZE_ACT e) * 64

/-- Unused space. -/
def State.epFree (s : State) (e : Fin 7) : Nat := s.epSize e - (s.ep e).fill

/-- Appends bytes to a ring, as requester 0 (R27). -/
def epPut (e : Fin 7) (l : List Byte) (s : State) : State :=
  let n := s.epSize e
  let b := s.ep e
  if n = 0 then s
  else
    let at_ := (b.rd + b.fill) % n
    let k := min l.length (n - at_)
    let s := storeBytes 0 (l.length + 1) (s.epBase e + at_) (l.take k) s
    let s := storeBytes 0 (l.length + 1) (s.epBase e) (l.drop k) s
    s.modEp e fun b => { b with fill := b.fill + l.length }

/-- Reads `n` bytes of a ring, `off` past its oldest; and whether a word was poisoned. -/
def epPeek (e : Fin 7) (off n : Nat) (s : State) : (List Byte × Bool) × State :=
  let z := s.epSize e
  if z = 0 then (([], false), s)
  else
    let at_ := ((s.ep e).rd + off) % z
    let k := min n (z - at_)
    let r := storeReadBytes 0 (s.epBase e + at_) k s
    if n ≤ k then r
    else
      let t := storeReadBytes 0 (s.epBase e) (n - k) r.2
      ((r.1.1 ++ t.1.1, r.1.2 || t.1.2), t.2)

/-- The store byte address of the byte `off` past the oldest. -/
def State.epAddr (s : State) (e : Fin 7) (off : Nat) : Nat :=
  let z := s.epSize e
  s.epBase e + (if z = 0 then 0 else ((s.ep e).rd + off) % z)

/-- Frees the oldest `n` bytes. -/
def epDrop (e : Fin 7) (n : Nat) (s : State) : State :=
  let z := s.epSize e
  s.modEp e fun b => { b with rd := if z = 0 then 0 else (b.rd + n) % z, fill := b.fill - n }

/-- The largest packet of a bulk endpoint at the hub's speed (R265). -/
def State.maxPacket (s : State) : Nat := if s.hub.speed == .high then 512 else 64

/-- A whole transfer is placed in an IN ring where it fits; whether it did. -/
def epQueueIn (e : Fin 7) (l : List Byte) (s : State) : Bool × State :=
  if s.epFree e < l.length then (false, s)
  else (true, (epPut e l s).modEp e fun b => { b with xfers := b.xfers ++ [l.length] })

end Sys2Proof.Machine
end

