-- ==== Sys2Proof/Machine/Slot.lean ====
section
/-! DEFINITION. The validation of a flash slot (02_startup_and_image.md R57 to R68): header, CRC, signature, the structure of
the records and the semantic rules, with the slot-result codes. -/

namespace Sys2Proof.Machine

/-! ### The flash and the OTP words -/

/-- A byte that was never programmed, or that no device drives, reads 0xFF (R487). -/
def flashReset (_ : Nat) : Byte := 0xFF

def State.flashByte (s : State) (a : Nat) : Byte := s.nvm.flash.get flashReset (a % 2 ^ 24)
def State.flashBytes (s : State) (a n : Nat) : List Byte := (List.range n).map fun k => s.flashByte (a + k)

/-- A blank OTP word is 0; word 17 is programmed by Laritu (R68). -/
def otpReset (k : Nat) : Word := if k = 17 then Config.recovFactory else 0

def State.otpWord (s : State) (k : Nat) : Word := s.nvm.otp.get otpReset (k % 64)

def State.signedMode (s : State) : Bool := bitOf (s.otpWord 0) 0
def State.otpLocked (s : State) : Bool := bitOf (s.otpWord 0) 3
def State.keyRevoked (s : State) (k : Nat) : Bool := bitOf (s.otpWord 0) (1 + k)

/-- The 32 bytes of KEY0_HASH or KEY1_HASH (R68). -/
def State.keyHash (s : State) (k : Nat) : List Byte := (List.range 8).flatMap fun j => wordBytes (s.otpWord (1 + 8 * k + j))

/-- The VDDC regulator's address; a blank word means 0x20 (R68). -/
def State.vddcAddr (s : State) : Nat := let v := bitsOf (s.otpWord 19) 0 7; if s.otpWord 19 = 0 then 0x20 else v

/-- The recovery identity: VID and PID (R69). -/
def State.recovery (s : State) : BitVec 16 × BitVec 16 :=
  let w := if s.otpWord 18 ≠ 0 then s.otpWord 18 else s.otpWord 17
  (BitVec.ofNat 16 (bitsOf w 0 16), BitVec.ofNat 16 (bitsOf w 16 16))

def slotBase : Slot → Nat
  | .a => 0
  | .b => 0x080000

/-- The flash a slot occupies (R57). -/
def slotSize : Slot → Nat
  | .a => 0x080000
  | .b => 0x07F000

/-! ### The header (R58) -/

/-- Results 1 to 4 in the order magic, FMT_MAJOR, COMPAT_LEVEL, LENGTH; a reserved bit set in the header counts with the
last. 0: the header obeys R58. -/
def headerResult (h : List Byte) : Nat :=
  if h.take 4 ≠ [0x45, 0x4A, 0x43, 0x46] then 1
  else if leAt h 4 1 ≠ 1 then 2
  else if leAt h 6 1 ≠ 1 then 3
  else
    let n := leAt h 8 4
    if n % 4 ≠ 0 ∨ n < 32 ∨ 262144 < n then 4
    else if 2 ≤ leAt h 7 1 ∨ leAt h 20 4 ≠ 0 ∨ leAt h 24 4 ≠ 0 ∨ leAt h 28 4 ≠ 0 then 4
    else 0

def State.header (s : State) (x : Slot) : List Byte := s.flashBytes (slotBase x) 32
def State.headerOk (s : State) (x : Slot) : Bool := headerResult (s.header x) == 0
/-- LENGTH and SEQ of a slot. -/
def State.slotLen (s : State) (x : Slot) : Nat := leAt (s.header x) 8 4
def State.slotSeq (s : State) (x : Slot) : Nat := leAt (s.header x) 12 4

/-- The candidates in the order of R60. -/
def State.slotOrder (s : State) : List Slot :=
  match s.headerOk .a, s.headerOk .b with
  | true, true =>
    let d := (s.slotSeq .b + 2 ^ 32 - s.slotSeq .a) % 2 ^ 32
    if 1 ≤ d ∧ d ≤ 2 ^ 31 - 1 then [.b, .a] else [.a, .b]
  | false, true => [.b, .a]
  | _, _ => [.a, .b]

/-- The CRC over bytes 0 to 15 and 20 to LENGTH − 1 (R58). -/
def imageCrc (l : List Byte) : Word := crc32 (l.take 16 ++ l.drop 20)

/-! ### The signature (R67) -/

/-- 7 when the key is revoked, 6 for any other failure, 0 when the signature verifies. `l` is the image and the 136 bytes
that follow it. -/
def signatureResult (s : State) (l : List Byte) (len : Nat) : Nat :=
  let b := l.drop len
  let key := leAt b 4 1
  if leAt l 7 1 ≠ 1 ∨ b.take 4 ≠ [0x45, 0x4A, 0x53, 0x47] ∨ leAt b 5 3 ≠ 0 ∨ 1 < key then 6
  else if s.keyRevoked key then 7
  else if sha256 (slice b 8 64) ≠ s.keyHash key then 6
  else if ecdsaVerify (beAt b 8 32, beAt b 40 32) (beAt b 72 32) (beAt b 104 32) (sha256 (l.take len)) then 0
  else 6

/-! ### Records (R61, R62) -/

/-- One record: kind, CRITICAL, and the value. -/
structure Rec where
  kind : Nat
  critical : Bool
  value : List Byte
  deriving DecidableEq, Repr

/-- The next record of the bytes left, and what follows it; none where it extends past the image or its padding is not 0. -/
def recNext (l : List Byte) : Option (Rec × List Byte) :=
  let t := leAt l 0 2
  let n := leAt l 2 2
  let z := (n + 3) / 4 * 4
  if l.length < 4 + z then none
  else if (slice l (4 + n) (z - n)).any (· ≠ 0) then none
  else some ({ kind := t % 0x8000, critical := t.testBit 15, value := slice l 4 n }, l.drop (4 + z))

/-- The value cut into entries of `n` bytes. -/
def chunks (n : Nat) (l : List Byte) : List (List Byte) := (List.range (l.length / n)).map fun k => slice l (n * k) n

/-- Addresses that make a preload record malformed: the store window, the NVM block, GLB_COMMIT, GLB_COMMIT_AT, GLB_RESET,
GLB_LOCKRING and EVQ_POP (R66). -/
def preloadForbidden (a : Nat) : Bool :=
  decide (0x100000 ≤ a ∧ a < 0x180000) || decide (R.NVM_CMD ≤ a ∧ a < R.NVM_CMD + 0x1000) ||
    a == R.GLB_COMMIT || a == R.GLB_COMMIT_AT || a == R.GLB_RESET || a == R.GLB_LOCKRING || a == R.EVQ_POP

/-- The lengths of the three strings of USB_DESC fill the value; UTF-16LE takes an even number of bytes. -/
def stringsFit : Nat → List Byte → Bool
  | 0, l => l.isEmpty
  | _, [] => false
  | n + 1, b :: l => decide (b.toNat ≤ l.length) && decide (b.toNat % 2 = 0) && stringsFit n (l.drop b.toNat)

/-- Length and reserved fields of a known kind (R62); a preload of a forbidden address is malformed (R66). -/
def recSound (r : Rec) : Bool :=
  let v := r.value
  match r.kind with
  | 1 | 2 => v.length % 12 == 0 && (chunks 12 v).all fun e => leAt e 3 1 == 0 && !preloadForbidden (leAt e 0 4)
  | 3 => decide (8 ≤ v.length) && v.length == 8 + 4 * (leAt v 4 1 + leAt v 5 1) && decide (leAt v 0 4 < 2 ^ 17) && leAt v 6 2 == 0
  | 4 => v.length % 8 == 0 && (chunks 8 v).all fun e => decide (leAt e 2 2 < 16)
  | 5 => v.length % 36 == 0 && (chunks 36 v).all fun e => (chunks 4 (e.drop 4)).all fun b => leAt b 3 1 == 0
  | 6 => v.length == 12 && decide (leAt v 0 1 < 64) && decide (leAt v 1 1 < 64) && leAt v 9 3 == 0
  | 7 => decide (4 ≤ v.length) && v.length == 4 + 4 * leAt v 1 1 && leAt v 2 2 == 0 &&
      (chunks 4 (v.drop 4)).all fun e => decide (leAt e 0 1 < 128) && decide (leAt e 2 1 < 2) && leAt e 3 1 == 0
  | 8 => v.length == 8 && leAt v 5 3 == 0
  | 9 => decide (8 ≤ v.length) && decide (leAt v 6 2 < 4) && stringsFit 3 (v.drop 8)
  | 10 => v.length == 40
  | 11 => decide (4 ≤ v.length) && v.length % 4 == 0 && decide (v.length ≤ 260) && leAt v 0 4 == 0
  | _ => true

/-- The records of the image from offset 32, or the result of the first faulty one: 9 malformed, 8 unknown and critical
(R59). -/
def recsOf : Nat → List Byte → Except Nat (List Rec)
  | 0, _ => .ok []
  | n + 1, l =>
    if l.isEmpty then .ok []
    else match recNext l with
      | none => .error 9
      | some (r, l) =>
        if !(decide (1 ≤ r.kind ∧ r.kind ≤ 11)) && r.critical then .error 8
        else if !recSound r then .error 9
        else match recsOf n l with
          | .ok t => .ok (r :: t)
          | .error e => .error e

/-! ### Semantic rules (R62, R116, R117, R121, R201, R248, R268) -/

def recsOfKind (k : Nat) (l : List Rec) : List Rec := l.filter fun r => r.kind == k

/-- Every entry of every record of a kind. -/
def entriesOf (k n : Nat) (l : List Rec) : List (List Byte) := (recsOfKind k l).flatMap fun r => chunks n r.value

/-- The last PORT_POLICY entry of a port. -/
def policyOf (l : List Rec) (p : Nat) : Option (List Byte) := (entriesOf 4 8 l).reverse.find? fun e => leAt e 0 1 == p

/-- EPR_CLASS of a port at the end of the image. -/
def imgEprClass (l : List Rec) (p : Nat) : Bool :=
  match policyOf l p with
  | some e => (leAt e 2 2).testBit 1
  | none => false

/-- The counts of a PDO_TABLE record, EPR entries on EPR-class ports only (R62), and the entries (R168). -/
def pdoTableOk (l : List Rec) (v : List Byte) : Bool :=
  let n := leAt v 4 1
  let e := leAt v 5 1
  let pdos := bytesWords (n + e) (v.drop 8)
  tableOk (pdos.take n) (pdos.drop n) &&
  decide (1 ≤ n ∧ n ≤ 7) && decide (e ≤ 4) &&
    (e == 0 || (List.range 16).all fun p => !(leAt v 0 4).testBit p || imgEprClass l p)

def policyOk (e : List Byte) : Bool :=
  let w := leAt e 4 2
  decide (leAt e 0 1 ≤ 16) && decide (leAt e 1 1 ≤ 7) && decide (1 ≤ w ∧ w ≤ 240) &&
    decide (5 ≤ leAt e 6 1 ∧ leAt e 6 1 ≤ 100) && (decide (w ≤ 100) || (leAt e 2 2).testBit 1) &&
    decide (leAt e 7 1 % 16 ≤ 9)

def curveOk (e : List Byte) : Bool :=
  let t := leAt e 0 1
  (decide (t ≤ 16) || decide (32 ≤ t ∧ t ≤ 35)) && decide (8 ≤ leAt e 1 1 ∧ leAt e 1 1 ≤ 16) &&
    (chunks 4 (e.drop 4)).all fun b => decide (leAt b 2 1 ≤ 96)

/-- PRIO names three different feeds (R62, R102). -/
def prioOk (v : Nat) : Bool :=
  let a := v % 4
  let b := v / 4 % 4
  let c := v / 16 % 4
  a != 3 && b != 3 && c != 3 && a != b && b != c && a != c

def feedPolicyOk (v : List Byte) : Bool :=
  prioOk (leAt v 0 1) && decide (leAt v 2 1 ≤ 74) && decide (10 ≤ leAt v 3 1 ∧ leAt v 3 1 ≤ 250) &&
    decide (leAt v 4 2 ≤ 3840) && decide (1 ≤ leAt v 6 1 ∧ leAt v 6 1 ≤ 25) &&
    decide (1 ≤ leAt v 7 1 ∧ leAt v 7 1 ≤ 25) && decide (1 ≤ leAt v 8 1 ∧ leAt v 8 1 ≤ 50)

/-- A role of the map: a converter of P0 to P15, VDDC, or 0x30 to 0x36. -/
def roleOk (r : Nat) : Bool := decide (r < 16) || r == 0x20 || decide (0x30 ≤ r ∧ r ≤ 0x36)

/-- An address a target may have (R201). -/
def pmbAddrOk (a : Nat) : Bool := decide (8 ≤ a) && a != 0x0C && decide (a < 0x78)

def pmbMapOk (s : State) (v : List Byte) : Bool :=
  let es := chunks 4 (v.drop 4)
  let addrs := es.map fun e => leAt e 0 1
  let ports := (es.map fun e => leAt e 1 1).filter fun r => decide (r < 16)
  let vddc := es.filter fun e => leAt e 1 1 == 0x20
  decide (leAt v 0 1 ≤ 2) && decide (1 ≤ leAt v 1 1 ∧ leAt v 1 1 ≤ 24) &&
    (es.all fun e => roleOk (leAt e 1 1) && pmbAddrOk (leAt e 0 1)) &&
    addrs.dedup.length == addrs.length && ports.dedup.length == ports.length &&
    (vddc.map fun e => leAt e 0 1) == [s.vddcAddr]

def cadenceOk (v : List Byte) : Bool :=
  leAt v 0 2 != 0 && leAt v 0 2 != 0xFFFF && decide (leAt v 2 1 ≤ 2) && decide (1 ≤ leAt v 3 1 ∧ leAt v 3 1 ≤ 2) &&
    decide (1 ≤ leAt v 4 1 ∧ leAt v 4 1 ≤ 64)

/-- String byte counts of USB_DESC are at most 126. -/
def stringsOk : Nat → List Byte → Bool
  | n + 1, b :: l => decide (b.toNat ≤ 126) && stringsOk n (l.drop b.toNat)
  | _, _ => true

/-- Pages retired now, or by the image's own preloads (R268). -/
def imgRetired (s : State) (l : List Rec) (p : Nat) : Bool :=
  s.retired p || (entriesOf 2 12 l).any fun e =>
    leAt e 0 4 == R.STO_RETIRE (p / 32) && (leAt e 4 4).testBit (p % 32) && (leAt e 8 4).testBit (p % 32)

/-- The carving of a REGION_MAP record. -/
def imgCarving (v : List Byte) : Carving := (chunks 4 (v.drop 12)).map fun e => (leAt e 0 2, leAt e 2 2)

def regionCounts (v : List Byte) : List Nat := (chunks 2 (v.take 12)).map fun e => leNat e

def regionMapOk (s : State) (l : List Rec) (v : List Byte) : Bool :=
  let c := regionCounts v
  decide (c.sum ≤ 512) && decide (16 ≤ c.getD 4 0) && decide (48 ≤ c.getD 1 0) &&
    (carveCheck (c.getD 0 0) (imgRetired s l) (imgCarving v)).isNone

/-- A preload of AXn_CTRL.RETRY leaves a backoff code of at most 9 (R121). -/
def axPreloadOk (s : State) (e : List Byte) : Bool :=
  [R.AX0_CTRL, R.AX1_CTRL].all fun a => leAt e 0 4 != a ||
    decide (bitsOf ((s.reg a &&& ~~~ BitVec.ofNat 32 (leAt e 4 4)) |||
      (BitVec.ofNat 32 (leAt e 8 4) &&& BitVec.ofNat 32 (leAt e 4 4))) 0 4 ≤ 9)

/-- The semantic rules of one record. -/
def recOk (s : State) (l : List Rec) (r : Rec) : Bool :=
  let v := r.value
  match r.kind with
  | 1 | 2 => (chunks 12 v).all (axPreloadOk s)
  | 3 => pdoTableOk l v
  | 4 => (chunks 8 v).all policyOk
  | 5 => (chunks 36 v).all curveOk
  | 6 => feedPolicyOk v
  | 7 => pmbMapOk s v
  | 8 => cadenceOk v
  | 9 => stringsOk 3 (v.drop 8)
  | 10 => regionMapOk s l v
  | _ => true

/-- Kinds that occur exactly once, and kinds that occur at most once. -/
def countsOk (l : List Rec) : Bool :=
  ([7, 9].all fun k => (recsOfKind k l).length == 1) &&
    [6, 8, 10, 11].all fun k => decide ((recsOfKind k l).length ≤ 1)

/-! ### The whole slot (R59) -/

/-- The image of a slot and its signature block. -/
def State.slotBytes (s : State) (x : Slot) : List Byte := s.flashBytes (slotBase x) (s.slotLen x + 136)

/-- Header and CRC (R59 steps 1 and 2). -/
def slotCheck1 (s : State) (x : Slot) : Nat :=
  let h := headerResult (s.header x)
  if h ≠ 0 then h
  else
    let l := (s.slotBytes x).take (s.slotLen x)
    if (imageCrc l).toNat ≠ leAt l 16 4 then 5 else 0

/-- The signature in signed-image mode (step 3). -/
def slotCheck2 (s : State) (x : Slot) : Nat :=
  if s.signedMode then signatureResult s (s.slotBytes x) (s.slotLen x) else 0

def State.slotRecs (s : State) (x : Slot) : Except Nat (List Rec) :=
  recsOf (s.slotLen x) (((s.slotBytes x).take (s.slotLen x)).drop 32)

/-- The records (steps 4 and 5). -/
def slotCheck3 (s : State) (x : Slot) : Nat :=
  match s.slotRecs x with
  | .error e => e
  | .ok l => if countsOk l && l.all (recOk s l) then 0 else 10

/-- The slot result (R59). -/
def slotResult (s : State) (x : Slot) : Nat :=
  if slotCheck1 s x ≠ 0 then slotCheck1 s x
  else if slotCheck2 s x ≠ 0 then slotCheck2 s x
  else slotCheck3 s x

end Sys2Proof.Machine
end

