-- ==== Sys2Proof/Machine/NvmCore.lean ====
section
/-! DEFINITION. The flash and OTP operations of the NVM block, and the Hard Reset cause area (02_startup_and_image.md R54 to
R57, R69, R72, R73, R487). -/

namespace Sys2Proof.Machine

/-! ### Changing the flash -/

/-- Programming clears bits, as NOR flash does. -/
def flashProgram (a : Nat) : List Byte → SMap Byte → SMap Byte
  | [], m => m
  | b :: l, m => flashProgram (a + 1) l (m.set flashReset a (m.get flashReset a &&& b))

/-- Erased bytes read 0xFF. -/
def flashErase (a n : Nat) (m : SMap Byte) : SMap Byte := m.keep fun k => !decide (a ≤ k ∧ k < a + n)

def State.modFlash (s : State) (f : SMap Byte → SMap Byte) : State := s.modNvm fun n => { n with flash := f n.flash }

/-! ### The cause area (R54 to R57) -/

def causeBase : Nat := 0x0FF000

def State.causeByte (s : State) (k j : Nat) : Byte := s.flashByte (causeBase + 16 * k + j)

/-- The lowest place whose first byte reads 0xFF (R56). -/
def State.causeBlank (s : State) : Option Nat := (List.range 256).find? fun k => s.causeByte k 0 == 0xFF

/-- Places used (R55). -/
def State.causeUsed (s : State) : Nat := ((List.range 256).filter fun k => s.causeByte k 0 != 0xFF).length

/-- The highest place whose MAGIC is "EJHR" (R56). -/
def State.causeNewest (s : State) : Option Nat :=
  (List.range 256).reverse.find? fun k => s.flashBytes (causeBase + 16 * k) 4 == [0x45, 0x4A, 0x48, 0x52]

/-- The place of a new record: the newest one whose CONSUMED byte is 0xFF. -/
def State.causeRecord (s : State) : Option Nat :=
  match s.causeNewest with
  | some k => if s.causeByte k 5 == 0xFF then some k else none
  | none => none

/-- The 16 bytes of a record (R54). -/
def causeBytes (p : PortId) (sec : Nat) : List Byte :=
  [0x45, 0x4A, 0x48, 0x52, BitVec.ofNat 8 p.val, 0xFF, 0xFF, 0xFF] ++ leBytes 4 sec ++ [0xFF, 0xFF, 0xFF, 0xFF]

/-- The waiting record is programmed into the lowest blank place; with none left nothing is written (R54, R56). -/
def causeProgram (s : State) : State :=
  match s.nvm.causePend with
  | none => s
  | some p =>
    let s := match s.causeBlank with
      | some k => s.modFlash (flashProgram (causeBase + 16 * k) (causeBytes p s.tb0.sec))
      | none => s
    s.modNvm fun n => { n with causePend := none }

/-- CONSUMED is programmed to 0x00 (R55). -/
def causeConsume (k : Nat) (s : State) : State := s.modFlash (flashProgram (causeBase + 16 * k + 5) [0])

/-! ### Operations (R72, R73, R487) -/

def nvmResult (r : Nat) (s : State) : State := s.wr F.NVM_STATUS_RESULT r

/-- NVM_STATUS.BUSY (R55, R73). -/
def State.nvmBusy (s : State) : Bool := s.nvm.op.isSome || s.nvm.causeErase

/-- Whether any byte of a range lies in the active slot (R72). -/
def State.inActive (s : State) (a n : Nat) : Bool :=
  match s.nvm.active with
  | some x => decide (a < slotBase x + slotSize x ∧ slotBase x < a + n)
  | none => false

/-- NVM_BUF as bytes. -/
def State.nvmBuf (s : State) : List Byte := wordsBytes ((List.range 64).map fun k => s.reg (R.NVM_BUF k))

/-- Writes the first bytes of NVM_BUF. -/
def nvmBufSet (l : List Byte) (s : State) : State :=
  let ws := bytesWords 64 (l ++ s.nvmBuf.drop l.length)
  forEach (List.range 64) (fun k s => s.setReg (R.NVM_BUF k) (ws.getD k 0)) s

def nvmBegin (op : NvmOp) (s : State) : State := (nvmResult 0 s).modNvm fun n => { n with op := some op }

/-- An erase of the aligned block that holds NVM_ADDR. -/
def nvmErase (size : Nat) (s : State) : State :=
  let a := s.rd F.NVM_ADDR_ADDR / size * size
  if s.inActive a size then nvmResult 1 s else nvmBegin (.erase a size) s

/-- Starts the operation that OP names; the refusals of R56, R69, R72 and R73. -/
def nvmStart (op : Nat) (s : State) : State :=
  let a := s.rd F.NVM_ADDR_ADDR
  let n := s.rd F.NVM_LEN_LEN
  let badLen := !decide (1 ≤ n ∧ n ≤ 256)
  if s.feed.tandem && (op == 2 || op == 3 || op == 4 || op == 7) then nvmResult 7 s
  else match op with
    | 1 => if badLen then nvmResult 5 s else nvmBegin (.read a n) s
    | 2 =>
      if badLen || decide (256 < a % 256 + n) then nvmResult 5 s
      else if s.inActive a n then nvmResult 1 s
      else nvmBegin (.program a (s.nvmBuf.take n)) s
    | 3 => nvmErase 4096 s
    | 4 => nvmErase 65536 s
    | 5 => nvmBegin (.verifySlot (if s.rdB F.NVM_CMD_SLOT then .b else .a)) s
    | 6 => nvmBegin .readId s
    | 7 =>
      if s.otpLocked then nvmResult 6 s
      else nvmBegin (.otpProgram (s.rd F.NVM_OTP_ADDR_WORD) (s.reg R.NVM_OTP_DATA)) s
    | _ => nvmResult 5 s

/-- A write of NVM_CMD is refused while an operation or the loader runs (R73). -/
def State.nvmRefuses (s : State) : Bool := s.nvmBusy || s.glb.loading

/-- The running operation completes; VERIFY_SLOT ends with VERIFY_FAIL for a slot that is not valid. `jedec` is what the data lines hold for READ_ID; `stuck` the OTP bits that did not
program. -/
def nvmFinish (jedec : BitVec 24) (stuck : Word) (s : State) : State :=
  match s.nvm.op with
  | none => s
  | some op =>
    let s := s.modNvm fun n => { n with op := none }
    match op with
    | .read a n => nvmResult 0 (nvmBufSet (s.flashBytes a n) s)
    | .program a l => nvmResult 0 (s.modFlash (flashProgram a l))
    | .erase a n => nvmResult 0 (s.modFlash (flashErase a n))
    | .verifySlot x =>
      let r := slotResult s x
      nvmResult (if r = 0 then 0 else 3) (s.wr F.NVM_STATUS_VERDICT r)
    | .readId =>
      let s := s.modNvm fun n => { n with jedec := jedec }
      nvmResult 0 (nvmBufSet (beBytes 3 jedec.toNat) s)
    | .otpProgram k d =>
      let w := s.otpWord k ||| (d &&& ~~~ stuck)
      let s := s.modNvm fun n => { n with otp := n.otp.set otpReset k w }
      nvmResult (if d &&& ~~~ w = 0 then 0 else 3) s

/-- Operations that have a timeout (R73). -/
def NvmOp.timed : NvmOp → Bool
  | .program _ _ | .erase _ _ | .verifySlot _ => true
  | _ => false

/-- Operations that a Hard Reset in the tandem state ends with ABORTED (R56). -/
def NvmOp.aborts : NvmOp → Bool
  | .read _ _ | .verifySlot _ | .readId => true
  | _ => false

/-- A Hard Reset received in the tandem state: its cause record waits for the flash (R54, R56). -/
def causeRaise (p : PortId) (s : State) : State :=
  let s := match s.nvm.op with
    | some op => if op.aborts then nvmResult 8 (s.modNvm fun n => { n with op := none }) else s
    | none => s
  s.modNvm fun n => { n with causePend := some p }

/-- The background erase may start (R55, R56). -/
def State.causeEraseDue (s : State) : Bool :=
  s.glb.levelSet && s.glb.level != 0 && !s.feed.tandem && !s.nvmBusy && s.causeRecord.isNone && decide (192 ≤ s.causeUsed)

end Sys2Proof.Machine
end

