-- ==== Sys2Proof/Machine/PdAct.lean ====
section
/-! DEFINITION. The PD policy engines (06_pd_engine.md R159 to R199): what each received message, timer and command does to a
port. The bit layouts of messages, and what the engine does with a message where the spec only names USB PD, are those of
USB PD. PRESUMED (log entry 21). -/

namespace Sys2Proof.Machine

/-! ### Receiving -/

/-- The engines run in RUN and IDLE, and at level 0 acknowledge nothing (R163, R198). -/
def State.pdUp (s : State) (p : PortId) : Bool := s.glb.level != 0 && s.coreUp && (s.port p).tc.st.isAttached

/-- The engine as a message finds it: the run of unanswered Hard Resets ends (R165), and the first message of an attach fixes
the revision (R159). -/
def pdIn (p : PortId) (rev2 : Bool) (s : State) : State :=
  let s := pdHeard p s
  if (s.port p).pd.rev = 0 then pdRevise p rev2 s else s

/-- A message is received. -/
def pdRx (p : PortId) (rev2 : Bool) (f : State → State) (s : State) : State :=
  if s.pdUp p then f (pdIn p rev2 s) else s

/-- No answer is awaited any more. -/
def pdSettled (p : PortId) (s : State) : State := s.modPd p fun x => { x with await := none }

/-- The state a port rests in: READY under a contract, else IMPLICIT once capabilities came to nothing, else STARTUP. -/
def pdRest (p : PortId) (s : State) : State :=
  s.modPd p fun x => { x with st := if x.contract.isSome then .ready else .startup }

/-! ### Entry to ATTACHED_SRC (R185) -/

/-- The floor and the grant of a port that becomes source: 15 W when the free headroom holds it and RP_ADV is 0. -/
def srcFloor (p : PortId) (s : State) : State :=
  let f := if decide ((15000 : Int) ≤ s.headroom) && s.rd (F.TC_CTRL_RP_ADV p) == 0 then 15000 else 7500
  s.modPd p fun x => { x with floor := f, grant := f, source := true }

/-! ### Cables (R167) -/

/-- The hub has become VCONN source in this attach: the cable is discovered again (R167). -/
def cableStart (p : PortId) (s : State) : State :=
  if (s.port p).tc.cableRa then
    pdSend p .discoverCable (s.modPd p fun x => { x with discCount := 1, discDone := false })
  else s

/-- A cable's Discover Identity answer: I_5A, V_50, EPR_OK and EMARKED from its Cable VDO. -/
def cableIdentity (p : PortId) (vdos : List Word) (s : State) : State :=
  let c := vdos.getD 3 0
  let v50 := bitsOf c 9 2 == 3
  let s := s.wr (F.TC_CABLE_EMARKED p) 1
  let s := s.wr (F.TC_CABLE_I_5A p) (b2n (bitsOf c 5 2 == 2))
  let s := s.wr (F.TC_CABLE_V_50 p) (b2n v50)
  s.wr (F.TC_CABLE_EPR_OK p) (b2n (v50 && bitOf c 17))

/-- Discovery ends; as a starting source the capabilities follow. -/
def cableEnd (p : PortId) (s : State) : State :=
  if (s.port p).pd.contract.isNone && (s.port p).pd.source then pdDiscEnd p s
  else (s.wr (F.TC_CABLE_VALID p) 1).modPd p fun x =>
    { x with discDone := true, tx := x.tx.filter (· ≠ .discoverCable) }

/-- The identity of the cable is received (R167). -/
def pdCableIdentity (p : PortId) (vdos : List Word) (s : State) : State :=
  let x := (s.port p).pd
  if s.coreUp && x.discCount ≠ 0 && !x.discDone then cableEnd p (cableIdentity p vdos s) else s

/-- 10 ms without an answer: up to four Discover Identity, then discovery ends (R167). -/
def pdCableRetry (p : PortId) (s : State) : State :=
  let x := (s.port p).pd
  if x.discCount = 0 || x.discDone then s
  else if x.discCount < 4 then
    let s := s.modPd p fun x => { x with discCount := x.discCount + 1, tx := x.tx.filter (· ≠ .discoverCable) }
    pdSend p .discoverCable s
  else cableEnd p s

/-! ### Requests (R171) -/

/-- The contract a Request names, if it lies within what was last advertised (R171, R176). -/
def requestedContract (x : Pd) (rdo : Word) : Option Contract :=
  let pos := rdoPos rdo
  let w := (x.adv.toList).getD (pos - 1) 0
  if pos = 0 ∨ 11 < pos ∨ w = 0 then none
  else if pdoFixed w then
    if pdoMa10 w < rdoMa10 rdo then none
    else some ⟨rdo, pdoMv w, rdoMa10 rdo, pdoMa10 w⟩
  else
    let mv := rdoAvsMv rdo
    let ma := rdoAvsMa10 rdo
    if mv < avsMinMv w ∨ avsMaxMv w < mv ∨ mv % 100 ≠ 0 ∨ avsPdp w * 1000 < powerMw mv ma ∨ 500 < ma then none
    else some ⟨rdo, mv, ma, min 500 (avsPdp w * 100000 / mv)⟩

/-- Accept, and the voltage change begins (R171, R178): power is reserved before it is granted. -/
def pdAccept (p : PortId) (c : Contract) (s : State) : State :=
  let g := max (s.port p).pd.grant (powerMw c.mv c.ma10)
  let s := s.modPd p fun x =>
    { x with st := .transition, trans := some { new := c }, grant := g, claim := 0, eprCap := rdoEprCap c.rdo,
             eprExitRx := false }
  pdSend p .accept s

/-- The answer to a Request (R171). -/
def pdRequest (p : PortId) (rdo : Word) (s : State) : State :=
  let x := (s.port p).pd
  let s := pdSettled p s
  match requestedContract x rdo with
  | none => pdSend p .reject s
  | some c =>
    let added : Int := (powerMw c.mv c.ma10 : Int) - x.grant
    if added ≤ 0 ∨ added ≤ s.headroom then pdAccept p c s
    else if added ≤ s.headroom + s.reclaimable p then
      bmWalk (pdSend p .wait (s.modPd p fun x => { x with claim := added.toNat }))
    else pdSendCapsAs p x.epr (pdSend p .reject s)

/-- The port may be asked for power: a source that has sent capabilities and runs no change or swap. -/
def State.pdAsked (s : State) (p : PortId) : Bool :=
  let x := (s.port p).pd
  x.source && (x.st == .startup || x.st == .ready || x.st == .implicit) && x.trans.isNone && x.swap == .none

def pdRequestRx (p : PortId) (rev2 : Bool) (rdo : Word) : State → State :=
  pdRx p rev2 fun s => if s.pdAsked p then pdRequest p rdo s else s

/-- An EPR_Request carries a copy of the PDO it names; a copy that is not the PDO last sent names none (R171). -/
def pdEprRequestRx (p : PortId) (rdo pdo : Word) : State → State :=
  pdRx p false fun s =>
    if s.pdAsked p && (s.port p).pd.rev == 2 then
      if ((s.port p).pd.adv.toList).getD (rdoPos rdo - 1) 0 = pdo then pdRequest p rdo s
      else pdSend p .reject (pdSettled p s)
    else s

/-! ### The voltage change (R178, R179) -/

/-- The voltage of the present contract, or vSafe5V. -/
def Pd.nowMv (x : Pd) : Nat := match x.contract with
  | some c => c.mv
  | none => 5000

/-- tSrcTransition has ended: the converter is commanded; a request at the present voltage needs no command. -/
def pdSrcTransition (p : PortId) (s : State) : State :=
  let x := (s.port p).pd
  match x.trans with
  | some t =>
    if !x.source || t.sent || x.tx.contains .accept then s
    else
      let same := t.new.mv = x.nowMv
      let s := s.modPd p fun x => { x with trans := some { t with sent := true, commanded := same } }
      if same then s
      else match s.conv p with
        | some i => pmbVout i t.new.mv .pdChange s
        | none => s
  | none => s

/-- Get_Sink_Cap once after the first contract of an attach on a TANDEM_CAPABLE port at 3.x (R195). -/
def pdAskSinkCap (p : PortId) (first : Bool) (s : State) : State :=
  if first && s.img.tandemCap.getLsbD p.val && (s.port p).pd.rev == 2 then pdStart p .getSinkCap s else s

/-- The end of an EPR exit once its voltage change has completed: EPR_Mode (Exit), SPR capabilities (R175). -/
def pdEprExitEnd (p : PortId) (s : State) : State :=
  let x := (s.port p).pd
  if x.eprExiting && decide (x.nowMv ≤ 20000) then
    let s := pdSend p .eprExit (s.modPd p fun x => { x with epr := false, eprExiting := false })
    pdSendCapsAs p false (pdEvt p 10 s)
  else s

/-- What waited for PS_RDY: VOUT_TRANSITION_RATE (R208) and new capabilities (R180). -/
def pdAfterChange (p : PortId) (s : State) : State :=
  let s := if (s.port p).pd.slewPend then pmbSlew p s else s
  let s := pdEprExitEnd p s
  if (s.port p).pd.deferCaps then pdSendCaps p s else s

/-- VSNS has stayed in band for 1 ms: PS_RDY, and the contract comes into force (R178). -/
def pdSettledVolt (p : PortId) (s : State) : State :=
  let x := (s.port p).pd
  match x.trans with
  | some t =>
    if x.source && t.commanded then
      let s := pdTakeContract p t.new (pdSend p .psRdy s)
      pdAfterChange p (pdAskSinkCap p (!x.firstContract) s)
    else s
  | none => s

/-- The window has expired in step 3 (R179). -/
def pdWindowExpire (p : PortId) (s : State) : State :=
  let x := (s.port p).pd
  match x.trans with
  | some t =>
    if x.source && t.commanded then
      let s := hardReset p (pdEvt p 1 s)
      match s.conv p with
      | some i => pmbRaise { cls := 3, tgt := i, cmd := .statusWord, why := .transFail } s
      | none => s
    else s
  | none => s

/-! ### PU and Pn as sink (R49, R164, R177, R196) -/

/-- Enters EPR as sink: the source is capable, PU's table holds an EPR PDO and FC is enabled (R177). -/
def State.puWantsEpr (s : State) : Bool :=
  let x := (s.port PU).pd
  bitOf (x.srcCaps.headD 0) 23 && !(s.pdTable PU).2.1.isEmpty && s.feedEn 2 && !x.epr && x.rev == 2

/-- A source PDO that PU's own table accepts: the current, in 10 mA, and the voltage it would be requested at. -/
def puOffer (tbl : List Word) (w : Word) : Option (Nat × Nat) :=
  if w = 0 then none
  else if pdoFixed w then
    match tbl.find? fun t => pdoFixed t && pdoMv t == pdoMv w with
    | some t => some (pdoMv w, min (pdoMa10 w) (pdoMa10 t))
    | none => none
  else if pdoAvs w then
    match tbl.find? pdoAvs with
    | some t =>
      let mv := min (avsMaxMv w) (avsMaxMv t)
      if mv < avsMinMv w ∨ mv < avsMinMv t ∨ mv = 0 then none
      else some (mv, min 500 (min (avsPdp w) (avsPdp t) * 100000 / mv) / 5 * 5)
    | none => none
  else none

/-- The position, voltage and current of the offer of highest power; the first of equal ones. -/
def puBest (tbl : List Word) (caps : List Word) : Option (Nat × Nat × Nat) :=
  (List.range caps.length).foldl (fun b k =>
    match puOffer tbl (caps.getD k 0) with
    | none => b
    | some (mv, ma) => match b with
      | none => some (k + 1, mv, ma)
      | some (_, bm, ba) => if bm * ba < mv * ma then some (k + 1, mv, ma) else b) none

/-- The 48 V offer of the hand-over: the fixed 48 V PDO, otherwise an AVS range that reaches 48.0 V (R49). -/
def offer48 (caps : List Word) : Option Nat :=
  match (List.range caps.length).find? fun k => pdoFixed (caps.getD k 0) && pdoMv (caps.getD k 0) == 48000 with
  | some k => some (k + 1)
  | none =>
    match (List.range caps.length).find? fun k => pdoAvs (caps.getD k 0) && decide (48000 ≤ avsMaxMv (caps.getD k 0)) with
    | some k => some (k + 1)
    | none => none

/-- The request of a sink and the contract it asks for. -/
def sinkAsk (p : PortId) (pos mv ma : Nat) (s : State) : State :=
  let x := (s.port p).pd
  let w := x.srcCaps.getD (pos - 1) 0
  let rdo := if pdoAvs w then mkAvsRdo pos mv ma else mkRdo pos ma (p = PU && !(s.pdTable PU).2.1.isEmpty)
  let m := if x.epr then .eprRequest rdo w else .request rdo
  let s := s.modPd p fun x => { x with trans := some { new := ⟨rdo, mv, ma, ma⟩, sent := true }, lastReq := none }
  pdSend p m s

/-- The request of PU: the hand-over's order while it runs, else the highest-power PDO its table accepts (R49, R177). -/
def puRequest (s : State) : State :=
  let caps := (s.port PU).pd.srcCaps
  let best (s : State) : State :=
    match puBest ((s.pdTable PU).1 ++ (s.pdTable PU).2.1) caps with
    | some (pos, mv, ma) => sinkAsk PU pos mv ma s
    | none => s
  match s.dyn.step with
  | .req5 => sinkAsk PU 1 5000 (min 150 (pdoMa10 (caps.headD 0))) s
  | .enterEpr | .req48 =>
    if (s.port PU).pd.epr then
      match offer48 caps with
      | some pos =>
        sinkAsk PU pos 48000 (10 * s.rd F.FEED_LIM_FC_MAX) (s.modDyn fun d => { d with step := .req48 })
      | none => s
    else sinkAsk PU 1 5000 (min 150 (pdoMa10 (caps.headD 0))) s
  | .ramp => sinkAsk PU 1 5000 (min 150 (pdoMa10 (caps.headD 0))) s
  | _ => best s

/-- Source_Capabilities or EPR_Source_Capabilities as sink (R177, R196). -/
def pdSourceCapsRx (p : PortId) (rev2 epr : Bool) (pdos : List Word) : State → State :=
  pdRx p rev2 fun s =>
    if (s.port p).pd.source || (epr && !(s.port p).pd.epr) then s
    else
      let s := (pdSettled p s).modPd p fun x => { x with srcCaps := pdos }
      if p = PU then puRequest s else sinkAsk p 1 5000 30 s

/-- PU enters EPR after a contract that allows it (R49, R177). -/
def puEnterEpr (s : State) : State :=
  let go := match s.dyn.step with
    | .idle | .ended | .enterEpr => true
    | _ => false
  if go && s.puWantsEpr then pdStart PU .eprEnter s else s

/-- PU has taken a contract: the first of an attach asks for the extended capabilities, each for Source_Info (R162); the
hand-over ramps the PU pair and arms bridge mode after its 5 V request (R49); below 36 V FC is lost (R76). -/
def puContract (first : Bool) (s : State) : State :=
  let s := if first then pdStart PU .getSrcCapExt s else s
  let s := pdStart PU .getSourceInfo s
  let s := match s.dyn.step with
    | .req5 =>
      let s := s.modDyn fun _ => { step := .ramp, bridge := true }
      if s.puMayRamp then ppEnterRamp PU 0 s else s
    | _ => s
  let s := match s.feed.fc.st with
    | .active | .qualifying | .ready =>
      if (s.port PU).pd.nowMv < 36000 && !s.dynRuns then fcLost s else s
    | _ => s
  bmRecompute (puEnterEpr s)

/-! ### Role swaps (R191 to R194) -/

/-- A swap is over and the port rests. -/
def swapEnd (p : PortId) (s : State) : State := pdRest p (s.modPd p fun x => { x with swap := .none })

/-- As the old source: the contract ends and the OFF condition applies (R193). -/
def swapOldOff (p : PortId) (s : State) : State :=
  let s := pdEndContract p (s.modPp p fun x => { x with call := false })
  ppOff p (s.modPd p fun x => { x with st := .swap, swap := .oldOff })

/-- As the new source, the partner's PS_RDY being awaited (R193). -/
def swapNewWait (p : PortId) (s : State) : State :=
  (pdEndContract p s).modPd p fun x => { x with st := .swap, swap := .newWaitPsRdy }

/-- VSNS is below 0.8 V on the old source: Rp becomes Rd, PS_RDY is sent (R193). -/
def swapOldDown (p : PortId) (s : State) : State :=
  let s := tcEnter p .attachedSnk s
  let s := s.modPd p fun x => { x with source := false, swap := .oldWaitPsRdy, floor := 0, grant := 0, started := false }
  pdSend p .psRdy s

/-- The partner's PS_RDY on the new source: Rd becomes Rp and VBUS is called for (R193). -/
def swapNewUp (p : PortId) (s : State) : State :=
  let s := srcFloor p (tcEnter p .attachedSrc s)
  let s := s.modPd p fun x => { x with swap := .newRamp, drivenNew := true }
  ppKick p (s.modPp p fun x => { x with call := true })

/-- The new source's path has reached ON: PS_RDY, and a contract is started (R193). -/
def swapNewOn (p : PortId) (s : State) : State :=
  let s := pdEvt p 5 (pdSend p .psRdy (s.modPd p fun x => { x with swap := .none, drivenNew := false }))
  pdContractStart p s

/-- The hub becomes VCONN source: VCONN on, PS_RDY, and the cable is discovered anew (R167, R191). -/
def vconnTake (p : PortId) (s : State) : State :=
  let s := vconnOn p ((swapEnd p s).modPd p fun x => { x with vconnSrc := true })
  cableStart p (pdEvt p 6 (pdSend p .psRdy s))

/-- The partner has become VCONN source. -/
def vconnGive (p : PortId) (s : State) : State :=
  eprCheck (pdEvt p 6 (vconnOff p ((swapEnd p s).modPd p fun x => { x with vconnSrc := false })))

/-- A VCONN_Swap has been accepted by either end. -/
def vconnSwapGo (p : PortId) (s : State) : State :=
  if (s.port p).pd.vconnSrc then s.modPd p fun x => { x with swap := .sentVconn } else vconnTake p s

/-- A VCONN_Swap that came to nothing: a starting source goes on without the cable (R167). -/
def vconnSwapLost (p : PortId) (s : State) : State :=
  let s := swapEnd p s
  if (s.port p).pd.source && !(s.port p).pd.discDone && (s.port p).pd.contract.isNone then pdDiscEnd p s else s

/-- The port can take the source role (R192): a feed is ACTIVE, VIN is at least 36 V and the port can source (R142). -/
def State.canSource (s : State) (p : PortId) : Bool :=
  s.feedActive && decide (36000 ≤ s.feed.vin) && !s.sinkOnly p

/-- A received PR_Swap (R192, R194). -/
def pdPrSwapRx (p : PortId) : State → State :=
  pdRx p false fun s =>
    let x := (s.port p).pd
    if p = PU then pdSend p .reject s
    else if x.swap == .sentPr && x.source then pdSend p .wait s
    else
      let s := if x.swap == .sentPr then pdSettled p (s.modPd p fun x => { x with swap := .none }) else s
      let ready := x.st == .ready || x.swap == .sentPr
      let ok := if x.source then s.rdB (F.PD_CTRL_PRS_ACCEPT p) && s.img.tandemCap.getLsbD p.val else s.canSource p
      if !ready || !ok then pdSend p .reject s
      else if x.source then pdSend p .accept (s.modPd p fun x => { x with st := .swap, swap := .oldWaitAccept })
      else swapNewWait p (pdSend p .accept s)

/-- A received VCONN_Swap (R191). -/
def pdVconnSwapRx (p : PortId) : State → State :=
  pdRx p false fun s =>
    if p = PU || (!(s.port p).pd.vconnSrc && (s.port p).tc.vconnLost) then pdSend p .reject s
    else vconnSwapGo p (pdSend p .accept s)

/-- DR_Swap is always rejected (R191). -/
def pdDrSwapRx (p : PortId) : State → State := pdRx p false (pdSend p .reject)

/-- A received FR_Swap (R196): Pn after its signal; PU does not support it; at any other time a protocol error. -/
def pdFrSwapRx (p : PortId) : State → State :=
  pdRx p false fun s =>
    if p = PU then pdSend p .notSupported s
    else if (s.port p).pd.swap == .frsSignal then
      pdSend p .accept (s.modPd p fun x => { x with swap := .frsAccepted, tx := [] })
    else pdEscalate p s

/-- VSNS is below vSafe5V: PS_RDY of a Fast Role Swap (R196). -/
def frsDown (p : PortId) (s : State) : State :=
  pdSend p .psRdy (s.modPd p fun x => { x with swap := .frsWaitPsRdy })

/-- No FR_Swap within 15 ms (R196). -/
def pdFrsNomsg (p : PortId) (s : State) : State :=
  if (s.port p).pd.swap == .frsSignal then
    pdEvt p 8 (s.modPd p fun x => { x with swap := .none, st := .implicit, tx := [] })
  else s

/-- tPSSourceOff or tPSSourceOn expires (R193). -/
def pdPsSourceTimeout (p : PortId) (s : State) : State :=
  match (s.port p).pd.swap with
  | .oldWaitPsRdy | .newWaitPsRdy => hardReset p s
  | _ => s

/-! ### Answers to the hub's own messages -/

/-- Accept (R162). -/
def pdAcceptRx (p : PortId) : State → State :=
  pdRx p false fun s =>
    let x := (s.port p).pd
    let s := pdSettled p s
    match x.await with
    | some (.request _) | some (.eprRequest _ _) =>
      s.modPd p fun x => { x with st := .transition, trans := x.trans.map fun t => { t with commanded := true } }
    | some .softReset =>
      let s := pdRest p s
      if (s.port p).pd.source then pdSendCapsAs p (s.port p).pd.epr s else s
    | some .prSwap => if x.source then swapOldOff p s else swapNewWait p s
    | some .vconnSwap => vconnSwapGo p s
    | _ => s

/-- Reject, and Not_Supported in its place. -/
def pdRefused (p : PortId) (s : State) : State :=
  let x := (s.port p).pd
  let s := pdSettled p s
  match x.await with
  | some (.request _) | some (.eprRequest _ _) => pdRest p (s.modPd p fun x => { x with trans := none })
  | some .softReset => hardReset p s
  | some .prSwap => swapEnd p s
  | some .vconnSwap => vconnSwapLost p s
  | _ => s

def pdRejectRx (p : PortId) : State → State := pdRx p false (pdRefused p)

/-- Wait (R164): PU repeats its request after tSinkRequest. -/
def pdWaitRx (p : PortId) : State → State :=
  pdRx p false fun s =>
    let m := (s.port p).pd.await
    let req := match m with
      | some (.request _) | some (.eprRequest _ _) => true
      | _ => false
    let keep := (s.port p).pd.trans
    let s := pdRefused p s
    if p = PU && req then s.modPd p fun x => { x with lastReq := m, trans := keep } else s

/-- tSinkRequest has ended (R164). -/
def pdSinkRequestExpire (s : State) : State :=
  match (s.port PU).pd.lastReq with
  | some m => pdSend PU m (s.modPd PU fun x => { x with lastReq := none })
  | none => s

/-- PS_RDY (R162, R193, R196). -/
def pdPsRdyRx (p : PortId) : State → State :=
  pdRx p false fun s =>
    let x := (s.port p).pd
    match x.swap with
    | .sentVconn => vconnGive p s
    | .oldWaitPsRdy => pdEvt p 5 ((s.modPd p fun x => { x with swap := .none, st := .startup }))
    | .newWaitPsRdy => swapNewUp p s
    | .frsWaitPsRdy => pdEvt p 7 (s.modPd p fun x => { x with swap := .none, st := .startup })
    | _ =>
      match x.trans with
      | some t =>
        if x.source || !t.commanded then s
        else
          let s := pdTakeContract p t.new s
          if p = PU then puContract (!x.firstContract) s else s
      | none => s

/-- Responses to the hub's other requests (R177). -/
def pdResponseRx (p : PortId) (r : PdResponse) : State → State :=
  pdRx p false fun s =>
    match r with
    | .eprEnterAck | .keepAliveAck => s
    | .eprEnterSucceeded =>
      if (s.port p).pd.await = some .eprEnter then
        pdEvt p 9 ((pdSettled p s).modPd p fun x => { x with epr := true })
      else s
    | .notSupported => pdRefused p s
    | .eprEnterFailed | .status | .sourceInfo | .revision _ | .extCaps => pdSettled p s

/-- Sink_Capabilities (R195). -/
def pdSinkCapsRx (p : PortId) (pdo1 : Word) : State → State :=
  pdRx p false fun s =>
    if p = PU then s
    else (pdSettled p s).modPd p fun x => { x with snkCapValid := true, frsCur := BitVec.ofNat 2 (bitsOf pdo1 23 2) }

/-! ### Resets -/

/-- Soft_Reset received (R165): the protocol layer is reset and the message accepted; in a change or a swap it is a protocol
error. A source sends its capabilities again. -/
def pdSoftResetRx (p : PortId) : State → State :=
  pdRx p false fun s =>
    let x := (s.port p).pd
    if x.trans.isSome && x.source || x.swap != .none then hardReset p s
    else
      let s := s.modPd p fun x => { x with tx := [], await := none, sinkTxPend := [], sinkTxNG := false, trans := none }
      let s := pdSend p .accept (pdRest p (pdEvt p 4 s))
      if x.source then pdSendCapsAs p x.epr s else s

/-- Hard Reset received (R76, R181, R182); in the tandem state its cause is recorded in flash (R54). -/
def pdHardResetRx (p : PortId) (s : State) : State :=
  if !(s.coreUp && (s.port p).tc.st.isAttached) then s
  else if s.feed.tandem then causeRaise p (pdHardResetRxCore p s)
  else
    let dn := (s.port p).pd.drivenNew
    let s := s.modPd p fun x => { x with source := (s.port p).tc.st == .attachedSrc }
    hardResetCommon p ((pdHardResetRxCore p s).modPd p fun x => { x with drivenNew := dn })

/-- tPSHardReset has ended: OFF, and VSNS below 0.8 V is awaited (R181). -/
def pdPsHardReset (p : PortId) (s : State) : State :=
  if (s.port p).pd.hrst == .psHardReset then
    ppOff p ((s.modPp p fun x => { x with call := false }).modPd p fun x => { x with hrst := .discharge })
  else s

/-- tSrcRecover has ended: VBUS is called for again (R181, R182). -/
def pdSrcRecover (p : PortId) (s : State) : State :=
  if (s.port p).pd.hrst == .recover then
    ppKick p ((s.modPp p fun x => { x with call := true }).modPd p fun x => { x with hrst := .none })
  else s

/-- A VBUS level is crossed downward (R181, R193, R196). -/
def pdVbusDown (p : PortId) (l : VbusLevel) (s : State) : State :=
  let x := (s.port p).pd
  match l with
  | .below08 =>
    let s := if x.hrst == .discharge then s.modPd p fun x => { x with hrst := .recover } else s
    if x.swap == .oldOff then swapOldDown p s else s
  | .belowSafe5V => if x.swap == .frsAccepted then frsDown p s else s
  | .below3 => s

/-! ### Timeouts -/

/-- tSenderResponse expires (R165); after EPR_Mode (Exit) from above 20 V a Hard Reset follows (R174). -/
def pdSenderTimeout (p : PortId) (s : State) : State :=
  let x := (s.port p).pd
  if !s.coreUp then s
  else if x.eprExitRx then hardReset p s
  else match x.await with
    | none => s
    | some .vconnSwap => if x.firstContract then pdEscalate p s else vconnSwapLost p (pdSettled p s)
    | some _ => pdEscalate p (s.modPd p fun x => { x with trans := if x.source then x.trans else none })

/-- tTypeCSendSourceCap (R167): capabilities again until GoodCRC, up to nCapsCount times. -/
def pdCapsRepeat (p : PortId) (s : State) : State :=
  let x := (s.port p).pd
  let waits := x.tx.any fun m => match m with
    | .sourceCaps _ => true
    | _ => false
  if !(x.source && x.contract.isNone && waits) then s
  else if x.capsCount < 50 then
    pdSendCapsAs p false (s.modPd p fun x => { x with capsCount := x.capsCount + 1, tx := [] })
  else s.modPd p fun x => { x with tx := [], st := .implicit }

/-- A message was not acknowledged after its retries (R165, R189). -/
def pdNoGoodcrc (p : PortId) (s : State) : State :=
  let x := (s.port p).pd
  match x.tx with
  | [] => s
  | m :: rest =>
    let pop (s : State) : State := s.modPd p fun x => { x with tx := rest }
    match m with
    | .sourceCaps _ | .eprSourceCaps _ =>
      if x.contract.isNone then (if x.target.isSome then bmHardLimit p s else s)
      else if x.target.isSome then bmHardLimit p (pop s)
      else pdEscalate p (pop s)
    | .discoverCable | .vdm _ | .hardReset | .frSwapSignal => pop s
    | _ => pdEscalate p (pop s)

/-- GoodCRC ends the sending of the head of the queue (R167). -/
def pdGoodcrc (p : PortId) (s : State) : State :=
  let x := (s.port p).pd
  match x.tx with
  | [] => s
  | m :: rest =>
    if m.isSignal then s
    else
      let s := s.modPd p fun x => { x with tx := rest, await := if m.awaits then some m else x.await }
      if m = .accept && x.swap == .oldWaitAccept then swapOldOff p s else s

/-- tSinkTx has ended, or SinkTxOK is seen: what waited is sent (R194). -/
def pdSinkTx (p : PortId) (s : State) : State :=
  let l := (s.port p).pd.sinkTxPend
  let s := s.modPd p fun x => { x with sinkTxNG := false, sinkTxPend := [] }
  l.foldl (fun s m => pdSend p m s) s

/-- tSourceEPRKeepAlive expires (R174); in SLEEP it wakes the hub first (R387). -/
def pdKeepaliveLost (p : PortId) (s : State) : State :=
  if !((s.port p).pd.source && (s.port p).pd.epr) then s
  else if s.coreUp then hardReset p (pdEvt p 11 s)
  else if s.pwr.st == .sleep then notice .pd (some p) (s.modPd p fun x => { x with kaLost := true })
  else s

/-- PU in EPR has sent nothing for 375 ms (R177). -/
def puKeepalive (s : State) : State :=
  let x := (s.port PU).pd
  if s.coreUp && x.epr && !x.source && x.tx.isEmpty then pdSend PU .eprKeepAlive s else s

/-- An EPR exit has not completed in time (R175). -/
def pdEprExitTimeout (p : PortId) (s : State) : State :=
  if (s.port p).pd.eprExiting then hardReset p s else s

/-- PU may send no Hard Reset: Soft_Reset again, every 1 s (R166). -/
def pdHrstWithheld (s : State) : State :=
  if s.puSole && (s.port PU).pd.st == .softReset then hardReset PU s else s

/-! ### Capabilities and status -/

/-- The port's own sink PDO (R195): 5 V, 0.30 A, Dual-Role Power, USB Communications Capable. -/
def pnSinkPdo : Word := atBits 29 1 1 ||| atBits 26 1 1 ||| atBits 10 10 100 ||| atBits 0 10 30

/-- PU's sink PDOs, with bits [29:20] of the first as R169 gives. -/
def State.puSinkPdos (s : State) (epr : Bool) : List Word :=
  let t := s.pdTable PU
  let first (w : Word) : Word := (w &&& ~~~ maskOf 20 10) ||| atBits 29 1 1 ||| atBits 28 1 1 ||| atBits 26 1 1
  match t.1 with
  | w :: l => capsList (first w :: l) (if epr then t.2.1 else [])
  | [] => []

/-- Get_Source_Cap and EPR_Get_Source_Cap (R162). -/
def pdGetSourceCapRx (p : PortId) (epr : Bool) : State → State :=
  pdRx p false fun s =>
    if (s.port p).pd.source then pdSendCapsAs p (epr && (s.port p).pd.rev == 2) s else pdSend p .notSupported s

/-- Get_Sink_Cap and EPR_Get_Sink_Cap (R195). -/
def pdGetSinkCapRx (p : PortId) (epr : Bool) : State → State :=
  pdRx p false fun s => pdSend p (.sinkCaps (if p = PU then s.puSinkPdos epr else [pnSinkPdo])) s

/-- EPR_Mode (Enter) (R173). -/
def pdEprModeEnterRx (p : PortId) : State → State :=
  pdRx p false fun s =>
    let x := (s.port p).pd
    if x.rev == 1 then s
    else if !x.source then pdSend p .notSupported s
    else
      let fail := match x.contract with
        | none => some 0
        | some c =>
          if x.epr then some 0
          else if !s.rdB (F.TC_CABLE_EPR_OK p) then some 1
          else if !x.vconnSrc then some 2
          else if !rdoEprCap c.rdo then some 3
          else if !bitOf (x.adv.toList.headD 0) 23 then some 5
          else if !s.eprPermitted p then some 0
          else none
      match fail with
      | some r => pdSend p (.eprEnterFailed (BitVec.ofNat 8 r)) s
      | none =>
        let s := pdSend p .eprEnterSucceeded (pdSend p .eprEnterAck s)
        pdSendCapsAs p true (pdEvt p 9 (s.modPd p fun x => { x with epr := true }))

/-- EPR_Mode (Exit) (R174). -/
def pdEprModeExitRx (p : PortId) : State → State :=
  pdRx p false fun s =>
    let x := (s.port p).pd
    if !x.epr then s
    else
      let s := pdEvt p 10 (s.modPd p fun x => { x with epr := false, eprExiting := false })
      if x.source then
        pdSendCapsAs p false (s.modPd p fun y => { y with eprExitRx := decide (20000 < x.nowMv) })
      else s

/-- EPR_KeepAlive (R174). -/
def pdEprKeepaliveRx (p : PortId) : State → State := pdRx p false (pdSend p .eprKeepAliveAck)

/-- Alert: logged; PU asks for Status (R162). -/
def pdAlertRx (p : PortId) (ado : Word) : State → State :=
  pdRx p false fun s =>
    let s := s.modPd p fun x => { x with lastAlert := ado }
    if p = PU then pdStart p .getStatus s else s

/-- The Status data block (R197): temperature, input, battery, event flags, temperature status, power status. -/
def State.pdStatusBytes (s : State) (p : PortId) : List Byte :=
  let x := (s.port p).pd
  let t := signed 8 (s.rd F.FLT_TEMP_TEMP)
  let limited := x.source && (decide (s.share p < s.maxMw p) || x.bmLimited)
  [BitVec.ofInt 8 t, if s.drives .fa || s.drives .fb then 0x02 else 0, 0, (x.evFlags.setWidth 8) <<< 1,
   if 125 ≤ t then 0x04 else 0x02, if limited then 0x08 else 0, 0]

/-- Get_Status (R197). -/
def pdGetStatusRx (p : PortId) : State → State :=
  pdRx p false fun s =>
    let s := pdSend p (.status (s.pdStatusBytes p)) s
    if (s.port p).pd.rev == 1 then s else s.modPd p fun x => { x with evFlags := 0 }

/-- Get_Source_Info (R198): managed, Maximum, Present and Reported PDP; Not_Supported as sink. -/
def pdGetSourceInfoRx (p : PortId) : State → State :=
  pdRx p false fun s =>
    if (s.port p).pd.source then
      pdSend p (.sourceInfo (atBits 16 8 (s.maxMw p / 1000) ||| atBits 8 8 (s.share p / 1000) |||
        atBits 0 8 ((s.port p).pd.grant / 1000))) s
    else pdSend p .notSupported s

def pdGetRevisionRx (p : PortId) : State → State := pdRx p false (pdSend p .revision)

/-- Get_Source_Cap_Extended (R162): answered by Pn; PU is a sink. -/
def pdGetSrcCapExtRx (p : PortId) : State → State :=
  pdRx p false fun s => pdSend p (if p = PU then .notSupported else .srcCapsExt) s

def pdGetSnkCapExtRx (p : PortId) : State → State := pdRx p false (pdSend p .snkCapsExt)

/-- BIST, at vSafe5V only (R162). -/
def pdBistRx (p : PortId) (carrier : Bool) : State → State :=
  pdRx p false fun s =>
    if (s.port p).pd.nowMv = 5000 && (s.port p).pd.trans.isNone then
      pdSend p (.bistMode carrier) (s.modPd p fun x => { x with bist := some carrier })
    else s

/-- Not_Supported at 3.x, ignored at 2.0 (R161, R162). -/
def pdUnsupportedRx (p : PortId) : State → State := pdRx p false (pdSend p .notSupported)

/-- GotoMin and Ping are received and ignored (R162). -/
def pdIgnoredRx (p : PortId) : State → State := pdRx p false id

/-- A structured VDM request for an SVID that is neither the PD SID nor the image's is NAKed (R162). -/
def pdSvdmRx (p : PortId) (h : Word) : State → State :=
  pdRx p false fun s =>
    let svid := bitsOf h 16 16
    let own := svid == 0xFF00 || (s.img.svid.map BitVec.toNat) == some svid
    if own || !bitOf h 15 || bitsOf h 6 2 != 0 then s
    else sendVdm p svid (bitsOf h 8 3) 2 (bitsOf h 0 5) [] s

/-! ### The budget manager (R184, R189, R190) -/

/-- P_avail is computed anew with VIN averaged over 256 ms (R184). -/
def bmTick (vin : Nat) (s : State) : State := if s.coreUp then bmRecompute (s.modBm fun b => { b with vinAvg := vin }) else s

/-- RENEG_TO has passed and the port is not within its share (R189). -/
def bmRenegTimeout (p : PortId) (s : State) : State :=
  let x := (s.port p).pd
  match x.target with
  | some t => if t < x.grant && !x.bmLimited then bmSettle (bmHardLimit p s) else s
  | none => s

/-- RAISE_DLY has passed: shares rise, and new capabilities go to each port whose set grows, highest rank first (R190). -/
def bmRaise (s : State) : State :=
  let s := s.modBm fun b => { b with heldAvail := none }
  forEach (s.lowestFirst s.sources).reverse (fun p s =>
    let s := bmRelease p s
    if s.capsGrow p then pdSendCaps p s else s) s

/-! ### PD_CMD (R199) -/

def pdCmdRej (p : PortId) (s : State) : State := pdEvt p 13 s

/-- PD_CMD.SOFT_RESET: not while the engine is detached, in a reset, a change or a swap. -/
def pdCmdSoftReset (p : PortId) (s : State) : State :=
  match (s.port p).pd.st with
  | .startup | .implicit | .ready => if s.pdUp p then pdSoftReset p s else pdCmdRej p s
  | _ => pdCmdRej p s

/-- PD_CMD.HARD_RESET: refused in the tandem state (R199) and on PU where R166 forbids it. -/
def pdCmdHardReset (p : PortId) (s : State) : State :=
  let x := (s.port p).pd
  if s.feed.tandem || (p = PU && s.puSole) || !s.pdUp p || x.st == .detached || x.st == .hardReset then pdCmdRej p s
  else hardResetNow p s

/-- Sends PR_Swap (R192). -/
def pdPrSwapStart (p : PortId) (s : State) : State := pdStart p .prSwap (s.modPd p fun x => { x with swap := .sentPr })

/-- The port may start a swap: a ready Pn with no swap under way. -/
def State.pdFree (s : State) (p : PortId) : Bool :=
  let x := (s.port p).pd
  s.pdUp p && p.val < 16 && x.st == .ready && x.swap == .none && x.trans.isNone

def pdCmdPrSwap (p : PortId) (s : State) : State :=
  if s.pdFree p && ((s.port p).pd.source || !s.sinkOnly p) then pdPrSwapStart p s else pdCmdRej p s

/-- PD_CMD.VCONN_SWAP (R191): not toward a VCONN that R148 has removed. -/
def pdCmdVconnSwap (p : PortId) (s : State) : State :=
  if s.pdFree p && ((s.port p).pd.vconnSrc || !(s.port p).tc.vconnLost) then pdStart p .vconnSwap s else pdCmdRej p s

def pdCmdSendCaps (p : PortId) (s : State) : State :=
  let x := (s.port p).pd
  if s.pdUp p && x.source && x.started && (x.st == .ready || x.st == .startup || x.st == .implicit) then pdSendCaps p s
  else pdCmdRej p s

def pdCmdGetSinkCap (p : PortId) (s : State) : State :=
  if s.pdUp p && p.val < 16 && (s.port p).pd.st == .ready then pdStart p .getSinkCap s else pdCmdRej p s

def pdCmdEprExit (p : PortId) (s : State) : State :=
  let x := (s.port p).pd
  if s.pdUp p && x.source && x.epr && !x.eprExiting then eprExitStart p s else pdCmdRej p s

/-- A write of PD_CMD: each bit that is 1, from bit 0 up. -/
def pdCmd (p : PortId) (v : Word) (s : State) : State :=
  let go (k : Nat) (f : PortId → State → State) (s : State) : State := if bitOf v k then f p s else s
  go 6 pdCmdEprExit (go 5 pdCmdGetSinkCap (go 4 pdCmdSendCaps (go 3 pdCmdVconnSwap (go 2 pdCmdPrSwap
    (go 1 pdCmdHardReset (go 0 pdCmdSoftReset s))))))

end Sys2Proof.Machine
end

