-- ==== Sys2Proof/Machine/TcAct.lean ====
section
/-! DEFINITION. The Type-C state machines (05_typec_attach.md R135 to R157): attach, toggling, Try sequences, over-voltage,
VCONN and moisture. Transitions that the spec only names by the Type-C specification are taken from it. PRESUMED (log
entry 22). -/

namespace Sys2Proof.Machine

/-! ### What the CC lines show (R136) -/

def ccIsRp : CcTerm → Bool
  | .rpDefault | .rp15 | .rp30 => true
  | _ => false

/-- Exactly one line shows Rd: a sink partner. -/
def sinkSeen (t : Tc) : Bool := (t.cc1 == .rd) != (t.cc2 == .rd)

/-- Exactly one line shows Rp: a source partner. -/
def sourceSeen (t : Tc) : Bool := ccIsRp t.cc1 != ccIsRp t.cc2

/-- Ra on both lines, or Rd on both: an accessory, which is no attach (R136). -/
def accessorySeen (t : Tc) : Bool := (t.cc1 == .ra && t.cc2 == .ra) || (t.cc1 == .rd && t.cc2 == .rd)

/-- The Type-C machines run: AON is up and the hub is not in DEEP (R158, R388). -/
def State.tcUp (s : State) : Bool := s.aonUp && s.pwr.st != .deep && s.pwr.st != .wakeFail

/-! ### Attach -/

/-- A new attach clears TC_CABLE and drops a waiting test (R149, R154); orientation is fixed (R147). -/
def tcAttach (p : PortId) (st : TcState) (orient : Bool) (s : State) : State :=
  let s := tcEnter p st (s.setReg (R.TC_CABLE p) 0)
  tcEvt p 0 (s.modTc p fun t => { t with orient := orient, testPend := false, accSeen := false, vconnLost := false })

/-- VCONN on while the inactive line shows Ra and the hub is VCONN source (R148). -/
def tcVconnTrack (p : PortId) (s : State) : State :=
  let t := (s.port p).tc
  let ra := if t.orient then t.cc1 == .ra else t.cc2 == .ra
  let s := s.modTc p fun t => { t with cableRa := ra }
  if ra && t.st == .attachedSrc && !t.vconn && (s.port p).pd.vconnSrc then vconnOn p s else s

/-- Entry to ATTACHED_SRC (R145, R146, R185): the floor is reserved, the hub is VCONN source, and VBUS is called for. -/
def attachSrc (p : PortId) (s : State) : State :=
  let s := tcAttach p .attachedSrc ((s.port p).tc.cc2 == .rd) s
  let s := (srcFloor p s).modPd p fun x => { x with st := .startup, vconnSrc := decide (p.val < 16) }
  let s := tcVconnTrack p s
  let s := s.modTc p fun t => { t with vbusCount := true }
  ppKick p (bmWalk (s.modPp p fun x => { x with call := true }))

/-- Entry to ATTACHED_SNK. -/
def attachSnk (p : PortId) (s : State) : State :=
  let s := tcAttach p .attachedSnk (ccIsRp (s.port p).tc.cc2) s
  s.modPd p fun x => { x with st := .startup, source := false }

/-! ### Unattached states -/

/-- The port goes to the unattached state that R139 calls for; a test that fell due in AttachWait runs now (R154). A port
that mass-wet holds takes MSTATE HELD. -/
def tcUnattach (p : PortId) (st : TcState) (s : State) : State :=
  let t := (s.port p).tc
  let rest := s.tcRest p
  let s := s.modTc p fun t => { t with accSeen := false, testPend := false }
  if rest != .unattachedSnk then
    let s := if s.massHolds p && t.mstate == .dry then s.modTc p fun t => { t with mstate := .held } else s
    tcEnter p rest s
  else if t.testPend && s.rdB (F.TC_CTRL_MOIST_EN p) then tcEnter p .moistTest s
  else tcEnter p (if st.presentsRp && s.rdAlone p then .unattachedSnk else st) s

/-- An accessory is reported once (R136). -/
def tcAccessory (p : PortId) (s : State) : State :=
  if (s.port p).tc.accSeen then s else tcEvt p 8 (s.modTc p fun t => { t with accSeen := true })

/-- TC_CTRL.TRY_EN (R138); a port that cannot source never uses Try.SRC (R142). -/
def State.tries (s : State) (p : PortId) : Bool := s.rdB (F.TC_CTRL_TRY_EN p)

/-- PU has found a partner that presents Rd alone: it goes on toggling (R135). -/
def puSnkPartner (s : State) : State := tcUnattach PU .unattachedSnk (tcEvt PU 10 s)

/-- The terminations seen on CC have changed (R137). -/
def tcCcChange (p : PortId) (cc1 cc2 : CcTerm) (s : State) : State :=
  if !s.tcUp then s
  else
    let s := s.modTc p fun t => { t with cc1 := cc1, cc2 := cc2 }
    let t := (s.port p).tc
    match t.st with
    | .unattachedSnk => if sourceSeen t then tcEnter p .attachWaitSnk s else s
    | .attachWaitSnk => if sourceSeen t then s else tcUnattach p .unattachedSnk s
    | .unattachedSrc =>
      if accessorySeen t then tcAccessory p s
      else if sinkSeen t then tcEnter p .attachWaitSrc s
      else s.modTc p fun t => { t with accSeen := false }
    | .attachWaitSrc =>
      if sinkSeen t then s
      else if accessorySeen t then tcAccessory p (tcUnattach p .unattachedSrc s)
      else tcUnattach p .unattachedSnk s
    | .trySrc => if sinkSeen t then attachSrc p s else s
    | .tryWaitSrc => if sinkSeen t then (if p = PU then puSnkPartner s else attachSrc p s) else s
    | .attachedSrc => tcVconnTrack p s
    | .attachedSnk =>
      if (cc1 == .rp30 || cc2 == .rp30) && !(s.port p).pd.sinkTxPend.isEmpty then pdSinkTx p s else s
    | _ => s

/-- tDRP: an unattached DRP port turns from one termination to the other (R138, R140, R142, R143). What it saw while it
presented the other one no longer holds. -/
def tcDrpToggle (p : PortId) (s : State) : State :=
  let s' := s.modTc p fun t => { t with cc1 := .open, cc2 := .open, accSeen := false }
  match (s.port p).tc.st with
  | .unattachedSnk => if s.tcUp && !s.rdAlone p then tcEnter p .unattachedSrc s' else s
  | .unattachedSrc => if s.tcUp then tcEnter p .unattachedSnk s' else s
  | _ => s

/-- VBUS as a sink detects it, and vSafe0V before a port may source (R150). -/
def vbusPresent (mv : Nat) : Bool := decide (4000 ≤ mv)
def vbusGone (mv : Nat) : Bool := decide (mv < 800)

/-- tCCDebounce has ended (R138, R147, R150). -/
def tcDebounce (p : PortId) (vbus : Nat) (s : State) : State :=
  if !s.tcUp then s
  else
    let t := (s.port p).tc
    match t.st with
    | .attachWaitSrc =>
      if !sinkSeen t then s
      else if p = PU then (if s.tries p then tcEnter p .trySnk s else puSnkPartner s)
      else if vbusGone vbus then attachSrc p s else s
    | .attachWaitSnk =>
      if !(sourceSeen t && vbusPresent vbus) then s
      else if decide (p.val < 16) && s.tries p && !s.rdAlone p then
        tcEnter p .trySrc (s.modTc p fun t => { t with cc1 := .open, cc2 := .open })
      else attachSnk p s
    | .tryWaitSnk | .trySnk => if sourceSeen t && vbusPresent vbus then attachSnk p s else s
    | _ => s

/-- tDRPTry: TRY_SRC that saw no Rd waits as sink, TRY_SNK that saw no Rp waits as source (R138). -/
def tcDrpTry (p : PortId) (s : State) : State :=
  let s' := s.modTc p fun t => { t with cc1 := .open, cc2 := .open }
  match (s.port p).tc.st with
  | .trySrc => tcEnter p .tryWaitSnk s'
  | .trySnk => if sourceSeen (s.port p).tc then s else tcEnter p .tryWaitSrc s'
  | _ => s

/-- tTryTimeout: the Try sequence gives up (R138). -/
def tcTryTimeout (p : PortId) (s : State) : State :=
  let s' := s.modTc p fun t => { t with cc1 := .open, cc2 := .open }
  match (s.port p).tc.st with
  | .trySrc => tcEnter p .tryWaitSnk s'
  | .trySnk => tcEnter p .tryWaitSrc s'
  | _ => s

/-- tDRPTryWait: no partner in a TryWait state (R138). -/
def tcTryWait (p : PortId) (s : State) : State :=
  match (s.port p).tc.st with
  | .tryWaitSnk | .tryWaitSrc => tcUnattach p .unattachedSnk s
  | _ => s

/-- Loss of the partner (R150). -/
def tcDetachRow (p : PortId) (s : State) : State :=
  if s.tcUp && (s.port p).tc.st.isAttached then portDetach p s else s

/-- The path has not reached ON within 250 ms (R146). -/
def tcVbusLate (p : PortId) (s : State) : State :=
  if (s.port p).tc.st == .attachedSrc && (s.port p).tc.vbusCount then portErrRecovery p (tcEvt p 9 s) else s

/-- tErrorRecovery has ended (R151). -/
def tcRecoveryEnd (p : PortId) (s : State) : State :=
  if (s.port p).tc.st == .errorRecovery then tcUnattach p .unattachedSnk s else s

/-! ### VCONN (R148, R149) -/

/-- VCONN is removed from a port: the cable counts as rated 3 A and 20 V from now on. -/
def vconnCut (p : PortId) (s : State) : State :=
  let s := s.modTc p fun t => { t with vconn := false, vconnLost := true }
  let s := ((s.wr (F.TC_CABLE_I_5A p) 0).wr (F.TC_CABLE_V_50 p) 0).wr (F.TC_CABLE_EPR_OK p) 0
  let s := raiseAt .vconnOc (some p) (tcEvt p 4 s)
  pdTableChanged p (eprCheck s)

def vconnOc (p : PortId) (s : State) : State := if (s.port p).tc.vconn then vconnCut p s else s

/-- The port that turned VCONN on most recently; the higher number where two did together. -/
def State.vconnLatest (s : State) : Option PortId :=
  (allPorts.filter fun p => (s.port p).tc.vconn).foldl (fun b p =>
    match b with
    | none => some p
    | some q => if (s.port q).tc.vconnOrder ≤ (s.port p).tc.vconnOrder then some p else b) none

def vconnTotalOc (s : State) : State :=
  match s.vconnLatest with
  | some p => vconnCut p s
  | none => s

/-! ### Over-voltage (R152) -/

/-- A CC pin above 6.0 V: every termination and VCONN removed, OFF, the SBU drivers disabled, CC_FAULT, a class B fault. -/
def ccOvp (p : PortId) (s : State) : State :=
  if !s.tcUp || (s.port p).tc.st == .ccFault then s
  else
    let s := if p = PU then fcLost s else s
    let s := tcLeave p .detach .ccFault s
    let s := (if p = PU then hubDetach s else s).modCl p fun l => { l with sbuOff := true }
    raiseAt .ccOvp (some p) (tcEvt p 5 s)

/-- Both CC pins below 5.5 V for 100 ms: ERROR_RECOVERY. -/
def ccOvpClear (p : PortId) (s : State) : State :=
  if (s.port p).tc.st == .ccFault then tcRecoverNow p (s.modCl p fun l => { l with sbuOff := false }) else s

/-- An SBU pin above 6.0 V: the SBU drivers off, the Cadence Link down, a class B fault. -/
def sbuOvp (p : PortId) (s : State) : State :=
  if !s.tcUp || (s.port p).cl.sbuOff then s
  else
    let s := (linkDown p .sbuOvp .off s).modCl p fun l => { l with sbuOff := true }
    raiseAt .sbuOvp (some p) (tcEvt p 6 s)

def sbuOvpClear (p : PortId) (s : State) : State :=
  if (s.port p).tc.st == .ccFault then s else s.modCl p fun l => { l with sbuOff := false }

/-! ### Moisture (R153 to R157) -/

/-- A moisture test falls due, or is asked for (R154). -/
def moistDue (p : PortId) (s : State) : State :=
  if !(s.tcUp && s.glb.levelSet && s.rdB (F.TC_CTRL_MOIST_EN p)) then s
  else match (s.port p).tc.st with
    | .unattachedSnk | .unattachedSrc => tcEnter p .moistTest s
    | .wet => if (s.port p).tc.mstate == .dry then s else tcEnter p .moistTest s
    | .attachWaitSnk | .attachWaitSrc => s.modTc p fun t => { t with testPend := true }
    | _ => s

/-- TC_CMD.MOIST_TEST: while the port is unattached (R154). -/
def moistCmd (p : PortId) (s : State) : State :=
  match (s.port p).tc.st with
  | .unattachedSnk | .unattachedSrc | .wet => moistDue p s
  | _ => s

/-- TC_MOIST in 2.5 kΩ units, 0xFF meaning 637.5 kΩ or more. -/
def moistCode (ohm : Nat) : Nat := min 255 (ohm / 2500)

/-- A CC reading that is a termination: the Rd or the Ra band (R153). -/
def inBands (ohm : Nat) : Bool := decide (4100 ≤ ohm ∧ ohm ≤ 6100) || decide (800 ≤ ohm ∧ ohm ≤ 1200)

/-- A wet reading (R153): any pin below 500 kΩ, terminations excepted while both SBU pins are dry. -/
def moistWet (cc1 cc2 sbu1 sbu2 : Nat) : Bool :=
  let low (r : Nat) : Bool := decide (r < 500000)
  let sbu := low sbu1 || low sbu2
  sbu || (low cc1 && !inBands cc1) || (low cc2 && !inBands cc2)

/-- Ports that entered MSTATE WET within the last WIN seconds (R156). -/
def State.wetRecently (s : State) : Nat :=
  (downPorts.filter fun p => match (s.port p).tc.wetAt with
    | some t => s.within t (s.rd F.TC_MASS_CFG_WIN)
    | none => false).length

/-- A downstream port is held or shed at the declaration (R156). -/
def massPort (p : PortId) (s : State) : State :=
  let act := s.rd F.TC_MASS_CFG_ACTION
  let t := (s.port p).tc
  if t.st.isAttached then
    if 2 ≤ act && bitsOf (s.reg R.TC_MASS_CFG) (16 + p.val) 1 == 1 then portHold p .shed s else s
  else match t.st with
    | .unattachedSnk | .unattachedSrc | .attachWaitSnk | .attachWaitSrc | .trySrc | .tryWaitSnk | .trySnk | .tryWaitSrc =>
      if act = 0 || t.mstate != .dry then s
      else tcEnter p .wet (s.modTc p fun t => { t with mstate := .held })
    | _ => s

/-- Mass-wet is declared when enough ports have become wet (R156). -/
def massCheck (s : State) : State :=
  if s.mass.active || s.wetRecently < s.rd F.TC_MASS_CFG_COUNT then s
  else
    let s := { s with mass := { s.mass with active := true } }
    forEach downPorts massPort (raiseAt .massWet none s)

/-- A wet reading (R155). -/
def moistReadWet (p : PortId) (s : State) : State :=
  let now := s.tb3
  let s := { s with mass := { s.mass with lastWet := now } }
  let s := s.modTc p fun t =>
    { t with wetAt := if t.mstate == .wet then t.wetAt else some now, mstate := .wet, dryCnt := 0,
             wetCnt := if t.wetCnt = 0xFFFF then 0xFFFF else t.wetCnt + 1 }
  massCheck (tcEvt p 2 (tcEnter p (if s.tcDisabled p then .disabled else .wet) s))

/-- A dry reading (R155): the third in a row declares the port dry. -/
def moistReadDry (p : PortId) (s : State) : State :=
  let t := (s.port p).tc
  match t.mstate with
  | .wet | .drying =>
    if 2 ≤ t.dryCnt.val then
      let s := tcEvt p 3 (s.modTc p fun t => { t with mstate := .dry, dryCnt := 3 })
      tcEnter p (s.tcRest p) s
    else
      let s := s.modTc p fun t => { t with mstate := .drying, dryCnt := t.dryCnt + 1 }
      tcEnter p (s.tcRest p) s
  | .held => tcEnter p (s.tcRest p) s
  | .dry => tcUnattach p .unattachedSnk s

/-- A moisture test is complete (R153): readings in ohm. -/
def moistDone (p : PortId) (cc1 cc2 sbu1 sbu2 : Nat) (s : State) : State :=
  if (s.port p).tc.st == .moistTest then
    let s := s.setReg (R.TC_MOIST p) (atBits 24 8 (moistCode sbu2) ||| atBits 16 8 (moistCode sbu1) |||
      atBits 8 8 (moistCode cc2) ||| atBits 0 8 (moistCode cc1))
    if moistWet cc1 cc2 sbu1 sbu2 then moistReadWet p s else moistReadDry p s
  else s

/-- No downstream port is wet or drying, and 60 s have passed since the last wet reading (R157). -/
def State.massClearDue (s : State) : Bool :=
  s.mass.active && (downPorts.all fun p => (s.port p).tc.mstate != .wet && (s.port p).tc.mstate != .drying) &&
    decide (s.mass.lastWet + 60 * 32768 ≤ s.tb3)

/-- Mass-wet clears: held and shed ports return to UNATTACHED_SNK (R157). -/
def massClear (s : State) : State :=
  if s.massClearDue then
    let s := { s with mass := { s.mass with active := false } }
    let s := forEach downPorts (fun p s =>
      let s := s.modTc p fun t => { t with mstate := if t.mstate == .held then .dry else t.mstate }
      match (s.port p).tc.st with
      | .wet | .shed => tcEnter p (s.tcRest p) s
      | _ => s) s
    pushEvent 0x20 0xFF09 0 s
  else s

/-! ### TC_CMD and committed TC_CTRL -/

/-- A write of TC_CMD (R151, R154). -/
def tcCmd (p : PortId) (v : Word) (s : State) : State :=
  let s := if bitOf v 0 then portErrRecovery p s else s
  if bitOf v 1 then moistCmd p s else s

/-- A committed RP_ADV applies at once (R145). -/
def tcApplyRp (p : PortId) (s : State) : State :=
  if (s.port p).tc.st.presentsRp then s.modTc p fun t => { t with rp := s.rpAdv p } else s

end Sys2Proof.Machine
end

