-- ==== Sys2Proof/Machine/CadQueue.lean ====
section
/-! DEFINITION. The launch queues, receive rings and EP2 requests of the Cadence Link (14_cadence_queues.md): allocation,
hand-over, preparation, launch, completion, and the records the host or the register paths take. -/

namespace Sys2Proof.Machine

/-! ### Rings in the CAD region (R360) -/

/-- A run of consecutive pages for a ring. -/
def takeRun (k : Nat) (s : State) : Option Nat × State :=
  match s.freeRun 2 k with
  | none => (none, allocNone 2 s)
  | some b => (some b, (allocAvail 2 s).modSto fun x => { x with alloc := (List.range k).map (· + b) ++ x.alloc })

def freeRunOf (b k : Nat) (s : State) : State := forEach ((List.range k).map (· + b)) freePageOf s

/-- The launch queue of a port by its number, and the broadcast queue. -/
def portQ (p : PortId) : Fin 18 := ⟨p.val, by omega⟩
def broadQ : Fin 18 := 17

def qPages (q : Fin 18) : Nat := if q.val < 17 then 2 else 8

/-- A launch queue takes its pages; every count starts at 0. -/
def queueTake (q : Fin 18) (s : State) : Bool × State :=
  if (s.lq q).st != .off then (true, s)
  else
    let r := takeRun (qPages q) s
    match r.1 with
    | none => (false, r.2)
    | some b => (true, r.2.modLq q fun _ => { st := .run, base := b })

def queueFree (q : Fin 18) (s : State) : State :=
  if (s.lq q).st == .off then s
  else freeIdle (freeRunOf (s.lq q).base (qPages q) (s.modLq q fun _ => {}))

/-- The receive ring of a port takes its pages. -/
def rxTake (p : PortId) (s : State) : Bool × State :=
  if (s.port p).cl.rx.alloc then (true, s)
  else
    let r := takeRun 6 s
    match r.1 with
    | none => (false, r.2)
    | some b => (true, r.2.modCl p fun l =>
        { l with rx := { alloc := true, base := b, lost := l.rx.lost, own := l.rx.own } })

def rxFree (p : PortId) (s : State) : State :=
  let x := (s.port p).cl.rx
  if x.alloc then freeRunOf x.base 6 (s.modCl p fun l => { l with rx := { lost := x.lost, own := x.own } }) else s

/-- A port takes all it needs or nothing; with no run of pages it does not start discovery (R360). -/
def ringsTake (p : PortId) (s : State) : State :=
  let hadQ := (s.lq (portQ p)).st != .off
  let hadR := (s.port p).cl.rx.alloc
  let a := queueTake (portQ p) s
  let b := rxTake p a.2
  let c := if p.val < 16 then queueTake broadQ b.2 else (true, b.2)
  if a.1 && b.1 && c.1 then c.2
  else
    let s := if hadQ then c.2 else queueFree (portQ p) c.2
    let s := if hadR then s else rxFree p s
    raiseAt .cadNoPages (some p) (s.modCl p fun l => { l with st := .noMode, cause := .noPages })

/-- The broadcast queue is freed when no Pn is enabled and it holds nothing (R360). -/
def broadcastFree (s : State) : State :=
  if downPorts.any s.clEn || s.cad.bq.pendingCount != 0 then s else queueFree broadQ s

/-- A port's rings are freed once EN is 0 and its receive ring has been read empty (R360). -/
def ringsFree (p : PortId) (s : State) : State :=
  let x := (s.port p).cl.rx
  if s.clEn p || !x.alloc || x.wr != x.rd then broadcastFree s
  else broadcastFree (queueFree (portQ p) (completeAll (portQ p) 6 (rxFree p s)))

/-- CL_CTRL.EN takes effect as 1 (R360), or as 0 (R329, R350). -/
def clEnabled (p : PortId) (s : State) : State := ringsTake p s
def clDisabled (p : PortId) (s : State) : State := ringsFree p (cadExit p (linkDown p .disabled .off s))

/-! ### Hand-over (R364) -/

/-- REJECTED counts, and queues HOST_REJECT. -/
def cadReject (s : State) : State := cadEvt 5 (s.bump F.CAD_HOST_REJECTED)

/-- PTR_BAD of a launch queue. -/
def ptrBad (q : Fin 18) (s : State) : State :=
  match qPort q with
  | some p => clEvt p 9 s
  | none => cadEvt 4 s

/-- TAIL moves to `t`: the counts before it are handed over, after every TAIL write so far (R35, R364). -/
def handOver (q : Fin 18) (t : BitVec 16) (s : State) : State :=
  let s := s.modLq q fun l => { l with tail := t, handed := l.handed ++ [(t, s.cad.tails)] }
  s.modCad fun c => { c with tails := c.tails + 1 }

/-- A TAIL write (R364). A queue that is OFF has no entries. -/
def cadTail (q : Fin 18) (v : Word) (s : State) : State :=
  let l := s.lq q
  let t : BitVec 16 := v.truncate 16
  let room := if l.st == .off then 0 else qEntries q
  if !s.lqRegs q then cadReject s
  else if t ≠ l.tail ∧ (l.tail - l.done).toNat < (t - l.done).toNat ∧ (t - l.done).toNat ≤ room then handOver q t s
  else ptrBad q s

/-- Late frames of a queue that still wait for their wires are withdrawn. -/
def dropLaunches (q : Fin 18) (s : State) : State :=
  forEach allPorts (fun p s => s.modCl p fun l => { l with outQ := l.outQ.filter fun f => f.kind != .launch q }) s

/-- FLUSH (R370), and a committed change of OWNER (R361): every pending descriptor completes with FLUSHED. -/
def cadFlush (q : Fin 18) (s : State) : State :=
  if (s.lq q).st == .off then s
  else (dropLaunches q (completeAll q 7 s)).modLq q fun l => { l with st := .run }

/-- RESUME of a halted queue (R370). -/
def cadResume (q : Fin 18) (s : State) : State :=
  if (s.lq q).st == .halted then s.modLq q fun l => { l with st := .run } else s

/-- A write of a queue's command register: RESUME bit 0, FLUSH bit 1. -/
def cadLqCmd (q : Fin 18) (v : Word) (s : State) : State :=
  let s := if bitOf v 0 then cadResume q s else s
  if bitOf v 1 then cadFlush q s else s

/-- A move to transparent completes every pending descriptor with LINK_DOWN (R354). -/
def cadGoTransparent (s : State) : State :=
  forEach (List.finRange 18) (fun q s =>
    if (s.lq q).st == .off then s else dropLaunches q (completeAll q 6 s)) s

/-! ### Preparation (R362, R363, R366, R368) -/

def descType (w : List Word) : Nat := bitsOf (w.getD 4 0) 0 8
def descRoute (w : List Word) : Nat := bitsOf (w.getD 5 0) 0 24
def descLen (w : List Word) : Nat := bitsOf (w.getD 5 0) 24 8
def descAddr (w : List Word) : Nat := (w.getD 6 0).toNat

/-- The payload lies whole in the FREE region or in a pool slot, word-aligned (R363). -/
def State.payloadOk (s : State) (a n : Nat) : Bool :=
  decide (a % 4 = 0) &&
    (s.poolUsed.contains a ||
      (decide (a + n ≤ 512 * 1024) && s.pageRgn (a / 1024) == 6 && s.pageRgn ((a + n - 1) / 1024) == 6))

/-- Why a descriptor is bad (R363). -/
def State.descBad (s : State) (q : Fin 18) (w : List Word) : Bool :=
  let c := w.getD 0 0
  let ty := descType w
  let n := descLen w
  !bitOf c 31 || bitsOf c 29 2 == 3 || decide (64 < n) || decide (999999999 < (w.getD 1 0).toNat) ||
    ty == 1 || ty == 2 || ty == 3 || ty == 0x12 || [6, 7, 13].contains (routeMode (descRoute w)) ||
    (q.val == 17 && bitsOf c 0 16 == 0) || (decide (0 < n) && !s.payloadOk (descAddr w) n)

/-- A port is excused from the descriptor of count `c` (R372). -/
def LaunchQ.excusedFrom (l : LaunchQ) (p : PortId) (c : BitVec 16) : Bool :=
  l.excused.any fun e => e.1 = p && decide (0 < (e.2 - c).toNat ∧ (e.2 - c).toNat < 32768)

/-- The frame of a descriptor without its CRC (R338, R339, R366). -/
def State.descFrame (s : State) (q : Fin 18) (w : List Word) (seq : Nat) (payload : List Byte) : List Byte :=
  let fl := bitsOf (w.getD 4 0) 8 8 &&& 6
  let src := s.rd F.CAD_SRC_ADDR
  let up := q.val == 16 && routeMode (descRoute w) != 0
  let route := if up then s.upRoute else descRoute w
  mkFrame (descType w) fl seq route src (if q.val = 16 then 0 else s.tier + 1) 0 payload

/-- The status a descriptor takes as it reaches the head, if it is not to be sent (R363, R368, R372). -/
def State.descDead (s : State) (q : Fin 18) (w : List Word) (poison : Bool) : Option Byte :=
  let off := match qPort q with
    | some p => !s.clEn p
    | none => false
  if poison then some 5
  else if s.cadTransparent || off then some 6
  else if s.descBad q w then some 8
  else if s.tier = 0 ∧ routeMode (descRoute w) ≠ 0 then some 9
  else none

/-- A poisoned read for a launch (R297, R368). -/
def launchPoison (q : Fin 18) (s0 : State) (k n : Nat) (s : State) : State :=
  raiseFault { src := .poisonCad, port := qPort q, addr := 0x100000 + firstPoison s0 k n, req := 3, acc := 1 } s

/-- Prepares the next descriptor (R366): reads it and its payload, and builds its frame. -/
def prepareDesc (q : Fin 18) (s : State) : State :=
  let l := s.lq q
  match l.handed with
  | [] => s
  | (t, order) :: rest =>
    if l.st != .run || l.head.isSome then s
    else
      let c := l.done + BitVec.ofNat 16 l.flight.length
      let r := readDesc q c.toNat s
      let w := r.1.1
      let s := if r.1.2 then launchPoison q s (s.lqSlot q c.toNat / 4) 8 r.2 else r.2
      let auto := bitOf (w.getD 0 0) 28
      let seq := if auto then l.seq else BitVec.ofNat 16 (bitsOf (w.getD 4 0) 16 16)
      let dead := s.descDead q w r.1.2
      let n := if dead.isNone then descLen w else 0
      let pl := storeReadBytes 3 (descAddr w) n s
      let s := if pl.1.2 then launchPoison q s (descAddr w / 4) ((n + 3) / 4) pl.2 else pl.2
      let dead := if pl.1.2 then some 5 else dead
      let out := (descPorts q (w.getD 0 0)).map fun p =>
        (p, if q.val = 17 && l.excusedFrom p c then PortOutcome.linkDown else PortOutcome.waiting)
      let d : HeadDesc :=
        { words := w, seq := seq, frame := s.descFrame q w seq.toNat pl.1.1, out := out, dead := dead,
          since := s.tim.tb1, order := order }
      settleHead q (s.modLq q fun l =>
        { l with head := some d, seq := if auto then l.seq + 1 else l.seq,
                 handed := if c + 1 = t then rest else l.handed })

/-! ### Launch (R367, R369, R372) -/

/-- The head has been at the head for 20 µs or more before its time. -/
def State.headReady (s : State) (d : HeadDesc) : Bool :=
  decide (20000 + (tbNs s.tb0 - tbNs d.time) ≤ (s.tim.tb1 - d.since).toNat)

/-- Another queue names the port for the same time with an earlier TAIL write (R35, R367). -/
def State.otherFirst (s : State) (q : Fin 18) (p : PortId) (d : HeadDesc) : Bool :=
  let o : Fin 18 := if q.val < 17 then 17 else portQ p
  match (s.lq o).head with
  | some e => e.dead.isNone && e.outcome p == some .waiting && tbNs e.time == tbNs d.time && decide (e.order < d.order)
  | none => false

/-- The wire holds a launch, SYNC, DELAY_REQ or BELL, or one of the timed frames is due before the launch would end. -/
def State.wireBusy (s : State) (p : PortId) (d : HeadDesc) : Bool :=
  let n := tbNs s.tb0 + frameNs (s.port p).cl.ver.val (d.frame.length + 4)
  (match (s.port p).cl.wire with
   | some f => decide (f.kind.cls ≤ 2)
   | none => false) ||
    (decide (p.val < 16) && s.sendsSync && decide (s.nextSync < n)) ||
    (p = PU && s.cad.xs.any fun x => x.t3.isNone && decide (tbNs x.due < n))

/-- A late port under the descriptor's policy (R369). -/
def lateLaunch (q : Fin 18) (p : PortId) (d : HeadDesc) (s : State) : State :=
  let set (o : PortOutcome) (s : State) : State := s.modLq q fun l => { l with head := l.head.map (setOutcome p o) }
  match d.late with
  | 0 => set .lateDropped s
  | 1 => cadPump p ((set .sendLate s).modCl p fun l =>
      { l with outQ := l.outQ ++ [{ kind := .launch q, bytes := d.frame }] })
  | _ => set .lateError s

/-- One port of a launch; a forwarded frame gives way and is sent again (R340, R367). -/
def launchPort (q : Fin 18) (d : HeadDesc) (p : PortId) (s : State) : State :=
  match (s.port p).cl.st with
  | .up =>
    if s.headReady d && !s.otherFirst q p d && !s.wireBusy p d then
      let s := cadAbort p s
      let s := s.modLq q fun l =>
        { l with head := l.head.map fun h => { setOutcome p (.onWire false) h with actual := some s.tb0 } }
      s.modCl p fun l => { l with wire := some { kind := .launch q, bytes := sealFrame false d.frame } }
    else lateLaunch q p d s
  | .retrain => lateLaunch q p d s
  | _ => s.modLq q fun l => { l with head := l.head.map (setOutcome p .linkDown) }

/-- The launch time of the head has come (R367): every port of its mask that waits launches, is late or is down. -/
def launchHead (q : Fin 18) (s : State) : State :=
  match (s.lq q).st, (s.lq q).head with
  | .run, some d =>
    if d.dead.isNone && tbLe d.time s.tb0 then
      let ports := (d.out.filter fun e => e.2 == .waiting).map Prod.fst
      let s := forEach ports (launchPort q d) s
      let err : Bool := match (s.lq q).head with
        | some h => h.out.any fun e => e.2 == .lateError && ports.contains e.1
        | none => false
      settleHead q (if err then lateFault q s else s)
    else s
  | _, _ => s

/-- The frame of a descriptor has left port `p` whole (R362, R369). -/
def launchDone (q : Fin 18) (p : PortId) (s : State) : State :=
  modOutcome q p PortOutcome.isOnWire (fun o => if o == .onWire true then .lateSent else .onTime) s

/-- The oldest descriptor in flight completes once its outcome is known (R371). -/
def descDone (q : Fin 18) (s : State) : State :=
  match (s.lq q).flight with
  | [] => s
  | d :: _ => if d.ready then completeFlight q s else s

/-! ### Receive rings (R373, R374) -/

/-- A record (R373): the frame without its CRC, stamped. -/
def rxRecord (p : PortId) (x : RxRing) (t : TbTime) (l : List Byte) : List Byte :=
  let info := atBits 31 1 (b2n x.lost) ||| atBits 30 1 (b2n x.retrained) ||| atBits 24 5 p.val |||
    atBits 16 7 (frLen l) ||| atBits 0 16 x.wr.toNat
  (wordBytes info ++ leBytes 4 t.ns ++ leBytes 4 (t.sec % 2 ^ 32) ++ l ++ List.replicate 96 0).take 96

/-- Delivers a frame to a port's receive ring; a full ring drops it (R374). -/
def rxDeliver (p : PortId) (t : TbTime) (l : List Byte) (s : State) : State :=
  let x := (s.port p).cl.rx
  if !x.alloc then s
  else if 64 ≤ (x.wr - x.rd).toNat then
    clEvt p 8 ((s.bump (F.CL_RX_LOST_LOST p)).modCl p fun c => { c with rx := { c.rx with lost := true } })
  else
    let a := x.base * 1024 + x.wr.toNat % 64 * 96
    (s.storeWords a (bytesWords 24 (rxRecord p x t l))).modCl p fun c =>
      { c with rx := { c.rx with wr := x.wr + 1, lost := false, retrained := false } }

/-- A write of CL_RX_RD (R374); ignored while the host owns the ring. -/
def cadRxRd (p : PortId) (v : Word) (s : State) : State :=
  let x := (s.port p).cl.rx
  let t : BitVec 16 := v.truncate 16
  if !x.own then s
  else if t ≠ x.rd ∧ (t - x.rd).toNat ≤ (x.wr - x.rd).toNat then
    ringsFree p (s.modCl p fun l => { l with rx := { l.rx with rd := t } })
  else clEvt p 9 s

/-- RD moves past a record, and past those released before their turn. -/
def RxRing.advance (x : RxRing) : Nat → RxRing
  | 0 => x
  | n + 1 =>
    let y := { x with rd := x.rd + 1, skip := x.skip.filter (· ≠ x.rd) }
    if y.skip.contains y.rd then y.advance n else y

/-- The host has taken a receive record whole: RD advances (R378). -/
def rxRelease (p : PortId) (s : State) : State :=
  ringsFree p (rxOwn p (s.modCl p fun l => { l with rx := l.rx.advance 64 }))

/-- A completion record is released: its descriptor slot and payload slot are free (R378). -/
def completionFree (c : Completion) (s : State) : State :=
  match c.slot with
  | none => s
  | some (q, n) => freeIdle (s.modLq q fun l => { l with pool := l.pool.filter fun e => e.1 ≠ n })

/-- The oldest completion record is released. -/
def completionRelease (s : State) : State :=
  match s.cad.completions with
  | [] => s
  | c :: rest => completionFree c (s.modCad fun x => { x with completions := rest })

/-! ### EP2 requests (R375, R376) -/

/-- Consumes bytes of an OUT ring and the packets they fill. -/
def popPackets : List Nat → Nat → List Nat × Nat
  | [], part => ([], part)
  | n :: l, part => if n ≤ part then popPackets l (part - n) else (n :: l, part)

/-- Takes `n` bytes from an OUT ring. -/
def epTakeOut (e : Fin 7) (n : Nat) (s : State) : State :=
  (epDrop e n s).modEp e fun b =>
    let r := popPackets b.xfers (b.part + n)
    { b with xfers := r.1, part := r.2 }

/-- Copies `n` words from the EP2 OUT ring to a store word, poison with them (R298). -/
def ep2Copy (off k : Nat) : Nat → State → State
  | 0, s => s
  | n + 1, s =>
    let r := epPeek 3 off 4 s
    ep2Copy (off + 4) (k + 1) n (storeWrite k (BitVec.ofNat 32 (leNat r.1.1)) r.1.2 r.2)

/-- Packets of the EP2 OUT ring up to and including the first short one: their bytes, and whether there is one. -/
def discardLen (max : Nat) : List Nat → Nat × List Nat × Bool
  | [] => (0, [], false)
  | n :: l => if n < max then (n, l, true) else
    let r := discardLen max l
    (n + r.1, r.2.1, r.2.2)

/-- A request that cannot be taken apart (R376). -/
def ep2Malformed (s : State) : State :=
  let b := s.ep 3
  let r := discardLen s.maxPacket b.xfers
  let s := (epDrop 3 (min b.fill (r.1 - b.part)) s).modEp 3 fun b => { b with xfers := r.2.1, part := 0 }
  let s := s.modCad fun c => { c with ep2Discard := !r.2.2 }
  let f := s.fresh
  let g := f.2.fresh
  let rec_ := leBytes 1 0xFF ++ leBytes 1 8 ++ wordBytes f.1 ++ leBytes 2 g.1.toNat ++ List.replicate 16 0
  cadReject (pushCompletion rec_ none g.2)

/-- A request that completes at once (R376): the record names its queue and COOKIE; it has no descriptor, so no count. -/
def ep2AtOnce (q status cookie size : Nat) (s : State) : State :=
  let f := s.fresh
  pushCompletion (completionRecord q status cookie (f.1.toNat % 2 ^ 16) (f.1.toNat / 2 ^ 16) ⟨0, 0⟩ 0 0) none
    (epTakeOut 3 size f.2)

/-- Descriptor slots of a host's queue that are not free: pending ones, and those whose records are unreleased. -/
def State.slotsHeld (s : State) (q : Fin 18) : Nat :=
  (s.lq q).pendingCount + (s.cad.completions.filter fun c => match c.slot with
    | some e => e.1 = q
    | none => false).length

/-- The request becomes the descriptor at TAIL; its payload lies in pool slot `a`. -/
def ep2Queue (q : Fin 18) (a : Option Nat) (len size : Nat) (s : State) : State :=
  let c := (s.lq q).tail
  let k := s.lqSlot q c.toNat / 4
  let s := match a with
    | some a => (ep2Copy 36 (a / 4) ((len + 3) / 4) s).modLq q fun l => { l with pool := l.pool ++ [(c, a)] }
    | none => s
  let s := ep2Copy 4 k 8 s
  let w := s.cell k
  let s := s.setCell k { w with data := putBits (putBits w.data 31 1 1) 16 8 0 }
  let s := storeWrite (k + 6) (BitVec.ofNat 32 (a.getD 0)) false s
  let s := storeWrite (k + 7) 0 false s
  epTakeOut 3 size (handOver q (c + 1) s)

/-- The queue a request names. -/
def reqQueue (n : Nat) : Option (Fin 18) := if h : n < 18 then some ⟨n, h⟩ else none

/-- A whole request for queue `q` is taken, waits, or completes at once (R376). -/
def ep2Take (q : Fin 18) (cookie len size : Nat) (s : State) : State :=
  if s.lqRegs q then ep2AtOnce q.val 0x0A cookie size s
  else if (s.lq q).st == .off then ep2AtOnce q.val 6 cookie size s
  else if qEntries q ≤ s.slotsHeld q then s
  else if len = 0 ∨ 64 < len then ep2Queue q none 0 size s
  else
    let r := takePoolSlot s
    match r.1 with
    | none => r.2
    | some a => ep2Queue q (some a) len size r.2

/-- SIZE that a payload length requires (R375). -/
def reqSize (len : Nat) : Nat := (36 + len + 3) / 4 * 4

/-- The oldest request on EP2 OUT (R375, R376). -/
def ep2Request (s : State) : State :=
  let n := (s.ep 3).fill
  if n < 4 then s
  else
    let h := epPeek 3 0 (min n 28) s
    match reqQueue (leAt h.1.1 0 1) with
    | none => ep2Malformed h.2
    | some q =>
      if n < 28 then s
      else if leAt h.1.1 2 2 ≠ reqSize (leAt h.1.1 27 1) then ep2Malformed h.2
      else if n < leAt h.1.1 2 2 then s
      else ep2Take q (leAt h.1.1 18 2) (leAt h.1.1 27 1) (leAt h.1.1 2 2) h.2

end Sys2Proof.Machine
end

