-- ==== Sys2Proof/Machine/CadAct.lean ====
section
/-! DEFINITION. The Cadence Link's actions (13_cadence_link.md R322 to R359): mode discovery, training and retrains, receive
checks and routing, SYNC and the DELAY exchange, the frames the hub answers, and the end of a frame on a wire. -/

namespace Sys2Proof.Machine

/-! ### Mode discovery by Pn (R322, R323, R326) -/

/-- The conditions of R322. -/
def State.mayDiscover (s : State) (p : PortId) : Bool :=
  let x := s.port p
  p.val < 16 && s.coreUp && s.img.svid.isSome && s.clEn p && s.glb.level != 0 && x.pd.contract.isSome &&
    (x.pd.discDone || x.pd.discCount == 0) && !x.cl.sbuOff && x.cl.rx.alloc && x.cl.st == .off && !x.cl.entered &&
    !x.cl.exiting

/-- The command of a discovery step: SVID, object position, command and VDOs (R322, R326). -/
def discSend (p : PortId) (s : State) : State :=
  let l := (s.port p).cl
  match l.disc with
  | .identity => startVdm p 0xFF00 0 1 [] s
  | .svids => startVdm p 0xFF00 0 2 [] s
  | .modes => startVdm p s.cadSvid 0 3 [] s
  | .enter => startVdm p s.cadSvid l.objPos.val 4 [0xCD000000 ||| atBits 16 2 (s.selVer p 2).val] s

def cadDiscover (p : PortId) (s : State) : State :=
  if s.mayDiscover p then
    discSend p (s.modCl p fun l => { l with st := .discover, disc := .identity, busy := 0 })
  else s

/-- NO_MODE with a cause (R323). -/
def noMode (p : PortId) (c : LCause) (s : State) : State := s.modCl p fun l => { l with st := .noMode, cause := c }

/-- The next step of discovery. -/
def discNext (p : PortId) (d : DiscStep) (s : State) : State :=
  discSend p (s.modCl p fun l => { l with disc := d, busy := 0 })

/-- A Mode VDO is valid: SIG 0xCD and version 1 (R323, R325). -/
def modeVdoOk (w : Word) : Bool := bitsOf w 24 8 == 0xCD && bitOf w 16

/-- The mode is entered: training starts (R346). -/
def cadEntered (p : PortId) (ver : Fin 3) (s : State) : State :=
  cadTrain p ver (s.modCl p fun l => { l with entered := true, fails := 0, everLocked := false })

/-- The partner's Mode VDO is recorded (R325). -/
def setPartner (p : PortId) (w : Word) (s : State) : State :=
  (s.setReg (R.CL_PARTNER p) w).modPd p fun x => { x with tandemVdo := bitOf w 11 }

/-- An ACK to the present step (R323). -/
def discAck (p : PortId) (vdos : List Word) (s : State) : State :=
  match (s.port p).cl.disc with
  | .identity => discNext p .svids s
  | .svids =>
    if (vdos.flatMap fun w => [bitsOf w 16 16, bitsOf w 0 16]).contains s.cadSvid then discNext p .modes s
    else noMode p .noSvid s
  | .modes =>
    match (List.range vdos.length).find? fun k => modeVdoOk (vdos.getD k 0) with
    | some k =>
      discNext p .enter (setPartner p (vdos.getD k 0) (s.modCl p fun l => { l with objPos := Fin.ofNat 8 (k + 1) }))
    | none => noMode p .badVdo s
  | .enter => cadEntered p (s.selVer p 2) s

/-- A response to a discovery command, or to Exit Mode (R323, R329). -/
def cadResponse (p : PortId) (a : VdmAnswer) (s : State) : State :=
  let l := (s.port p).cl
  if !s.coreUp then s
  else if l.exiting then
    match a with
    | .ack _ => s.modCl p fun l => { l with exiting := false, entered := false }
    | _ => s
  else if l.st != .discover then s
  else match a with
    | .ack vdos => discAck p vdos s
    | .busy => if 5 ≤ l.busy then noMode p .nak s else s.modCl p fun l => { l with busy := l.busy + 1 }
    | .nak => noMode p .nak s

/-- No response within 30 ms (R323). -/
def cadNoResponse (p : PortId) (s : State) : State :=
  if s.coreUp && (s.port p).cl.st == .discover then noMode p .noResponse s else s

/-- 50 ms after BUSY (R323). -/
def cadBusyRetry (p : PortId) (s : State) : State :=
  if s.coreUp && (s.port p).cl.st == .discover && (s.port p).cl.busy != 0 then discSend p s else s

/-- 30 ms after Exit Mode without ACK (R329). -/
def cadExitTimeout (p : PortId) (s : State) : State :=
  if (s.port p).cl.exiting then s.modCl p fun l => { l with exiting := false, entered := false } else s

/-- CL_CMD.ENTER after NO_MODE (R323). A port without its rings stays in NO_MODE (R360). -/
def cadEnterCmd (p : PortId) (s : State) : State :=
  if (s.port p).cl.st == .noMode && (s.port p).cl.rx.alloc then s.modCl p fun l => { l with st := .off } else s

/-! ### PU as responder (R324) -/

/-- The hub answers on PU, having received a message. -/
def puAnswer (ack : Bool) (svid obj cmd : Nat) (vdos : List Word) : State → State :=
  pdRx PU false fun s => sendVdm PU svid obj (if ack then 1 else 2) cmd (if ack then vdos else []) s

/-- Discover Identity. The bits of the ID Header and the Cert Stat VDO that R324 does not give are free values. -/
def cadIdentity (s : State) : State :=
  let f := s.fresh
  let g := f.2.fresh
  let hdr := putBits (putBits (putBits f.1 27 3 1) 26 1 1) 0 16 s.img.vid.toNat
  puAnswer true 0xFF00 0 1 [hdr, g.1, atBits 16 16 s.img.pid.toNat ||| atBits 0 16 s.img.bcd.toNat] g.2

/-- The link can be entered on PU. -/
def State.puCad (s : State) : Bool := s.img.svid.isSome && s.clEn PU

def cadSvids (s : State) : State := puAnswer s.puCad 0xFF00 0 2 [atBits 16 16 s.cadSvid] s

/-- The hub's own Mode VDO (R325). -/
def State.ownModeVdo (s : State) : Word := if s.maxVer = 2 then 0xCD033400 else 0xCD013400

def cadModes (s : State) : State := puAnswer s.puCad s.cadSvid 0 3 [s.ownModeVdo] s

/-- Enter Mode (R324, R326): training starts at the GoodCRC of the ACK. -/
def cadEnterRx (vdo : Word) (s : State) : State :=
  let v := bitsOf vdo 16 2
  let ok := s.puCad && (s.port PU).cl.rx.alloc && decide (1 ≤ v ∧ v ≤ s.maxVer)
  let s := puAnswer ok s.cadSvid 1 4 [] s
  if ok && s.coreUp then s.modCl PU fun l => { l with enterVer := Fin.ofNat 3 v, objPos := 1 } else s

/-- The GoodCRC of a message on PU: of the Enter Mode ACK, it enters the mode (R346). -/
def cadSent (p : PortId) (m : Option PdMsg) (s : State) : State :=
  match m with
  | some (.vdm (h :: _)) =>
    if p = PU && bitsOf h 6 2 == 1 && bitsOf h 0 5 == 4 && (s.port PU).cl.enterVer != 0 then
      cadEntered PU (s.port PU).cl.enterVer (s.modCl PU fun l => { l with enterVer := 0 })
    else s
  | _ => s

/-- Exit Mode received (R324, R329, R350). -/
def cadExitRx (p : PortId) : State → State :=
  pdRx p false fun s =>
    (linkDown p .exitMode .off (sendVdm p s.cadSvid (s.port p).cl.objPos.val 1 5 [] s)).modCl p fun l =>
      { l with entered := false, exiting := false, ver := 0 }

/-- Attention received on Pn (R328). -/
def cadAttentionRx (p : PortId) (vdo : Word) : State → State :=
  pdRx p false fun s =>
    let l := (s.port p).cl
    if l.st == .up && bitsOf vdo 24 8 == 0xCD && bitOf vdo 8 then
      let v := bitsOf vdo 16 2
      cadRetrain p (if v = 1 ∨ v = 2 then s.selVer p v else l.ver) s
    else s

/-- 100 ms after an Attention the parent has not answered (R327, R347). -/
def cadAttentionAgain (s : State) : State :=
  match (s.port PU).cl.attention with
  | some v => if s.coreUp && (s.port PU).cl.st.live then cadAttention v s else s
  | none => s

/-! ### Training and retrains (R346 to R349) -/

/-- The payload of a training ECHO: "CADENCE-TRAIN-01". -/
def trainText : List Byte := [0x43, 0x41, 0x44, 0x45, 0x4E, 0x43, 0x45, 0x2D, 0x54, 0x52, 0x41, 0x49, 0x4E, 0x2D, 0x30, 0x31]

/-- HOP of a frame the hub originates on a port (R338, R339). -/
def State.ownHop (s : State) (p : PortId) : Nat := if p.val < 16 then s.tier + 1 else 0

/-- A LINK ECHO for a training step. -/
def trainFrame (p : PortId) (flags : Nat) (seq : BitVec 16) (payload : List Byte) (s : State) : State :=
  cadQueueOwn p .train (mkFrame 0x3F flags seq.toNat 0 (s.rd F.CAD_SRC_ADDR) (s.ownHop p) 0 payload) s

/-- The DFP sends a training ECHO; its SEQ is open. -/
def trainEcho (p : PortId) (s : State) : State :=
  let f := s.fresh
  trainFrame p 4 (f.1.truncate 16) trainText (f.2.modCl p fun l => { l with trainSeq := f.1.truncate 16 })

/-- 16 consecutive K28.5 lock a receiver (R346). -/
def cadLock (p : PortId) (s : State) : State :=
  let l := (s.port p).cl
  if s.coreUp && (l.st == .train || l.st == .retrain) && !l.locked then
    let s := s.modCl p fun l => { l with locked := true, everLocked := true }
    if p.val < 16 then trainEcho p s else s
  else s

/-- The link is UP (R346); the tier is unknown until a SYNC has arrived (R336). -/
def cadUp (p : PortId) (s : State) : State :=
  let re := (s.port p).cl.st == .retrain
  let s := s.modCl p fun l =>
    { l with st := .up, fails := 0, attention := none, rx := { l.rx with retrained := l.rx.retrained || re } }
  let s := if p = PU && !re && !s.cadRoot then setTier 0 (s.modCad fun c => { c with tooDeep := false }) else s
  cadPump p (if re then s else clEvt p 0 s)

/-- A frame that arrives during training (R346): the UFP answers the ECHO, the DFP counts correct echoes. -/
def trainRx (p : PortId) (ok : Bool) (l : List Byte) (s : State) : State :=
  let c := (s.port p).cl
  let link := ok && frType l == 0x3F && routeMode (frRoute l) == 0
  if p.val < 16 then
    if !c.locked then s
    else if link && !frFlag l 2 && frPayload l == trainText && frSeq l == c.trainSeq.toNat then
      if c.echoes.val = 2 then trainFrame p 0 c.trainSeq [] (s.modCl p fun c => { c with echoes := 3 })
      else trainEcho p (s.modCl p fun c => { c with echoes := c.echoes + 1 })
    else trainEcho p (s.modCl p fun c => { c with echoes := 0 })
  else if link && frFlag l 2 then
    if c.locked then trainFrame p 0 (BitVec.ofNat 16 (frSeq l)) (frPayload l) s else s
  else if link && frLen l == 0 then cadUp p s
  else s

/-- FAILED (R346): LINK_DOWN, a class C fault, and Exit Mode by Pn. -/
def cadFail (p : PortId) (s : State) : State :=
  let c := if (s.port p).cl.everLocked then LCause.noEcho else .noLock
  cadExit p (raiseAt .cadFailed (some p) (linkDown p c .failed s))

/-- An attempt that is not UP within 10 ms (R346). -/
def cadAttemptFail (p : PortId) (s : State) : State :=
  let l := (s.port p).cl
  if !s.coreUp || l.st != .train then s
  else
    let s := s.modCl p fun l => { l with fails := l.fails + 1, wire := none,
                                         outQ := l.outQ.filter fun f => f.kind != .train }
    if 2 ≤ l.fails.val then cadFail p s else cadTrain p 1 s

/-- Loss of lock while UP (R347). -/
def cadLostLock (p : PortId) (s : State) : State :=
  let l := (s.port p).cl
  if !s.coreUp || l.st != .up then s
  else if p.val < 16 then cadRetrain p l.ver s
  else cadAttention l.ver s

/-- The retrain ordered set on PU (R348). -/
def cadRetrainRx (ver : Fin 3) (s : State) : State :=
  if s.coreUp && ((s.port PU).cl.st == .up || (s.port PU).cl.st == .retrain) then cadRetrain PU ver s else s

/-- A retrain that is not UP within 10 ms takes the link down; training follows (R349). -/
def cadRetrainFail (p : PortId) (s : State) : State :=
  let l := (s.port p).cl
  if s.coreUp && l.st == .retrain then
    cadTrain p l.ver ((linkDown p .retrainFail .train s).modCl p fun l => { l with fails := 0, everLocked := false })
  else s

/-- CL_CMD.RETRAIN (R348). -/
def cadRetrainCmd (p : PortId) (s : State) : State :=
  if p.val < 16 && (s.port p).cl.st == .up then cadRetrain p (s.port p).cl.ver s else s

/-- The lines have returned with the mode still entered: training restarts, without VDMs (R350). -/
def cadReturn (p : PortId) (s : State) : State :=
  let l := (s.port p).cl
  if l.entered && l.st == .off && !l.sbuOff && !l.exiting then
    cadTrain p (if p.val < 16 then s.selVer p 2 else if s.maxVer = 2 then 2 else 1)
      (s.modCl p fun l => { l with fails := 0, everLocked := false })
  else s

/-! ### Received frames: checks and forwarding (R335 to R341) -/

/-- What a receiver found (R335): CODE, FORMAT, CRC, POISON, or a good frame. -/
inductive RxCheck where
  | code | format | crc | poison | good
  deriving DecidableEq, Repr

def rxCheck (codeOk : Bool) (b : List Byte) : RxCheck :=
  if !codeOk then .code
  else if b.length < 22 || decide (64 < frLen b) || b.length != 22 + frLen b then .format
  else if frFlag b 0 then .poison
  else if (crc32 (b.take (b.length - 4))).toNat != leAt b (b.length - 4) 4 then .crc
  else .good

def knownType (t : Nat) : Bool := [0x01, 0x02, 0x03, 0x10, 0x11, 0x12, 0x20, 0x30, 0x3F].contains t

/-- A routing rule is broken (R335). -/
def routeErr (p : PortId) (s : State) : State := s.bump (F.CL_ERR1_CODE_ROUTE p)

/-- Delivery to a receive ring; an unknown TYPE is dropped and counted (R335). -/
def cadDeliver (p : PortId) (t : TbTime) (l : List Byte) (s : State) : State :=
  if knownType (frType l) then rxDeliver p t l s else s.bump (F.CL_ERR1_FORMAT_UNKNOWN p)

/-- The class of a forwarded frame (R340). -/
def fwdKind (l : List Byte) : FrameKind := if frFlag l 1 || frFlag l 3 then .fwdUrgent else .other

/-- Sends a frame on a port: queued while UP or in RETRAIN, else dropped and counted there (R338). -/
def cadSendOn (p : PortId) (rx1 : BitVec 64) (l : List Byte) (s : State) : State :=
  match (s.port p).cl.st with
  | .up | .retrain => cadQueue p (fwdKind l) (frFlag l 3) rx1 l s
  | _ => s.bump (F.CL_ERR1_CRC_NO_ROUTE p)

/-- The downstream links a frame for every member goes to. -/
def State.fanOut (s : State) (f : PortId → Bool) : List PortId :=
  downPorts.filter fun p => f p && ((s.port p).cl.st == .up || (s.port p).cl.st == .retrain)

/-- Whether a port is a member of group `g` (R338). -/
def State.inGroup (s : State) (g : Nat) (p : PortId) : Bool := bitOf (s.reg (R.CL_GRP p (g / 32))) (g % 32)

/-- The frame as sent on: HOP one more. -/
def hopUp (l : List Byte) : List Byte := frPut l 11 1 ((frHop l + 1) % 256)

/-- An ECHO answered (R344): `route` and `hop` of the reply on port `p`. -/
def echoReply (p : PortId) (route hop : Nat) (l : List Byte) (s : State) : State :=
  cadSendOn p 0 (mkFrame 0x3F 0 (frSeq l) route (s.rd F.CAD_SRC_ADDR) hop 0 (frPayload l)) s

/-- A frame that ends at this hub by the downlink rules: an ECHO with ACKREQ is answered, the rest delivered. -/
def puEnds (t : TbTime) (l : List Byte) (s : State) : State :=
  if frType l == 0x3F && frFlag l 2 then echoReply PU (if routeMode (frRoute l) = 0 then 0 else s.upRoute) 0 l s
  else cadDeliver PU t l s

/-- GROUP or BROADCAST (R338): every member port, and a copy to the PU ring. -/
def puFan (f : PortId → Bool) (t : TbTime) (rx1 : BitVec 64) (l : List Byte) (s : State) : State :=
  let s := if s.rdB (F.CL_CTRL_RX_BCAST PU) then cadDeliver PU t l s else s
  forEach (s.fanOut f) (fun p => cadSendOn p rx1 (hopUp l)) s

/-! ### SYNC and DELAY (R336, R351 to R356) -/

/-- The DELAY_REQ launch time (R353): the first whole microsecond at least 1 ms after the stamp. -/
def delayDue (t : TbTime) : TbTime := tbOfNs ((tbNs t + 1000000 + 999) / 1000 * 1000)

/-- A SYNC on PU (R336, R351). -/
def syncRx (t : TbTime) (rx1 : BitVec 64) (l : List Byte) (s : State) : State :=
  let h := frHop l
  if s.cadRoot || routeMode (frRoute l) != 0xF || frLen l != 16 || h = 0 then routeErr PU s
  else if 5 < h then
    raiseAt .cadTooDeep none (cadEvt 1 (setTier 0 (s.modCad fun c => { c with tooDeep := true })))
  else
    let s := setTier (Fin.ofNat 6 h) (s.modCad fun c => { c with tooDeep := false })
    if s.cadSync then
      let y := frPayload l
      s.modCad fun c =>
        { c with syncUndisc := (beAt y 10 1).testBit 0, syncAbsent := false,
                 xs := c.xs ++ [{ t1 := ⟨beAt y 0 6, beAt y 6 4⟩, c1 := BitVec.ofNat 48 (frCorr l), t2 := t,
                                  due := delayDue t }] }
    else puFan (fun _ => true) t rx1 l s

/-- The exchange record PU.CL_XS_* (R353). -/
def xsWrite (x : Exchange) (t3 t4 : TbTime) (c2 : Nat) (s : State) : State :=
  let time (a : Nat) (t : TbTime) (s : State) : State :=
    ((s.setReg a (BitVec.ofNat 32 (t.sec / 2 ^ 32 % 2 ^ 16))).setReg (a + 4) (BitVec.ofNat 32 t.sec)).setReg (a + 8)
      (BitVec.ofNat 32 t.ns)
  let corr (a c : Nat) (s : State) : State :=
    (s.setReg a (BitVec.ofNat 32 c)).setReg (a + 4) (BitVec.ofNat 32 (c / 2 ^ 32 % 2 ^ 16))
  let s := corr R.CL_XS_C1_LO x.c1.toNat (time R.CL_XS_T1_SHI x.t1 s)
  let s := time R.CL_XS_T4_SHI t4 (time R.CL_XS_T3_SHI t3 (time R.CL_XS_T2_SHI x.t2 s))
  corr R.CL_XS_C2_LO c2 s

def xsMiss (s : State) : State := s.bump F.CL_XS_STAT_MISS

/-- A DELAY_RESP that ends at a synchronized hub (R353). -/
def delayRespRx (l : List Byte) (s : State) : State :=
  let y := frPayload l
  match s.cad.xs.find? fun x => x.t3.isSome && x.seq.toNat == beAt y 10 2 with
  | none => xsMiss s
  | some x =>
    let s := s.modCad fun c => { c with xs := c.xs.filter (· ≠ x) }
    let s := xsWrite x (x.t3.getD ⟨0, 0⟩) ⟨beAt y 0 6, beAt y 6 4⟩ (frCorr l) s
    clEvt PU 4 (s.bumpWrap F.CL_XS_STAT_DONE)

/-- A DELAY_REQ answered by a root or synchronized hub (R352); `route` as this hub finished it. -/
def delayAnswer (p : PortId) (t : TbTime) (route : Nat) (l : List Byte) (s : State) : State :=
  let y := beBytes 6 t.sec ++ beBytes 4 t.ns ++ beBytes 2 (frSeq l) ++ beBytes 4 0
  let f := mkFrame 0x03 0 s.cad.seqResp.toNat route (s.rd F.CAD_SRC_ADDR) (s.tier + 1) (frCorr l) y
  cadSendOn p 0 f (s.modCad fun c => { c with seqResp := c.seqResp + 1 })

/-! ### Routing (R338, R339, R359) -/

/-- A BELL on PU (R359). -/
def bellRx (t : TbTime) (rx1 : BitVec 64) (l : List Byte) (s : State) : State :=
  let s := clEvt PU 5 (cadDeliver PU t l s)
  forEach (s.fanOut fun _ => true) (fun p => cadSendOn p rx1 (hopUp l)) s

/-- A PATH frame on PU: to a device (`hub` false) or to a hub (R338). -/
def puPath (hub : Bool) (d : Nat) (t : TbTime) (rx1 : BitVec 64) (l : List Byte) (s : State) : State :=
  let h := s.tier
  if h = 0 then routeErr PU s
  else if h ≤ d then cadSendOn (Fin.ofNat 17 (routeNib (frRoute l) h)) rx1 (hopUp l) s
  else if hub && h == d + 1 then
    if frType l == 0x03 && s.cadSync then delayRespRx l s else puEnds t l s
  else routeErr PU s

/-- A downlink frame (R338). -/
def downRx (t : TbTime) (rx1 : BitVec 64) (l : List Byte) (s : State) : State :=
  let h := s.tier
  let r := frRoute l
  let m := routeMode r
  if frType l == 0x01 then syncRx t rx1 l s
  else if frType l == 0x02 || (h != 0 && frHop l != h) then routeErr PU s
  else if frType l == 0x12 then bellRx t rx1 l s
  else if m = 0 then puEnds t l s
  else if m ≤ 5 then puPath false m t rx1 l s
  else if 8 ≤ m ∧ m ≤ 12 then puPath true (m - 8) t rx1 l s
  else if m = 14 then
    if h = 0 then routeErr PU s else puFan (s.inGroup (routeNib r 1 * 16 + routeNib r 2)) t rx1 l s
  else if m = 15 then puFan (fun _ => true) t rx1 l s
  else routeErr PU s

/-- Whether an uplink MODE is accepted at tier `h` (R339). -/
def upAccepted (h m : Nat) : Bool :=
  h != 0 && (m == 15 || (decide (1 ≤ m ∧ m ≤ 5) && decide (h < m)) || (decide (8 ≤ m ∧ m ≤ 13) && decide (h ≤ m - 8)))

/-- The ROUTE of an accepted uplink frame as this hub finishes it (R339). -/
def upFinish (p : PortId) (h r : Nat) : Nat :=
  let r := routePut r h p.val
  if routeMode r = 15 then r - 15 + h else r

/-- An uplink frame (R339). -/
def upRx (p : PortId) (t : TbTime) (rx1 : BitVec 64) (l : List Byte) (s : State) : State :=
  let h := s.tier
  let m := routeMode (frRoute l)
  let echo := frType l == 0x3F && frFlag l 2
  if frType l == 0x01 then routeErr p s
  else if m = 0 then
    if echo then echoReply p 0 (s.tier + 1) l s else cadDeliver p t l s
  else if !upAccepted h m then routeErr p s
  else
    let r := upFinish p h (frRoute l)
    let f := hopUp (frPut l 4 3 r)
    if frType l == 0x02 && !s.cadTransparent then delayAnswer p t r l s
    else if s.cadRoot then
      if echo then echoReply p r (s.tier + 1) l s else cadDeliver p t l s
    else
      let s := if s.cadSync && s.rdB F.CAD_CTRL_UP_COPY && frType l != 0x02 then cadDeliver p t l s else s
      cadSendOn PU rx1 f s

/-- A frame whose K29.7 has just been received: its stamps lie a frame time back (R331). -/
def cadRx (p : PortId) (codeOk : Bool) (b : List Byte) (s : State) : State :=
  let c := (s.port p).cl
  if !s.coreUp || !c.st.live then s
  else
    let d := frameNs c.ver.val b.length
    let t := tbOfNs (tbNs s.tb0 - d)
    let rx1 := s.tim.tb1 - BitVec.ofNat 64 d
    let l := b.take (b.length - 4)
    let k := rxCheck codeOk b
    let s := match k with
      | .code => s.bump (F.CL_ERR0_CODE_ROUTE p)
      | .format => s.bump (F.CL_ERR0_FORMAT_UNKNOWN p)
      | .crc => s.bump (F.CL_ERR0_CRC_NO_ROUTE p)
      | .poison => clEvt p 3 (s.bump (F.CL_ERR0_POISON_FWD_DROP p))
      | .good => s
    if c.st != .up then trainRx p (k == .good) l s
    else if k != .good then s
    else if p.val < 16 then upRx p t rx1 l s
    else downRx t rx1 l s

/-- A good frame of one type on a port; other frames are not this command's. -/
def cadRxOf (ty : Nat) (p : PortId) (b : List Byte) (s : State) : State :=
  if frType b = ty then cadRx p true b s else s

/-! ### Sending at set times, and the end of a frame -/

/-- SFLAGS.UNDISC (R355). -/
def State.undiscFlag (s : State) : Bool := s.tim.undisc || (s.cadSync && (s.cad.syncUndisc || s.cad.syncAbsent))

/-- The SYNC frame of this moment (R355). -/
def State.syncFrame (s : State) : List Byte :=
  let y := beBytes 6 s.tim.tb0.sec.toNat ++ beBytes 4 s.tim.tb0.ns.toNat ++ beBytes 1 (b2n s.undiscFlag) ++
    beBytes 1 (s.rd F.CAD_MODE_SYNC_RATE) ++ beBytes 1 s.tier ++ beBytes 3 0
  mkFrame 0x01 8 s.cad.seqSync.toNat 0xF (s.rd F.CAD_SRC_ADDR) (s.tier + 1) (s.tim.tb0.frac.toNat / 2 ^ 16) y

/-- A timed frame may take the wire of an UP link that holds no launch and no BELL. -/
def State.timedMay (s : State) (p : PortId) : Bool :=
  (s.port p).cl.st == .up && match (s.port p).cl.wire with
    | some f => decide (2 < f.kind.cls)
    | none => true

/-- A timed frame of the hub takes the wire; a forwarded frame gives way (R340). -/
def timedStart (p : PortId) (k : FrameKind) (l : List Byte) (s : State) : State :=
  if !s.timedMay p then s
  else (cadAbort p s).modCl p fun c => { c with wire := some { kind := k, bytes := sealFrame false l } }

/-- A SYNC time (R355). -/
def cadSyncDue (s : State) : State :=
  if s.coreUp && s.sendsSync && !s.cad.tooDeep && downPorts.any s.timedMay then
    (forEach downPorts (fun p => timedStart p .sync s.syncFrame) s).modCad fun c => { c with seqSync := c.seqSync + 1 }
  else s

/-- The launch of a DELAY_REQ (R353). -/
def cadDelayDue (s : State) : State :=
  match s.cad.xs.find? fun x => x.t3.isNone with
  | none => s
  | some x =>
    if !s.coreUp || !s.cadSync || !tbLe x.due s.tb0 then s
    else
      let l := mkFrame 0x02 8 s.cad.seqReq.toNat s.upRoute (s.rd F.CAD_SRC_ADDR) 0 0 []
      let y := { x with t3 := some x.due, seq := s.cad.seqReq }
      if s.timedMay PU then
        (timedStart PU .delayReq l s).modCad fun c =>
          { c with seqReq := c.seqReq + 1, xs := c.xs.map fun e => if e = x then y else e }
      else s.modCad fun c => { c with xs := c.xs.filter (· ≠ x) }

/-- 100 ms without the response (R353). -/
def cadDelayMiss (s : State) : State :=
  match s.cad.xs.find? fun x => x.t3.isSome with
  | none => s
  | some x => xsMiss (s.modCad fun c => { c with xs := c.xs.filter (· ≠ x) })

/-- No SYNC on PU within four intervals (R355). -/
def cadNoSync (s : State) : State := if s.cadSync then s.modCad fun c => { c with syncAbsent := true } else s

/-- The K29.7 of a frame has left a port (R340, R346, R369): the UP frame makes the DFP's link UP. -/
def cadTxDone (p : PortId) (s : State) : State :=
  match (s.port p).cl.wire with
  | none => s
  | some f =>
    let s := freeIdle (s.modCl p fun l => { l with wire := none })
    match f.kind with
    | .launch q => cadPump p (launchDone q p s)
    | .train => if p.val < 16 && frLen f.bytes == 0 then cadUp p s else cadPump p s
    | _ => cadPump p s

/-! ### Commits of G8 (R354) -/

/-- CAD_MODE.MODE has changed from `old`. -/
def cadModeMoved (old : Nat) (s : State) : State :=
  let s := s.modCad fun c => { c with xs := [], syncUndisc := false, syncAbsent := false, tooDeep := false }
  let s := if s.cadRoot then setTier 1 s else if old = 2 then setTier 0 s else s
  if s.cadTransparent then cadGoTransparent s else s

end Sys2Proof.Machine
end

