-- ==== Sys2Proof/Machine/Tick.lean ====
section
/-! DEFINITION. The tick of 5 ns that passes on an empty queue (12_time_bases.md R304, R305, R313 to R316). DESIGN CHOICE: the
opcode table has no row for a tick (log entry 1); every other effect of time arrives as a command. -/

namespace Sys2Proof.Machine

/-- PLL-T runs: CORE has been released and TIME is powered (R17, R26). -/
def State.timeUp (s : State) : Bool :=
  (match s.glb.phase with
   | .loader | .signature | .converters | .up => true
   | _ => false) &&
  (match s.pwr.st with
   | .run | .idle | .sleep | .entering => true
   | _ => false) && s.pwr.x24Run && !s.tim.readvance

/-- The increment in effect (R305, R309). -/
def State.incNow (s : State) : Nat := if s.tim.discOk then (s.reg R.TIM_TB0_INC).toNat else 0x05000000

/-- TB0 plus an increment in units of 2^-24 ns (R304, R305). -/
def Tb0.add (t : Tb0) (inc : Nat) : Tb0 :=
  let v := t.ns.toNat * 2 ^ 24 + t.frac.toNat + inc
  let ns := v / 2 ^ 24
  if ns < 1000000000 then { t with ns := BitVec.ofNat 32 ns, frac := BitVec.ofNat 24 v }
  else { sec := t.sec + 1, ns := BitVec.ofNat 32 (ns - 1000000000), frac := BitVec.ofNat 24 v }

/-- The position of TB2 in periods of 60 MHz: 8191 at most at high speed, a microframe number of 7500 at full speed
(R314). -/
def Tb2.advance (hs : Bool) (t : Tb2) : Tb2 :=
  let ph := t.phase + 3
  if ph < 10 then { t with phase := ph }
  else
    let t := { t with phase := ph - 10 }
    if hs then { t with pos := if t.pos.toNat < 8191 then t.pos + 1 else t.pos }
    else if t.pos.toNat + 1 < 7500 then { t with pos := t.pos + 1 }
    else if t.uframe.toNat < 7 then { t with pos := 0, uframe := t.uframe + 1 }
    else { t with pos := if t.pos.toNat < 8191 then t.pos + 1 else t.pos }

/-- 5 ns of TB0, TB1 and TB2. -/
def tickTime (s : State) : State :=
  let inc := s.incNow
  let hs := s.hub.speed == .high
  s.modTim fun x => { x with tb0 := x.tb0.add inc, tb1 := x.tb1 + 5, tb2 := if x.tb2.valid then x.tb2.advance hs else x.tb2 }

/-- A rising edge of X32: TB3 counts, and while TIME runs AON takes the shadow of TB0 and TB1 (R315, R316). -/
def tickX32 (up : Bool) (s : State) : State :=
  s.modTim fun x =>
    let t := x.tb3 + 1
    if up then { x with tb3 := t, shadow0 := x.tb0, shadow1 := x.tb1, shadow3 := t } else { x with tb3 := t }

/-- 5 ns pass: a period of X32 is 30 517.578 125 ns, 3 906 250 units of 1/128 ns (R316). -/
def tick (s : State) : State :=
  if s.aonUp then
    let up := s.timeUp
    let s := if up then tickTime s else s
    let ph := s.tim.x32Phase + 640
    if ph < 3906250 then s.modTim fun x => { x with x32Phase := ph }
    else tickX32 up (s.modTim fun x => { x with x32Phase := ph - 3906250 })
  else s

end Sys2Proof.Machine
end

