-- ==== Sys2Proof/Machine/TimAct.lean ====
section
/-! DEFINITION. The time bases' actions (12_time_bases.md R306 to R321): steps and sets of TB0, UNDISC, captures, TPULSE,
the re-advance and the alarm. -/

namespace Sys2Proof.Machine

/-- TIM_EVT bits: TP_CAP 0, TP_OVERRUN 1, TP_LATE 2, TB0_STEP 3, TB0_DENIED 4, UNDISC 5, TB2_LOCK 6, TB2_LOST 7, ALARM 8,
X32_RC 9. -/
def timEvt (k : Nat) (s : State) : State := raiseEvt0 R.TIM_EVT k s

/-- UNDISC becomes 1 (R310). -/
def setUndisc (s : State) : State :=
  if s.tim.undisc then s else timEvt 5 (s.modTim fun t => { t with undisc := true })

/-- HOLDOVER seconds have passed without a correction (R310). -/
def holdoverExpire (s : State) : State := if s.rdB F.TIM_CTRL_HOLDOVER && s.timeUp then setUndisc s else s

/-! ### TPULSE (R311, R321) -/

def State.tpMode (s : State) : Nat := s.rd F.TIM_CTRL_TP_MODE

/-- The time of the mode 3 pulse; a NS beyond 999 999 999 takes effect as that (R486). -/
def State.tpAt (s : State) : TbTime :=
  ⟨s.rd F.TIM_TP_AT_SHI_SHI * 2 ^ 32 + s.rd F.TIM_TP_AT_SLO_SLO, min 999999999 (s.rd F.TIM_TP_AT_NS_NS)⟩

/-- Whether a pulse is due, and at which time it was. -/
def State.tpDue (s : State) : Option TbTime :=
  if s.tpMode = 2 then if s.tim.tpNext ≤ s.tb0.sec then some ⟨s.tb0.sec, 0⟩ else none
  else if s.tpMode = 3 && s.rdB F.TIM_TP_AT_NS_ARM && tbLe s.tpAt s.tb0 then some s.tpAt
  else none

/-- The pulse starts, or its width starts again; ARM clears in mode 3. -/
def tpStart (s : State) : State :=
  let s := s.modTim fun t => { t with tpPulse := true, tpNext := s.tb0.sec + 1 }
  if s.tpMode = 3 then s.wr F.TIM_TP_AT_NS_ARM 0 else s

def tpFire (s : State) : State := if s.timeUp && s.tpDue.isSome then tpStart s else s

def tpEnd (s : State) : State := s.modTim fun t => { t with tpPulse := false }

/-- A jump of TB0 to a later time fires the pulse it passes, with TP_LATE; after a jump back the next whole second is due
again (R311). -/
def tpJump (s : State) : State :=
  match s.tpDue with
  | some t => tpStart (if tbNs t < tbNs s.tb0 then timEvt 2 s else s)
  | none => s.modTim fun x => { x with tpNext := s.tb0.sec + 1 }

/-- A committed change of TP_MODE ends any pulse (R321). -/
def tpModeMoved (s : State) : State := s.modTim fun t => { t with tpPulse := false, tpNext := s.tb0.sec + 1 }

/-! ### Corrections (R306 to R310) -/

def tb0Of (n : Nat) (frac : BitVec 24) : Tb0 :=
  { sec := BitVec.ofNat 48 (n / 1000000000), ns := BitVec.ofNat 32 (n % 1000000000), frac := frac }

/-- TB0 plus a step in nanoseconds, not below 0 (R306). -/
def tb0Step (n : Int) (s : State) : State :=
  let v := (tbNs s.tb0 : Int) + n
  s.modTim fun t => { t with tb0 := if v < 0 then {} else tb0Of v.toNat t.tb0.frac }

/-- The SET value (R307). -/
def State.tb0Set (s : State) : Tb0 :=
  { sec := BitVec.ofNat 48 (s.rd F.TIM_TB0_SET_SHI_SHI * 2 ^ 32 + s.rd F.TIM_TB0_SET_SLO_SLO),
    ns := BitVec.ofNat 32 (min 999999999 (s.rd F.TIM_TB0_SET_NS_NS)) }

/-- TB0 has been corrected: TB0_STEP, UNDISC 0, and the pulses passed (R307, R310, R311). -/
def tb0Moved (detail : Word) (s : State) : State :=
  tpJump (raiseEvt R.TIM_EVT 3 detail (s.modTim fun t => { t with undisc := false }))

/-- A SET or a step that a commit has applied (R306, R307, R309). -/
def timCorrect (s : State) : State :=
  let adj := s.reg R.TIM_TB0_ADJ
  let load := s.rdB F.TIM_TB0_SET_NS_LOAD
  if !load && adj == 0 then s
  else
    let s := (s.setReg R.TIM_TB0_ADJ 0).wr F.TIM_TB0_SET_NS_LOAD 0
    if !s.tim.discOk then timEvt 4 s
    else if load then tb0Moved 0xFFFFFFFF (s.modTim fun t => { t with tb0 := s.tb0Set })
    else tb0Moved adj (tb0Step (signed 32 adj.toNat) s)

/-- An increment that a commit has applied: in range, and held until DISC_OK (R305, R309). -/
def timIncMoved (s : State) : State :=
  let v := BitVec.ofNat 32 (min 0x05800000 (max 0x04800000 (s.reg R.TIM_TB0_INC).toNat))
  if s.tim.discOk then s.setReg R.TIM_TB0_INC v
  else (s.setReg R.TIM_TB0_INC 0x05000000).modTim fun t => { t with incHeld := some v }

/-! ### Captures (R318 to R320) -/

/-- Captures TB0 and TB1 into unit `u`; an unread capture is overrun (R319). -/
def timCapture (u : Fin 3) (aux : Word) (s : State) : State :=
  let k := u.val
  let was := s.rdB (F.TIM_CAP_STAT_VALID k)
  let t := s.tim
  let n := s.rd (F.TIM_CAP_STAT_COUNT k) + 1
  let ov := was || s.rdB (F.TIM_CAP_STAT_OVERRUN k)
  let stat := atBits 16 16 (t.tb0.sec.toNat / 2 ^ 32) ||| atBits 8 8 n ||| atBits 1 1 (b2n ov) ||| atBits 0 1 1
  let s := s.setReg (R.TIM_CAP_STAT k) stat
  let s := s.setReg (R.TIM_CAP_SLO k) (BitVec.ofNat 32 t.tb0.sec.toNat)
  let s := s.setReg (R.TIM_CAP_NS k) t.tb0.ns
  let s := s.setReg (R.TIM_CAP_TB1_LO k) (BitVec.ofNat 32 t.tb1.toNat)
  let s := s.setReg (R.TIM_CAP_TB1_HI k) (BitVec.ofNat 32 (t.tb1.toNat / 2 ^ 32))
  let s := s.setReg (R.TIM_CAP_AUX k) aux
  if was && k == 0 then timEvt 1 s else s

/-- An edge on TPULSE in mode 1 (R321). -/
def tpEdge (rising : Bool) (s : State) : State :=
  if s.timeUp && s.tpMode == 1 && rising != s.rdB F.TIM_CTRL_TP_POL then timEvt 0 (timCapture 0 0 s) else s

/-- SW_CAP: TB0, TB1 and TB3 (R318). -/
def timSwCap (v : Word) (s : State) : State :=
  if bitOf v 0 && s.timeUp then timCapture 2 (BitVec.ofNat 32 s.tb3) s else s

/-! ### The re-advance, the alarm and the crystal (R315, R316) -/

/-- TB0 and TB1 advance by the X32 periods since the shadow (R316): 30 517.578 125 ns is 3 906 250 / 128 ns. -/
def tbReadvance (s : State) : State :=
  if s.tim.readvance && s.pwr.x24Run then
    let t := s.tim
    let d := (t.tb3 - t.shadow3).toNat
    let f := ((t.shadow0.sec.toNat * 1000000000 + t.shadow0.ns.toNat) * 2 ^ 24 + t.shadow0.frac.toNat) + d * (3906250 * 2 ^ 17)
    setUndisc (s.modTim fun t =>
      { t with tb0 := tb0Of (f / 2 ^ 24) (BitVec.ofNat 24 f), tb1 := t.shadow1 + BitVec.ofNat 64 (d * 3906250 / 128),
               readvance := false, tpNext := f / 2 ^ 24 / 1000000000 + 1 })
  else s

/-- The 48-bit alarm value. -/
def State.alarmAt (s : State) : Nat := s.rd F.TIM_TB3_ALARM_HI_ALARM_HI * 2 ^ 32 + s.rd F.TIM_TB3_ALARM_LO_ALARM_LO

/-- The alarm is due (R315). -/
def State.alarmDue (s : State) : Bool := s.aonUp && s.rdB F.TIM_TB3_ALARM_HI_EN && decide (s.alarmAt ≤ s.tb3)

/-- EN clears and ALARM is queued (R315). -/
def tb3Alarm (s : State) : State := timEvt 8 (s.wr F.TIM_TB3_ALARM_HI_EN 0)

/-- X32 falls back to the internal RC (R23, R315): a class C fault. -/
def x32Fail (s : State) : State :=
  if !s.aonUp || s.tim.x32Rc then s
  else raiseAt .x32Rc none (timEvt 9 (s.modTim fun t => { t with x32Rc := true }))

end Sys2Proof.Machine
end

