-- ==== Sys2Proof/Machine/PwrAct.lean ====
section
/-! DEFINITION. The power states (15_power_states.md): the conditions of entry, entry to SLEEP, DEEP and OFF, wake sources
and the wake, the retention banks, the sentinels. -/

namespace Sys2Proof.Machine

/-- PWR_EVT bits: WAKE 0, WAKEFAIL 1, RET_FAIL 2, RET_RESET 3, CMD_BLOCKED 4, RET_IGNORED 5. -/
def pwrEvt (k : Nat) (detail : Word) (s : State) : State := raiseEvt R.PWR_EVT k detail s

/-! ### Conditions of entry (R382, R383) -/

/-- Conditions 0 to 10, each met or not. A condition on time is met where the state it speaks of holds. -/
def State.entryMet (s : State) (k : Nat) : Bool :=
  let quiet (x : PpState) : Bool := match x with
    | .ramp | .limit | .tripped | .cooldown => false
    | _ => true
  match k with
  | 0 => s.hub.suspended || s.hub.st == .detached
  | 1 => allPorts.all fun p => (s.port p).pd.sinkTxPend.isEmpty && match (s.port p).pd.st with
    | .detached | .implicit | .ready => true
    | _ => false
  | 2 => allPorts.all (fun p => quiet (s.port p).pp.st) && allAx.all fun a => quiet (s.ax a).st
  | 3 => !s.feed.switching && !s.feed.bell && (s.dyn.step == .idle || s.dyn.step == .ended)
  | 4 => !(s.port PU).cl.st.live
  | 5 => s.loader.pend.entries.isEmpty && s.i2cP.pend.entries.isEmpty && s.usbP.pend.entries.isEmpty && s.glb.commitAt.isNone
  | 6 => s.i2c.heldWrite.isNone && s.i2c.heldRead.isNone && s.efn.held.isNone && s.efn.batch == .idle && !s.nvmBusy &&
      !s.glb.loading && !s.pmb.swBusy && s.pmb.all.isEmpty && !s.loader.lockOpen &&
      !s.i2cP.lockOpen && !s.usbP.lockOpen
  | 7 => !s.flt.recovery
  | 8 => downPorts.all (fun p =>
      ((s.port p).pp.st == .off || (s.port p).pp.st == .locked) && decide (s.mt.m[p.val].v.toNat < 800) &&
        (s.port p).tc.st != .attachedSnk) && allAx.all fun a => (s.ax a).st == .off
  | 9 => s.hub.st == .detached || s.hub.st == .pullUp
  | _ => !(s.port PU).pd.epr && s.feed.fc.st != .active &&
      match (s.port PU).pd.contract with
      | some c => decide (c.mv ≤ 20000)
      | none => true

/-- Every condition from 0 to `n` − 1. -/
def State.entryAll (s : State) (n : Nat) : Bool := (List.range n).all s.entryMet

/-- PWR_STATUS.BLOCK: conditions 8 to 10 are evaluated only while entry to DEEP or OFF is enabled or requested (R382). -/
def State.blockMask (s : State) : Nat :=
  maskFrom (if s.rdB F.PWR_CTRL_DEEP_EN || s.pwr.request.isSome then 11 else 8) fun k => !s.entryMet k

def PwrState.awake : PwrState → Bool
  | .run | .idle => true
  | _ => false

/-- The hub is up, in RUN or IDLE. -/
def State.awake (s : State) : Bool := s.isUp && s.pwr.st.awake

/-- The first request of any kind ends IDLE (R381). -/
def leaveIdle (s : State) : State := if s.pwr.st == .idle then s.modPwr fun x => { x with st := .run } else s

def idleEnter (s : State) : State :=
  if s.isUp && s.pwr.st == .run && s.rdB F.PWR_CTRL_IDLE_EN then s.modPwr fun x => { x with st := .idle } else s

/-! ### Entry (R384, R385) -/

/-- Every Cadence link goes down with cause SLEEP; the mode stays entered (R350, R385). -/
def linksDown (s : State) : State := forEach allPorts (fun p s => linkDown p .sleep .off s) s

/-- The detach sequence without the moisture test, for every Pn still attached (R385). -/
def deepDetach (s : State) : State :=
  forEach downPorts (fun p s =>
    if (s.port p).tc.st.isAttached then tcEvt p 1 (tcLeave p .detach (s.tcRest p) s) else s) s

/-- Entry begins. -/
def entryStart (t : EntryTarget) (s : State) : State :=
  let s := s.modPwr fun x => { x with st := .entering, target := t, request := none, wakePend := false, srcSeen := false }
  let s := linksDown s
  let s := if t = .sleep then s else deepDetach s
  s.modPwr fun x => { x with noticed := [] }

def autoSleep (s : State) : State :=
  if s.awake && s.rdB F.PWR_CTRL_SLEEP_EN && s.entryAll 8 then entryStart .sleep s else s

def autoDeep (s : State) : State :=
  if s.awake && s.rdB F.PWR_CTRL_DEEP_EN && s.entryAll 11 then entryStart .deep s else s

/-- A request that finds every condition met is carried out; RESULT becomes ENTERED (R384). -/
def requestTrack (s : State) : State :=
  match s.pwr.request with
  | none => s
  | some t => if s.awake && s.entryAll 11 then entryStart t (s.wr F.PWR_STATUS_RESULT 1) else s

/-- PWR_CMD: DEEP bit 0, OFF bit 1 (R384). -/
def pwrCmd (v : Word) (s : State) : State :=
  let r := if bitOf v 1 then some EntryTarget.off else if bitOf v 0 then some .deep else none
  if r.isSome && s.isUp then s.modPwr fun x => { x with request := r } else s

/-- 100 ms have passed with a condition not met (R384). -/
def cmdBlocked (s : State) : State :=
  if s.pwr.request.isNone then s
  else
    let s := (s.wr F.PWR_STATUS_BLOCK s.blockMask).wr F.PWR_STATUS_RESULT 2
    pwrEvt 4 0 (s.modPwr fun x => { x with request := none })

/-! ### Retention (R396, R398, R444) -/

/-- AON or HVS holds the register through DEEP (R444). -/
def heldDeep (a : Nat) : Bool :=
  let blk := a / 0x1000
  blk == 1 || blk == 2 || blk == 4 || blk == 5 || a == R.EVQ_CTRL || a == R.EVQ_SEQ || a == R.EVQ_LOST || a == R.HUB_CONNECT ||
    decide (R.STO_RETIRE 0 ≤ a ∧ a ≤ R.STO_RETIRE 15) || decide (R.STO_BANK 0 ≤ a ∧ a ≤ R.STO_BANK 3) ||
    decide (R.STO_ECCLOG 0 ≤ a ∧ a ≤ R.STO_ECCLOG 15) || a == R.STO_UE_LAST || a == R.TIM_TB3_LO || a == R.TIM_TB3_HI ||
    a == R.TIM_TB3_ALARM_LO || a == R.TIM_TB3_ALARM_HI

/-- The bank that holds a register's RW and RWC fields (R396); the image's RETENTION addresses join bank 0 (R397). -/
def State.bankOf (s : State) (a : Nat) : Option (Fin 4) :=
  if heldDeep a then none
  else match addrPort a with
    | some p => if a % 0x1000 = 0x848 ∨ a % 0x1000 = 0x864 then (if s.img.retention.contains a then some 0 else none)
      else some (if p.val < 8 then 1 else 2)
    | none =>
      if a / 0x1000 = 0 ∨ a = R.STO_CFG ∨ a = R.HUB_CFG ∨ (a / 0x1000 = 9 ∧ a ≠ R.EFN_EVT) ∨ a = R.TIM_CTRL ∨ a = R.TIM_TB0_INC ∨
          a = R.CAD_MODE ∨ a = R.CAD_CTRL ∨ a = R.CAD_SRC ∨ a = R.CAD_BQ_CTRL ∨ s.img.retention.contains a then some 0
      else none

/-- The bits of a register that a bank saves: RW and RWC (R396), and the whole of EFN_MLOG_WPTR and of the ACT carving. -/
def savedMask (a : Nat) : Word :=
  if a = R.EFN_MLOG_WPTR then 0xFFFFFFFF
  else if R.EFN_EP_BASE 0 ≤ a ∧ a ≤ R.EFN_EP_SIZE 6 then 0xFFFFFFFF
  else match regRow a with
    | some r => r.rw ||| r.rwc
    | none => 0

/-- A word as a bank gives it back: saved bits, reset bits elsewhere. -/
def savedWord (a : Nat) (w : Word) : Word := (w &&& savedMask a) ||| (regReset a &&& ~~~ savedMask a)

/-- What bank `b` saves. -/
def State.bankSave (s : State) (b : Fin 4) : SMap Word :=
  SMap.ofList regReset ((s.regs.filter fun e => s.bankOf e.1 == some b).map fun e => (e.1, savedWord e.1 e.2))

/-- The banks are saved and CORE, STORE, TIME and the PHY and analog domains lose their power (R385, R398). -/
def powerOff (s : State) : State :=
  let k := s.bankSave
  let held := s.regs.keep heldDeep
  let s := storeDown s
  let s := s.modPwr fun x =>
    { x with banks := Vector.ofFn fun b => { saved := k b, valid := true }, x24Run := false, x24Ready := false,
             pmbCtrl := false, vddcOn := false, dphyA := false, dphyB := false, afeOn := false, reload := 0 }
  let s := { s with regs := held, loader := {}, i2cP := {}, usbP := {}, efn := {}, hub := { st := s.hub.st } }
  s.modTim fun t => { t with readvance := true, tb2 := {}, tpPulse := false }

/-- OFF: HVS alone is powered; the pair of the ACTIVE feed stays on (R86, R403). -/
def offState (s : State) : State :=
  s.outside { feed := { s.feedAfterReset false with vin := s.feed.vin, vtan := s.feed.vtan },
              pwr := { vaux := s.pwr.vaux }, glb := { phase := .off } }

/-! ### Wake sources (R389, R392) -/

def WakeSrcCode (w : WakeSrc) : Nat :=
  match w with
  | .wakeN => 1 | .i2c => 2 | .usbResume => 3 | .usbReset => 4 | .cadUp => 5 | .typec => 6 | .pd => 7 | .prot => 8
  | .alarm => 9 | .vinWarn => 10 | .feed => 11

/-- The source wakes the hub: unmaskable, or enabled in PWR_WAKE_EN (R389). -/
def State.wakes (s : State) (w : WakeSrc) : Bool :=
  match w with
  | .wakeN | .i2c | .cadUp | .typec | .alarm => bitOf (s.reg R.PWR_WAKE_EN) (WakeSrcCode w - 1)
  | _ => true

/-- The record of the first source: SOURCE, PORT, FROM, and TB3 of detection (R392). -/
def wakeRecord (w : WakeSrc) (p : Option PortId) (s : State) : State :=
  if s.pwr.srcSeen then s
  else
    let port := match p with
      | some p => p.val
      | none => 31
    let s := s.setReg R.PWR_WAKE_REC (atBits 16 5 port ||| atBits 0 8 (WakeSrcCode w))
    let s := s.setReg R.PWR_WAKE_T3_LO (BitVec.ofNat 32 s.tb3)
    let s := s.setReg R.PWR_WAKE_T3_HI (BitVec.ofNat 32 (s.tb3 / 2 ^ 32))
    s.modPwr fun x => { x with srcSeen := true }

/-- An attempt begins (R393, R401). -/
def wakeAttempt (s : State) : State :=
  let n := s.pwr.attempts + 1
  let deep := s.pwr.from_ == .deep
  let s := s.modPwr fun x =>
    { x with st := .waking, attempts := n, retryDue := false, rc8Run := true, x24Run := true, pmbCtrl := x.pmbCtrl || deep }
  s.wr F.PWR_WAKE_REC_ATTEMPTS n.val

/-- The wake sequence starts from SLEEP or DEEP. -/
def wakeStart (fr : PwrState) (s : State) : State :=
  let s := s.modPwr fun x => { x with from_ := fr, attempts := 0 }
  wakeAttempt (s.wr F.PWR_WAKE_REC_FROM (if fr == .sleep then 2 else 3))

/-- A wake source is detected (R386, R389, R392, R401). -/
def wakeSeen (w : WakeSrc) (p : Option PortId) (s : State) : State :=
  let seen := s.setReg R.PWR_WAKE_SRC (setBit (s.reg R.PWR_WAKE_SRC) (WakeSrcCode w - 1))
  match s.pwr.st with
  | .run | .idle => s
  | .entering => if s.wakes w then (wakeRecord w p seen).modPwr fun x => { x with wakePend := true } else seen
  | .sleep => if s.wakes w then wakeStart .sleep (wakeRecord w p seen) else seen
  | .deep => if s.wakes w then wakeStart .deep (wakeRecord w p seen) else seen
  | .waking => seen
  | .wakeFail =>
    match w with
    | .wakeN | .i2c => wakeAttempt (seen.modPwr fun x => { x with attempts := 0 })
    | _ => seen

def wakeSourceAt (w : WakeSrc) (p : Option PortId) (s : State) : State := if s.isUp then wakeSeen w p s else s

/-- The entry sequence completes; a source seen during it starts the wake at once (R385, R386). -/
def entryDone (s : State) : State :=
  if s.pwr.st != .entering then s
  else match s.pwr.target with
    | .sleep =>
      let s := s.modPwr fun x => { x with st := .sleep }
      if s.pwr.wakePend then wakeStart .sleep s else s
    | .deep =>
      let s := (powerOff s).modPwr fun x => { x with st := .deep, rc8Run := false }
      if s.pwr.wakePend then wakeStart .deep s else s
    | .off => offState s

/-! ### Store-held structures after the fill (R248, R292, R394) -/

/-- The lowest free pages of a region, at most `k`, taken at load without an event (R292). -/
def takeQuiet (n : Nat) : Nat → State → List Nat × State
  | 0, s => ([], s)
  | k + 1, s =>
    match s.freePage n with
    | none => ([], s)
    | some g =>
      let r := takeQuiet n k (s.modSto fun x => { x with alloc := g :: x.alloc })
      (g :: r.1, r.2)

/-- A TT takes three pages or none (R248, R249). -/
def ttAssign (p : PortId) (s : State) : State :=
  let r := takeQuiet 1 3 s
  if r.1.length = 3 then r.2.modTt p fun t => { t with pages := r.1, st := if r.2.ttMayRun then .run else .idle }
  else ttNoPage p s

/-- The pages that owners take at load: TT, PD, MTR (R292). -/
def assignPages (s : State) : State :=
  let s := forEach downPorts ttAssign s
  let s := forEach allPorts (fun p s =>
    let r := takeQuiet 3 2 s
    r.2.modPd p fun x => { x with pages := r.1 }) s
  (takeQuiet 5 (s.rgnCount 5) s).2

/-! ### The wake (R392 to R394, R399) -/

/-- A port through DEEP: a LOCKED path stays LOCKED (R400), the moisture state is in bank 3, PU keeps its contract (R394). -/
def Port.afterDeep (pu bank3 : Bool) (x : Port) : Port :=
  { pp := if x.pp.st == .locked then { st := .locked, cause := x.pp.cause } else {},
    tc := { st := if pu then x.tc.st else .unattachedSnk,
            mstate := if bank3 then x.tc.mstate else .dry, dryCnt := if bank3 then x.tc.dryCnt else 0,
            wetCnt := if bank3 then x.tc.wetCnt else 0, wetAt := if bank3 then x.tc.wetAt else none,
            orient := pu && x.tc.orient },
    pd := if pu && x.pd.contract.isSome then
        { st := .ready, rev := x.pd.rev, contract := x.pd.contract, srcCaps := x.pd.srcCaps, lastReq := x.pd.lastReq,
          firstContract := true }
      else {},
    cl := { rx := { lost := true } } }

/-- The meters through DEEP: accumulators and counters hold, the window starts again (R129, R134). -/
def Meters.stopped (x : Meters) : Meters := { x with m := x.m.map fun m => { m with window := [] } }

/-- The registers of the banks that check good return (R398). -/
def State.restored (s : State) (bad : BitVec 4) : SMap Word :=
  SMap.ofList regReset (s.regs ++ (List.finRange 4).flatMap fun b =>
    if bad.getLsbD b.val then [] else (s.pwr.banks[b]).saved)

/-- The ports that wait in DISABLED for the reload of a bank (R399). -/
def bankPorts (b : Nat) : List PortId :=
  if b = 1 then allPorts.filter fun p => p.val < 8
  else if b = 2 then allPorts.filter fun p => 8 ≤ p.val
  else allPorts

/-- A bank fails its check: RET_FAIL, its reload, its ports to DISABLED, the level at most 1 (R399); with bank 3 the meters
restart (R134). -/
def bankFail (b : Fin 4) (s : State) : State :=
  let s := s.wr F.PWR_RET_STATUS_FAIL (s.rd F.PWR_RET_STATUS_FAIL ||| 2 ^ b.val)
  let s := pwrEvt 2 0 (s.modPwr fun x => { x with reload := x.reload ||| BitVec.ofNat 4 (2 ^ b.val) })
  let s := forEach (bankPorts b.val) (fun p s => tcEnter p .disabled s) s
  let s := if b = 3 then pushEvent 0 0xFF0A 8 s else s
  levelDown s

/-- A wake from DEEP rebuilds what lost its power (R393, R394). -/
def wakeDeep (bad : BitVec 4) (s : State) : State :=
  let b3 := !bad.getLsbD 3
  let s := { s with regs := s.restored bad, cad := {}, ports := Vector.ofFn fun p => (s.port p).afterDeep (p = PU) b3,
                    mt := if b3 then s.mt.stopped else {} }
  let s := s.modPwr fun x =>
    { x with st := .run, x24Ready := true, vddcOn := true, dphyA := true, dphyB := true, afeOn := true,
             banks := Vector.replicate 4 {} }
  let s := assignPages (storeFill s)
  let s := forEach allPorts (fun p s => tcEnter p (if p = PU then (s.port p).tc.st else
    if s.rdB (F.TC_CTRL_MOIST_EN p) && (s.port p).tc.mstate == .dry then .moistTest else s.tcRest p) s) s
  let s := if s.cadRoot then s.modCad fun c => { c with tier := 1 } else s
  let s := forEach (allPorts.filter s.clEn) ringsTake s
  let s := s.setReg R.EFN_MLOG_WPTR (putBits (s.reg R.EFN_MLOG_WPTR) 0 16 0)
  let s := s.wr F.EFN_MLOG_WPTR_WRAP (s.rd F.EFN_MLOG_WPTR_WRAP + 1)
  let s := forEach (List.finRange 4) (fun b s => if bad.getLsbD b.val then bankFail b s else s) s
  let s := if (s.port PU).pd.contract.isSome then pdSoftReset PU s else s
  bmRecompute s

/-- A wake from SLEEP: links whose mode is entered train again (R350, R393). -/
def wakeSleep (s : State) : State :=
  forEach allPorts cadReturn (s.modPwr fun x => { x with st := .run })

/-- A VDM whose first object is `h`: the alternate mode's commands and Attention, else any other (R162, R324, R328). -/
def pdVdm (p : PortId) (h w1 : Word) (s : State) : State :=
  let sid := bitsOf h 16 16
  let mine := bitOf h 15 && bitsOf h 6 2 == 0
  if mine && p == PU && sid == 0xFF00 && bitsOf h 0 5 == 1 then cadIdentity s
  else if mine && p == PU && sid == 0xFF00 && bitsOf h 0 5 == 2 then cadSvids s
  else if mine && p == PU && sid == s.cadSvid && bitsOf h 0 5 == 3 then cadModes s
  else if mine && p == PU && sid == s.cadSvid && bitsOf h 0 5 == 4 then cadEnterRx w1 s
  else if mine && sid == s.cadSvid && bitsOf h 0 5 == 5 then cadExitRx p s
  else if mine && p != PU && sid == s.cadSvid && bitsOf h 0 5 == 6 then cadAttentionRx p w1 s
  else pdSvdmRx p h s

/-- A control message of type `ty`, as USB PD numbers them. PRESUMED (log entry 21). -/
def pdControl (p : PortId) (ty : Nat) (s : State) : State :=
  match ty with
  | 1 | 2 | 5 => pdIgnoredRx p s
  | 3 => pdAcceptRx p s
  | 4 => pdRejectRx p s
  | 6 => pdPsRdyRx p s
  | 7 => pdGetSourceCapRx p false s
  | 8 => pdGetSinkCapRx p false s
  | 9 => pdDrSwapRx p s
  | 10 => pdPrSwapRx p s
  | 11 => pdVconnSwapRx p s
  | 12 => pdWaitRx p s
  | 13 => pdSoftResetRx p s
  | 16 => pdResponseRx p .notSupported s
  | 17 => pdGetSrcCapExtRx p s
  | 18 => pdGetStatusRx p s
  | 19 => pdFrSwapRx p s
  | 22 => pdGetSnkCapExtRx p s
  | 23 => pdGetSourceInfoRx p s
  | 24 => pdGetRevisionRx p s
  | _ => pdUnsupportedRx p s

/-- A data message of type `ty` with its objects. PRESUMED (log entry 21). -/
def pdData (p : PortId) (ty : Nat) (rev2 : Bool) (l : List Word) (s : State) : State :=
  let w := l.headD 0
  match ty with
  | 1 => pdSourceCapsRx p rev2 false l s
  | 2 => pdRequestRx p rev2 w s
  | 3 => pdBistRx p (bitsOf w 28 4 == 5) s
  | 4 => pdSinkCapsRx p w s
  | 6 => pdAlertRx p w s
  | 9 => pdEprRequestRx p w (l.getD 1 0) s
  | 10 => match bitsOf w 24 8 with
    | 1 => pdEprModeEnterRx p s
    | 2 => pdResponseRx p .eprEnterAck s
    | 3 => pdResponseRx p .eprEnterSucceeded s
    | 4 => pdResponseRx p .eprEnterFailed s
    | 5 => pdEprModeExitRx p s
    | _ => pdUnsupportedRx p s
  | 11 => pdResponseRx p .sourceInfo s
  | 12 => pdResponseRx p (.revision w) s
  | 15 => pdVdm p w (l.getD 1 0) s
  | _ => pdUnsupportedRx p s

/-- An extended message: `xh` is its extended header, `b` its first data byte. An unchunked one is not supported (R161).
PRESUMED (log entry 21). -/
def pdExtended (p : PortId) (ty xh b : Nat) (s : State) : State :=
  if xh < 0x8000 then pdUnsupportedRx p s
  else match ty, b with
    | 1, _ | 15, _ => pdResponseRx p .extCaps s
    | 2, _ => pdResponseRx p .status s
    | 16, 1 => pdGetSourceCapRx p true s
    | 16, 2 => pdGetSinkCapRx p true s
    | 16, 3 => pdEprKeepaliveRx p s
    | 16, 4 => pdResponseRx p .keepAliveAck s
    | _, _ => pdUnsupportedRx p s

/-- The engine processes a message as its bytes give it: header, objects (R387). PRESUMED (log entry 21). -/
def pdDeliver (p : PortId) (m : List Byte) (s : State) : State :=
  let h := leAt m 0 2
  let n := h / 4096 % 8
  if h.testBit 15 then pdExtended p (h % 32) (leAt m 2 2) (leAt m 4 1) s
  else if n = 0 then pdControl p (h % 32) s
  else pdData p (h % 32) (h / 64 % 4 == 1)
    ((List.range n).map fun k => BitVec.ofNat 32 (leAt m (2 + 4 * k) 4)) s

/-- After the wake the engines take over from the sentinels: the message each holds, and a keep-alive that ran out (R387). -/
def sentinelHand (p : PortId) (s : State) : State :=
  let x := (s.port p).pd
  let s := s.modPd p fun y => { y with sentinel := none, kaLost := false }
  let s := if x.kaLost then pdKeepaliveLost p s else s
  match x.sentinel with
  | some m => pdDeliver p m s
  | none => s

/-- The wake completes: the events of the time without CORE, then WAKE, and WAKEFAIL after failed sets (R392, R401). -/
def wakeDone (bad : BitVec 4) (s : State) : State :=
  if s.pwr.st != .waking || s.pwr.retryDue then s
  else
    let deep := !s.pwr.vddcOn || s.pwr.from_ == .deep
    let s := if deep then wakeDeep bad s else wakeSleep s
    let s := evqFlushAon s
    let s := pwrEvt 0 (s.reg R.PWR_WAKE_REC) s
    let s := s.modPwr fun x => { x with wakePend := false, srcSeen := false }
    let s := forEach allPorts sentinelHand s
    if s.flt.wakeHold then
      raiseAt .wakeFail none (pwrEvt 1 (s.reg R.PWR_WAKE_REC) (s.modFlt fun f => { f with wakeHold := false }))
    else s

/-! ### Failed attempts (R401, R402) -/

def WakeFailCode (c : WakeFailCause) : Nat :=
  match c with
  | .vddcNoAck => 1 | .vddcPg => 2 | .x24 => 3 | .pllu => 4 | .vddcVout => 5

/-- AON takes every port down before the hub is in DEEP (R402). -/
def sleepLost (s : State) : State :=
  let s := forEach allPorts ppOff s
  let s := pmbAllOff (forEach allAx axOff s)
  powerOff (deepDetach s)

/-- An attempt fails; after the third the hub stays in DEEP with WAKEFAIL and FAULT_N low (R401). -/
def attemptFail (c : WakeFailCause) (s : State) : State :=
  if s.pwr.st != .waking || s.pwr.retryDue then s
  else
    let s := if s.pwr.from_ == .sleep && s.pwr.vddcOn then sleepLost s else s
    let s := s.wr F.PWR_WAKE_REC_FAIL_CAUSE (WakeFailCode c)
    let s := s.modPwr fun x => { x with pmbCtrl := false, x24Run := false, x24Ready := false }
    if 3 ≤ s.pwr.attempts.val then
      (s.wr F.PWR_WAKE_REC_WAKEFAIL 1).modPwr (fun x => { x with st := .wakeFail }) |>.modFlt fun f =>
        { f with wakeHold := true }
    else s.modPwr fun x => { x with retryDue := true }

def retryDue (s : State) : State :=
  if s.pwr.st == .waking && s.pwr.retryDue then
    (wakeAttempt s).modPwr fun x => { x with pmbCtrl := true }
  else s

/-! ### Sentinels, the I²C match, DPHY (R387, R390, R395) -/

/-- An Attention VDM: a Vendor_Defined message whose VDM header is structured with command 6. -/
def isAttention (m : List Byte) : Bool :=
  leAt m 0 1 % 32 == 15 && (leAt m 1 1 / 16) % 8 != 0 && (leAt m 3 1).testBit 7 && leAt m 2 1 % 32 == 6

/-- A sentinel takes a message and wakes the hub; a full buffer takes none, an Attention does not wake (R387). -/
def sentinelRx (p : PortId) (m : List Byte) (s : State) : State :=
  if s.pwr.st != .sleep || (s.port p).pd.contract.isNone || (s.port p).pd.sentinel.isSome || decide (32 < m.length) then s
  else
    let s := s.modPd p fun x => { x with sentinel := some m }
    if isAttention m then s else wakeSeen .pd (some p) s

/-- The address match that starts RC8 and the engine; in WAKEFAIL it starts another set of attempts (R390, R401). -/
def i2cMatch (s : State) : State :=
  if !s.aonUp then s
  else
    let s := (s.modI2c fun i => { i with matched := true }).modPwr fun x => { x with rc8Run := true }
    if s.pwr.st == .wakeFail then wakeSeen .i2c none s else s

/-- The ports of a DPHY domain. -/
def quadPorts (b : Bool) : List PortId := downPorts.filter fun p => (8 ≤ p.val) = b

def setDphy (b on : Bool) (s : State) : State :=
  s.modPwr fun x => if b then { x with dphyB := on } else { x with dphyA := on }

def dphyDown (b : Bool) (s : State) : State :=
  if s.awake && s.rdB F.PWR_CTRL_DPHY_GATE && !(quadPorts b).any s.gateOpen then setDphy b false s else s

/-- The domain powers up, before a gate opens (R227, R395). -/
def dphyUp (b : Bool) (s : State) : State :=
  if s.coreUp && s.isUp then setDphy b true s else s

/-- In DEEP the duty cycle sees a partner: a TYPEC wake (R158). -/
def deepPoll (p : PortId) (seen : Bool) (s : State) : State :=
  if s.pwr.st == .deep && seen && (s.port p).tc.mstate == .dry then wakeSeen .typec (some p) s else s

end Sys2Proof.Machine
end

