-- ==== Sys2Proof/Machine/HubAct.lean ====
section
/-! DEFINITION. The USB hub's actions (08_usb_hub.md R215 to R245, 12_time_bases.md R314): descriptors, requests, port
states, suspend and resume, L1, connect and detach, SOF. Layouts that the manual takes from USB 2.0 and its LPM addendum
are PRESUMED (log entry 23). -/

namespace Sys2Proof.Machine

/-! ### Ports 1 to 17 -/

/-- The USB state of hub port `n`: 1 to 16 are P0 to P15, 17 is the embedded function (R221). -/
def State.uport (s : State) (n : Nat) : UPort :=
  if h : 1 ≤ n ∧ n ≤ 16 then (s.port ⟨n - 1, by omega⟩).u else s.hub.p17

def modUport (n : Nat) (f : UPort → UPort) (s : State) : State :=
  if h : 1 ≤ n ∧ n ≤ 16 then s.modU ⟨n - 1, by omega⟩ f else s.modHub fun h => { h with p17 := f h.p17 }

/-- The port of hub port `n`, for what only Pn has. -/
def portOf (n : Nat) : Option PortId := if h : 1 ≤ n ∧ n ≤ 16 then some ⟨n - 1, by omega⟩ else none

/-- An event of Pn; port 17 has none. -/
def uEvt (n k : Nat) (s : State) : State :=
  match portOf n with
  | some p => hpEvt p k s
  | none => s

def hubPorts : List Nat := (List.range 17).map (· + 1)

def validPort (n : Nat) : Bool := decide (1 ≤ n ∧ n ≤ 17)

/-- PORT_POWER (R221 to R223). -/
def State.uPower (s : State) (n : Nat) : Bool :=
  match portOf n with
  | some p => s.portPower p
  | none => true

def UState.enabledLike : UState → Bool
  | .enabled | .suspended | .resuming | .l1 => true
  | _ => false

/-- wPortStatus (R245, USB 2.0). -/
def State.pstat (s : State) (n : Nat) : Nat :=
  let u := s.uport n
  b2n u.conn + 2 * b2n u.ust.enabledLike + 4 * b2n u.suspSel + 8 * b2n u.oc + 16 * b2n (u.ust == .resetting) +
    32 * b2n (u.ust == .l1) + 256 * b2n (s.uPower n) + 512 * b2n (u.speed == .low) + 1024 * b2n (u.speed == .high) +
    2048 * b2n (u.ust == .testing)

/-- wPortChange (R245). -/
def PortChange.word (c : PortChange) : Nat :=
  b2n c.connection + 2 * b2n c.enable + 4 * b2n c.suspend + 8 * b2n c.overCurrent + 16 * b2n c.reset + 32 * b2n c.l1

/-! ### Answers -/

/-- The hub controller takes packets: CORE runs, PU shows its pull-up and has been reset (R225, R233). -/
def State.usbUp (s : State) : Bool :=
  s.coreUp && !s.hub.suspended && match s.hub.st with
    | .default_ | .addressed | .configured => true
    | _ => false

def answer (a : UsbAnswer) (s : State) : State := s.modHub fun h => { h with answer := a }

/-- A request the hub takes; what it does leaves IDLE (R381). -/
def usbReq (f : State → State) (s : State) : State := if s.usbUp then f (leaveIdle s) else s

/-- A request of the configured state; else it is stalled, as USB 2.0 gives. -/
def cfgReq (f : State → State) : State → State :=
  usbReq fun s => if s.configured then f s else answer .stall s

def reply (l : List Byte) (len : Nat) (s : State) : State := answer (.data (l.take len) true true) s

/-! ### Descriptors (R215 to R219) -/

/-- Idvendor, idProduct and bcdDevice; at Level 0 the recovery identity (R219). -/
def State.identity (s : State) : Nat × Nat × Nat :=
  if s.glb.level = 0 then (s.recovery.1.toNat, s.recovery.2.toNat, 0x0010)
  else (s.img.vid.toNat, s.img.pid.toNat, s.img.bcd.toNat)

/-- String `k`, 1 to 3; none is offered at Level 0 or when empty (R215). -/
def State.stringOf (s : State) (k : Nat) : List Byte :=
  if s.glb.level = 0 ∨ k = 0 then [] else (s.img.strings[k - 1]?).getD []

def State.stringIndex (s : State) (k : Nat) : Nat := if (s.stringOf k).isEmpty then 0 else k

/-- The device descriptor, its class triple and product as given. -/
def deviceDesc (cls sub proto vid pid bcd : Nat) (s : State) : List Byte :=
  leBytes 1 18 ++ leBytes 1 1 ++ leBytes 2 0x0210 ++ leBytes 1 cls ++ leBytes 1 sub ++ leBytes 1 proto ++ leBytes 1 64 ++
    leBytes 2 vid ++ leBytes 2 pid ++ leBytes 2 bcd ++ leBytes 1 (s.stringIndex 1) ++ leBytes 1 (s.stringIndex 2) ++
    leBytes 1 (s.stringIndex 3) ++ leBytes 1 1

def hubDevice (s : State) : List Byte :=
  let i := s.identity
  deviceDesc 9 0 (if s.hub.speed == .high then 2 else 0) i.1 i.2.1 i.2.2 s

/-- The device qualifier: the other speed's values. -/
def hubQualifier (s : State) : List Byte :=
  leBytes 1 10 ++ leBytes 1 6 ++ leBytes 2 0x0210 ++ leBytes 1 9 ++ leBytes 1 0 ++
    leBytes 1 (if s.hub.speed == .high then 0 else 2) ++ leBytes 1 64 ++ leBytes 1 1 ++ leBytes 1 0

def hubInterface (alt proto interval : Nat) : List Byte :=
  [9, 4, 0] ++ leBytes 1 alt ++ [1, 9, 0] ++ leBytes 1 proto ++ [0, 7, 5, 0x81, 3, 3, 0] ++ leBytes 1 interval

/-- The configuration at a speed: 41 bytes at high speed, 25 at full speed (R216). -/
def hubConfig (ty : Nat) (hs : Bool) : List Byte :=
  let body := if hs then hubInterface 0 1 0x0C ++ hubInterface 1 2 0x0C else hubInterface 0 0 0xFF
  leBytes 1 9 ++ leBytes 1 ty ++ leBytes 2 (9 + body.length) ++ [1, 1, 0, 0xE0, 0x32] ++ body

/-- The BOS descriptor with its USB 2.0 Extension capability (R218, R264). -/
def bosDesc (attr : Nat) : List Byte := [5, 0x0F, 12, 0, 1, 7, 0x10, 2] ++ leBytes 4 attr

/-- The hub descriptor (R217). -/
def hubClassDesc (s : State) : List Byte :=
  [13, 0x29, 17] ++ leBytes 2 (if s.coupled then 0x000D else 0x000E) ++ leBytes 1 (if s.coupled then 100 else 0) ++
    [100, 0, 0, 2, 0xFF, 0xFF, 0xFF]

/-- A string descriptor; string 0 lists the language 0x0409 (R215). -/
def stringDesc (k : Nat) (s : State) : Option (List Byte) :=
  if k = 0 then some [4, 3, 9, 4]
  else
    let l := s.stringOf k
    if l.isEmpty ∨ 3 < k then none else some (leBytes 1 (l.length + 2) ++ [3] ++ l)

/-- The hub's descriptors by type and index. -/
def hubDescriptor (ty k : Nat) (s : State) : Option (List Byte) :=
  let hs := s.hub.speed == .high
  match ty with
  | 1 => some (hubDevice s)
  | 2 => if k = 0 then some (hubConfig 2 hs) else none
  | 3 => stringDesc k s
  | 6 => some (hubQualifier s)
  | 7 => if k = 0 then some (hubConfig 7 !hs) else none
  | 0x0F => some (bosDesc 0x20E)
  | 0x29 => some (hubClassDesc s)
  | _ => none

def getDescriptor (ty k len : Nat) : State → State :=
  usbReq fun s =>
    match hubDescriptor ty k s with
    | some l => reply l len s
    | none => answer .stall s

/-! ### Standard requests (R216, R243, R247) -/

def setAddress (a : BitVec 7) : State → State :=
  usbReq fun s =>
    answer .ack (s.modHub fun h =>
      { h with addr := a, st := if h.st == .configured then .configured else if a = 0 then .default_ else .addressed })

/-- Port 17 shows its connection from the first SetConfiguration(1) (R221). -/
def p17Connect (s : State) : State :=
  s.modHub fun h =>
    { h with p17 := { h.p17 with ust := .disconnected, conn := true, speed := h.speed,
                                 chg := { h.p17.chg with connection := true } } }

/-- SetConfiguration (R243): 0 acts as a bus reset on the ports and keeps the address; 1 moves powered ports to
Disconnected and starts the TTs. -/
def setConfiguration (cfg : Nat) : State → State :=
  usbReq fun s =>
    if s.hub.st == .default_ || 1 < cfg then answer .stall s
    else if cfg = 0 then
      if s.configured then answer .ack (hubEvt 3 (hubUnconfigure (s.modHub fun h => { h with st := .addressed })))
      else answer .ack s
    else if s.configured then answer .ack s
    else
      let s := s.modHub fun h => { h with st := .configured }
      let s := forEach downPorts (fun p s =>
        if s.portPower p then s.modU p fun u => { u with ust := .disconnected } else s) s
      answer .ack (hubEvt 2 (ttRunAll (p17Connect s)))

/-- SetInterface: alternate setting 1 exists at high speed only (R216, R247). -/
def setInterface (alt : Nat) : State → State :=
  cfgReq fun s =>
    if alt = 0 || (alt = 1 && s.hub.speed == .high) then
      answer .ack (ttResetAll (s.modHub fun h => { h with alt := alt == 1 }))
    else answer .stall s

/-- GetStatus(DEVICE): Self Powered while FA or FB is ACTIVE (R216). -/
def getStatus : State → State :=
  usbReq fun s =>
    let self := s.feed.fa.st == .active || s.feed.fb.st == .active
    reply (leBytes 2 (b2n self + 2 * b2n s.hub.rwakeEn)) 2 s

def deviceFeature (on : Bool) : State → State :=
  usbReq fun s => answer .ack (s.modHub fun h => { h with rwakeEn := on })

/-! ### Hub class requests (R220, R224) -/

def getHubStatus : State → State :=
  cfgReq fun s => reply (leBytes 2 (b2n s.localLost) ++ leBytes 2 (b2n s.hub.cLocal)) 4 s

def getPortStatus (n : Nat) : State → State :=
  cfgReq fun s =>
    if validPort n then reply (leBytes 2 (s.pstat n) ++ leBytes 2 (s.uport n).chg.word) 4 s else answer .stall s

/-- C_HUB_LOCAL_POWER is 0, C_HUB_OVER_CURRENT 1, whose change never occurs (R224). -/
def hubFeature (on : Bool) (feature : Nat) : State → State :=
  cfgReq fun s =>
    match feature with
    | 0 => answer .ack (s.modHub fun h => { h with cLocal := on })
    | 1 => answer .ack s
    | _ => answer .stall s

def classStall : State → State := usbReq (answer .stall)

/-- A port request: a port outside 1 to 17 is stalled (R220). -/
def portReq (n : Nat) (f : State → State) : State → State :=
  cfgReq fun s => if validPort n then f (answer .ack s) else answer .stall s

/-- What ends with a reset, a suspend or a disconnect. -/
def UPort.awake (u : UPort) : UPort := { u with suspSel := false, suspGlob := false, suspPend := false, wakePend := false }

/-- SetPortFeature(PORT_RESET) (R229, R230); on port 17 it resets the embedded function (R221). -/
def portReset (n : Nat) : State → State :=
  portReq n fun s =>
    let u := s.uport n
    let may := match u.ust with
      | .disconnected | .disabled | .enabled | .suspended | .l1 => u.conn
      | _ => false
    if may then
      let s := modUport n (fun u => { u.awake with ust := .resetting, resumeL1 := false }) s
      if n = 17 then efnDown .default_ s.ep4Records s else s
    else s

/-- The reset completes (R230): Enabled at its speed, C_PORT_RESET, the TT reset, RESETS counted. -/
def portResetDone (n : Nat) (sp : UsbSpeed) (s : State) : State :=
  if !validPort n || (s.uport n).ust != .resetting || !s.usbUp then s
  else
    let sp := if n = 17 then s.hub.speed else if s.hub.speed == .full && sp == .high then .full else sp
    match portOf n with
    | some p =>
      if sp == .none then ttReset p false (uDisconnect p s)
      else
        let s := s.modU p fun u => { u with ust := .enabled, speed := sp, chg := { u.chg with reset := true } }
        hpEvt p 2 ((ttReset p false s).bump (F.HP_ERR_RESETS p))
    | none => modUport n (fun u => { u with ust := .enabled, speed := sp, chg := { u.chg with reset := true } }) s

/-- SetPortFeature(PORT_SUSPEND) (R232). -/
def portSuspend (n : Nat) : State → State :=
  portReq n fun s =>
    match (s.uport n).ust with
    | .enabled => uEvt n 4 (modUport n (fun u => { u with ust := .suspended, suspSel := true }) s)
    | .resuming => modUport n (fun u => { u with suspPend := true }) s
    | _ => s

/-- ClearPortFeature(PORT_SUSPEND) (R232). -/
def portResume (n : Nat) : State → State :=
  portReq n fun s =>
    if (s.uport n).ust == .suspended then modUport n (fun u => { u with ust := .resuming }) s else s

/-- A resume ends with its EOP (R232, R235, R241). -/
def portResumeDone (n : Nat) (s : State) : State :=
  let u := s.uport n
  if !validPort n || u.ust != .resuming || !s.usbUp then s
  else
    let s := modUport n (fun u =>
      { u with ust := if u.suspPend then .suspended else .enabled, suspSel := u.suspPend, suspPend := false, resumeL1 := false,
               chg := if u.resumeL1 then { u.chg with l1 := true } else { u.chg with suspend := true } }) s
    uEvt n (if u.resumeL1 then 8 else 5) s

/-- PORT_POWER in coupled mode (R223); without it nothing changes (R222). -/
def portPowerFeature (on : Bool) (n : Nat) : State → State :=
  portReq n fun s =>
    match portOf n with
    | none => s
    | some p =>
      if !s.coupled then s
      else if on then
        ppKick p (s.modU p fun u =>
          { u with power := true, ust := if u.ust == .poweredOff then .disconnected else u.ust })
      else
        let s := s.modU p fun u => { u with power := false }
        ocTrack p (ppOff p ((uDisconnect p s).modU p fun u => { u with ust := .poweredOff }))

/-- Enabled to Disabled (R231, R263). -/
def uDisable (n : Nat) (s : State) : State :=
  let s := modUport n (fun u => { u.awake with ust := .disabled }) s
  match portOf n with
  | some p => ttDiscard p false s
  | none => s

def portEnableClear (n : Nat) : State → State :=
  portReq n fun s => if (s.uport n).ust == .enabled then uDisable n s else s

/-- SetPortFeature(PORT_TEST) (R220): selectors 1 to 5, from the states of R229, one port at a time. -/
def portTest (n sel : Nat) : State → State :=
  portReq n fun s =>
    let may := match (s.uport n).ust with
      | .disconnected | .disabled | .enabled | .suspended => true
      | _ => false
    let others := (hubPorts.filter (· ≠ n)).all fun k => match (s.uport k).ust with
      | .poweredOff | .disconnected | .disabled | .suspended => true
      | _ => k == 17
    if n = 17 || !decide (1 ≤ sel ∧ sel ≤ 5) || !may || !others || s.hub.testMode then answer .stall s
    else modUport n (fun u => { u with ust := .testing }) (s.modHub fun h => { h with testMode := true })

/-- ClearPortFeature of a change bit (USB 2.0 selectors, 23 for C_PORT_L1). -/
def portChangeClear (n feature : Nat) : State → State :=
  portReq n fun s =>
    let c (f : PortChange → PortChange) (s : State) : State := modUport n (fun u => { u with chg := f u.chg }) s
    match feature with
    | 16 => c (fun x => { x with connection := false }) s
    | 17 => c (fun x => { x with enable := false }) s
    | 18 => c (fun x => { x with suspend := false }) s
    | 19 => c (fun x => { x with overCurrent := false }) s
    | 20 => c (fun x => { x with reset := false }) s
    | 23 => c (fun x => { x with l1 := false }) s
    | _ => answer .stall s

/-! ### L1 downstream (R240, R241) -/

/-- HP_L1 and the result; the result byte of the status stage is the addendum's, which the manual does not give. -/
def l1Result (n r besl : Nat) (rwe : Bool) (dev : Nat) (s : State) : State :=
  let f := s.fresh
  let s := reply [f.1.truncate 8] 1 f.2
  match portOf n with
  | some p => s.setReg (R.HP_L1 p) (atBits 16 7 dev ||| atBits 8 3 r ||| atBits 4 1 (b2n rwe) ||| atBits 0 4 besl)
  | none => s

def portL1 (n besl : Nat) (rwe : Bool) (dev : Nat) (ans : LpmAnswer) : State → State :=
  portReq n fun s =>
    let u := s.uport n
    let no := !s.rdB F.HUB_CFG_D_L1_EN || u.speed == .low || n == 17 || match portOf n with
      | some p => !s.rdB (F.HP_CTRL_L1_EN p)
      | none => true
    if no then l1Result n 3 besl rwe dev s
    else if u.ust != .enabled then answer .stall s
    else match ans with
      | .ack => uEvt n 7 (l1Result n 1 besl rwe dev (modUport n (fun u => { u with ust := .l1 }) s))
      | .nyet => l1Result n 2 besl rwe dev s
      | .stall => l1Result n 3 besl rwe dev s
      | .none => l1Result n 4 besl rwe dev s

/-- The exit from a port's L1, by request or by the device (R241). -/
def l1Exit (n : Nat) (s : State) : State :=
  if (s.uport n).ust == .l1 then modUport n (fun u => { u with ust := .resuming, resumeL1 := true }) s else s

def portL1Clear (n : Nat) : State → State := portReq n (l1Exit n)

def portL1DeviceExit (p : PortId) (s : State) : State := if s.coreUp then l1Exit (p.val + 1) s else s

/-! ### Connect, disconnect, babble (R228, R229, R231) -/

def portConnect (p : PortId) (s : State) : State :=
  let u := (s.port p).u
  if s.coreUp && s.gateOpen p && u.ust == .disconnected && !u.conn then
    hpEvt p 0 (s.modU p fun u => { u with conn := true, chg := { u.chg with connection := true } })
  else s

def portDisconnect (p : PortId) (s : State) : State :=
  match (s.port p).u.ust with
  | .poweredOff | .resuming | .testing => s
  | .resetting => if s.coreUp then ttReset p false (uDisconnect p s) else s
  | _ => if s.coreUp && (s.port p).u.conn then ttDiscard p false (uDisconnect p s) else s

def portBabble (p : PortId) (s : State) : State :=
  if s.coreUp && (s.port p).u.ust == .enabled then
    let s := (uDisable (p.val + 1) s).modU p fun u => { u with chg := { u.chg with enable := true } }
    hpEvt p 3 (s.bump (F.HP_ERR_DISABLES p))
  else s

/-! ### Upstream (R233 to R244) -/

/-- An upstream bus reset at high or full speed (R225, R242). -/
def busReset (hs : Bool) (s : State) : State :=
  if s.coreUp && s.hub.st != .detached then
    hubBusReset (if hs && !s.rdB F.HUB_CFG_FS_ONLY then .high else .full) (leaveIdle s)
  else s

/-- 3 ms of idle on PU (R233). -/
def globalSuspend (s : State) : State :=
  if !s.coreUp || s.hub.st == .detached || s.hub.suspended || s.hub.l1 then s
  else
    let s := tb2Lose (s.modHub fun h => { h with suspended := true })
    let s := forEach hubPorts (fun n s => modUport n (fun u =>
      match u.ust with
      | .enabled => { u with ust := .suspended, suspGlob := true }
      | .suspended => { u with suspGlob := true }
      | _ => u) s) s
    hubEvt 4 (forEach downPorts ttIdle s)

/-- The host's resume ends (R234, R236): globally suspended ports return; a selective port that woke resumes now. -/
def hostResume (s : State) : State :=
  if !s.coreUp || !s.hub.suspended then s
  else
    let s := s.modHub fun h => { h with suspended := false, resuming := false }
    let s := forEach hubPorts (fun n s => modUport n (fun u =>
      if u.ust == .suspended && u.suspGlob then
        if u.suspSel then { u with suspGlob := false, wakePend := false, ust := if u.wakePend then .resuming else .suspended }
        else { u with ust := .enabled, suspGlob := false }
      else u) s) s
    hubEvt 5 (ttRunAll s)

/-- K is driven on PU (R235, R237, R239). -/
def wakeUpstream (s : State) : State :=
  let may := (s.hub.suspended && s.hub.rwakeEn) || (s.hub.l1 && s.hub.l1Rwe)
  if may && !s.hub.resuming then hubEvt 8 (s.modHub fun h => { h with resuming := true }) else s

/-- The hub still watches its ports: in SLEEP through UPHY (R237). -/
def State.watches (s : State) : Bool := s.coreUp || s.pwr.st == .sleep

/-- A device's K on a suspended port (R235, R236, R239). -/
def remoteK (p : PortId) (s : State) : State :=
  let u := (s.port p).u
  if !s.watches || (u.ust != .suspended && u.ust != .resuming) then s
  else
    let s := hpEvt p 6 (s.wr (F.HP_STATUS_RWAKE_SEEN p) 1)
    if u.ust == .resuming || s.hub.resuming then s
    else if s.hub.suspended then
      if s.hub.rwakeEn then wakeUpstream (s.modU p fun u => { u with wakePend := u.suspSel }) else s
    else if s.hub.l1 then wakeUpstream s
    else s.modU p fun u => { u with ust := .resuming }

def remoteEvent (s : State) : State := if s.watches then wakeUpstream s else s

/-- An LPM transaction to the hub (R238). -/
def lpmToken (link : Nat) (rwe : Bool) : State → State :=
  usbReq fun s =>
    let busy := hubPorts.any (fun n => match (s.uport n).ust with
        | .enabled | .resetting | .resuming | .testing => true
        | _ => false) ||
      downPorts.any (fun p => (s.port p).tt.np.toList.any (fun b => b.st != .free) || !(s.port p).tt.recs.isEmpty) ||
      s.efn.held.isSome || s.i2c.heldRead.isSome || s.i2c.heldWrite.isSome
    if !s.rdB F.HUB_CFG_U_L1_EN || !s.configured || link != 1 then answer .stall s
    else if busy then answer .nyet s
    else hubEvt 6 (tb2Lose (answer .ack (s.modHub fun h => { h with l1 := true, l1Rwe := rwe })))

/-- The host's resume from L1 ends (R238). -/
def l1Resume (s : State) : State :=
  if s.coreUp && s.hub.l1 then hubEvt 7 (s.modHub fun h => { h with l1 := false, resuming := false }) else s

def l1Remote (s : State) : State := if s.watches && s.hub.l1 then wakeUpstream s else s

/-! ### The pull-up (R70, R244) -/

/-- The conditions of R70; HOLD_CONNECT is ignored at Level 0. -/
def State.mayConnect (s : State) : Bool :=
  (s.port PU).tc.st == .attachedSnk && s.sto.fillDone && s.glb.levelSet && s.coreUp &&
    (s.glb.level == 0 || !s.img.holdConnect || s.rdB F.HUB_CONNECT_CONNECT)

def hubConnect (s : State) : State :=
  if s.mayConnect && s.hub.st == .detached then
    hubEvt 0 (s.modHub fun h => { h with st := .pullUp, recovery := s.glb.level == 0 })
  else s

/-! ### SOF and TB2 (R314, R318) -/

/-- The next frame and microframe. -/
def Tb2.next (hs : Bool) (t : Tb2) : BitVec 11 × BitVec 3 :=
  if hs then (if t.uframe = 7 then t.frame + 1 else t.frame, t.uframe + 1) else (t.frame + 1, 0)

/-- An SOF: FRAME and UFRAME are reloaded, POS restarts, two agreeing SOFs lock (R314). -/
def sofRx (f : BitVec 11) (s : State) : State :=
  if !s.usbUp || s.hub.l1 then s
  else
    let s := leaveIdle s
    let hs := s.hub.speed == .high
    let t := s.tim.tb2
    let n := t.next hs
    let uf : BitVec 3 := if !hs || f ≠ t.frame then 0 else t.uframe + 1
    let agree := if n = (f, uf) then t.agree + 1 else 0
    let lock := !t.valid && decide (2 ≤ agree)
    let s := s.modTim fun x =>
      { x with tb2 := { valid := t.valid || lock, frame := f, uframe := uf, pos := 0, agree := agree, missed := 0 } }
    let s := if lock then timEvt 6 s else s
    if uf = 0 && s.rdB F.TIM_CTRL_SOF_CAP && s.timeUp then timCapture 1 (BitVec.ofNat 32 f.toNat) s else s

/-- A missed SOF is counted as if it had arrived; the third in a row loses the lock (R314). -/
def sofMissed (s : State) : State :=
  if !s.usbUp || !s.tim.tb2.valid then s
  else
    let t := s.tim.tb2
    if 2 ≤ t.missed then tb2Lose s
    else
      let n := t.next (s.hub.speed == .high)
      s.modTim fun x => { x with tb2 := { t with frame := n.1, uframe := n.2, pos := 0, agree := 0, missed := t.missed + 1 } }

end Sys2Proof.Machine
end

