-- ==== Sys2Proof/Machine/TtAct.lean ====
section
/-! DEFINITION. What the transaction translators do (09_transaction_translators.md R247 to R263): splits, the full-speed
bus of each port, the TT requests, poison. Where in its pages a TT keeps records and data is log entry 10. -/

namespace Sys2Proof.Machine

/-! ### Where the words stand -/

/-- Store word of buffer `k`'s header. -/
def npWord (t : Tt) (k : Nat) : Nat := t.pages.headD 0 * 256 + 64 * k

/-- Store word of periodic record `k`: sixteen records of 16 bytes at the start of page P0. -/
def recWord (t : Tt) (k : Nat) : Nat := t.pages.getD 1 0 * 256 + 4 * k

/-- Store word of word `w` of the periodic ring: 192 words of P0 after the records, then the 256 words of P1. -/
def ringWord (t : Tt) (w : Nat) : Nat :=
  let i := w % 448
  if i < 192 then t.pages.getD 1 0 * 256 + 64 + i else t.pages.getD 2 0 * 256 + (i - 192)

/-- Words that hold `n` bytes. -/
def wordsFor (n : Nat) : Nat := (n + 3) / 4

/-- The store words of a record's data. -/
def recWords (t : Tt) (r : PRecord) : List Nat := (List.range (wordsFor r.len)).map fun j => ringWord t (r.off + j)

/-- The store words of a buffer's data. -/
def npWords (t : Tt) (k n : Nat) : List Nat := (List.range (wordsFor n)).map (npWord t k + 4 + ·)

/-- Writes words of open content: the fields of a header are not stated (log entry 10). -/
def writeOpen (l : List Nat) (s : State) : State :=
  forEach l (fun k s => let r := s.fresh; storeWrite k r.1 false r.2) s

/-- Writes bytes into words; what a last part of fewer than four bytes leaves in the rest of its word is open. -/
def writeData : List Nat → List Byte → State → State
  | k :: ks, a :: b :: c :: d :: l, s => writeData ks l (storeWrite k (BitVec.ofNat 32 (leNat [a, b, c, d])) false s)
  | k :: _, a :: l, s =>
    let r := s.fresh
    storeWrite k (BitVec.ofNat 32 (leNat ((a :: l) ++ (wordBytes r.1).drop (l.length + 1)))) false r.2
  | _, _, s => s

/-- Reads words for requester 2: the bytes, and the store address of the first poisoned word. -/
def readData : List Nat → State → (List Byte × Option Nat) × State
  | [], s => (([], none), s)
  | k :: l, s =>
    let r := storeRead 2 k s
    let t := readData l r.2
    ((wordBytes r.1.1 ++ t.1.1, if r.1.2 then some (4 * k) else t.1.2), t.2)

/-- A poison bite (R259). -/
def ttPoison (p : PortId) (a : Nat) (s : State) : State :=
  let s := ttEvt p 2 (s.bump (F.HP_TT_ERR_POISON p))
  raiseFault { src := .poisonTt, port := some p, addr := 0x100000 + a, req := 2, acc := 1 } s

/-- The bite, when a word read was poisoned. -/
def ttBite (p : PortId) (a : Option Nat) (s : State) : State :=
  match a with
  | some a => ttPoison p a s
  | none => s

/-! ### Buffers and records -/

/-- The buffer that holds an endpoint (R253, R255). -/
def Tt.find (t : Tt) (dirIn : Bool) (addr : BitVec 7) (ep : BitVec 4) : Option (Fin 4) :=
  (List.finRange 4).find? fun k =>
    t.np[k].st != .free && !t.np[k].dropped && t.np[k].addr == addr && t.np[k].ep == ep && t.np[k].dirIn == dirIn

def Tt.freeBuf (t : Tt) : Option (Fin 4) := (List.finRange 4).find? fun k => t.np[k].st == .free

/-- Changes a buffer; a change of state starts its AGE. -/
def modNp (p : PortId) (k : Fin 4) (f : NpBuf → NpBuf) (s : State) : State :=
  s.modTt p fun t =>
    let o := t.np[k]
    let n := f o
    { t with np := t.np.set k (if n.st == o.st then n else { n with since := s.tb3 }) }

/-- Frees a buffer; a RUNNING one finishes on the wire without a result (R261). -/
def npFree (p : PortId) (k : Fin 4) (s : State) : State :=
  modNp p k (fun b => if b.st == .running then { b with dropped := true } else { since := b.since }) s

/-- The record of a number. -/
def Tt.record (t : Tt) (k : Nat) : Option PRecord := t.recs.find? fun r => r.slot == k

def modRec (p : PortId) (k : Nat) (f : PRecord → PRecord) (s : State) : State :=
  s.modTt p fun t => { t with recs := t.recs.map fun r => if r.slot == k then f r else r }

/-- Frees a record; a running one finishes on the wire without a result. -/
def recFree (p : PortId) (k : Nat) (s : State) : State :=
  s.modTt p fun t =>
    { t with recs := (t.recs.filter fun r => r.slot != k || r.st == .running).map fun r =>
        if r.slot == k then { r with dropped := true } else r }

/-- The words of the ring in use: back to the farthest word a record holds. -/
def Tt.ringUsed (t : Tt) : Nat :=
  (t.recs.map fun r => if r.len = 0 then 0 else (t.ring + 447 - r.off % 448) % 448 + 1).foldl max 0

def Tt.ringRoom (t : Tt) (n : Nat) : Bool := decide (t.ringUsed + wordsFor n ≤ 448)

/-- The lowest record number not held. -/
def Tt.freeRec (t : Tt) : Option Nat := (List.range 16).find? fun k => !t.recs.any fun r => r.slot == k

/-- The TT takes splits for its port: RUN, the port Enabled (R249, R258, R261). -/
def State.ttTakes (s : State) (p : PortId) : Bool :=
  (s.port p).tt.st == .run && (s.port p).u.ust == .enabled

/-! ### The full-speed bus (R252, R254, R257) -/

/-- A transaction of the port is on the wire. -/
def Tt.busy (t : Tt) : Bool := t.np.toList.any (·.st == .running) || t.recs.any (·.st == .running)

/-- The QUEUED buffer accepted first. -/
def Tt.nextBuf (t : Tt) : Option (Fin 4) :=
  (List.finRange 4).foldl (fun m k =>
    if t.np[k].st == .queued then
      match m with
      | some j => if t.np[k].order < t.np[j].order then some k else m
      | none => some k
    else m) none

/-- Starts buffer `k`: its header and OUT data are fetched (R250, R259). A poisoned header discards the transaction; poisoned
data leave with an inverted CRC. -/
def npStart (p : PortId) (k : Fin 4) (s : State) : State :=
  let t := (s.port p).tt
  let b := t.np[k]
  let h := readData ((List.range 4).map (npWord t k + ·)) s
  match h.1.2 with
  | some a => npFree p k (ttPoison p a h.2)
  | none =>
    let d := if b.dirIn then (([], none), h.2) else readData (npWords t k b.len) h.2
    modNp p k (fun b => { b with st := .running, bad := d.1.2.isSome }) (ttBite p d.1.2 d.2)

/-- Starts a periodic record. -/
def recStart (p : PortId) (r : PRecord) (s : State) : State :=
  let t := (s.port p).tt
  let h := readData ((List.range 4).map (recWord t r.slot + ·)) s
  match h.1.2 with
  | some a => recFree p r.slot (ttPoison p a h.2)
  | none =>
    let d := if r.dirIn then (([], none), h.2) else readData (recWords t r) h.2
    modRec p r.slot (fun r => { r with st := .running, bad := d.1.2.isSome }) (ttBite p d.1.2 d.2)

/-- Starts the next transaction of a port whose bus is free: periodic records first, oldest first (R254, R257). -/
def ttNext (p : PortId) (s : State) : State :=
  let t := (s.port p).tt
  if !s.ttTakes p || t.busy then s
  else match t.recs.find? (·.st == .waiting) with
    | some r => recStart p r s
    | none => match t.nextBuf with
      | some k => npStart p k s
      | none => s

/-- A full-speed frame begins: SOF or keep-alive with TB2's frame number to an Enabled port (R252); periodic records due on a
Suspended or L1 port are discarded (R258). -/
def ttFrame (p : PortId) (s : State) : State :=
  if s.ttTakes p then ttNext p (s.modTt p fun t => { t with frame := s.tim.tb2.frame })
  else if (s.port p).tt.st == .run && ((s.port p).u.ust == .suspended || (s.port p).u.ust == .l1) then
    s.modTt p fun t => { t with recs := t.recs.filter (·.st != .waiting) }
  else s

/-- The result a transaction takes: a poisoned OUT is ERROR (R259), and so is a result its direction cannot have. -/
def xactResult (bad dirIn : Bool) (r : XactResult) : XactResult :=
  if bad || (r == .data && !dirIn) || (r == .ack && dirIn) then .error else r

def countError (p : PortId) (r : XactResult) (s : State) : State :=
  if r == .error then s.bump (F.HP_TT_ERR_XACT_ERR p) else s

/-- A running buffer ends (R254). -/
def npEnd (p : PortId) (k : Fin 4) (r : XactResult) (data1 : Bool) (data : List Byte) (s : State) : State :=
  let b := (s.port p).tt.np[k]
  let r := if 64 < data.length then .error else xactResult b.bad b.dirIn r
  let s := countError p r s
  if b.dropped then modNp p k (fun _ => {}) s
  else
    let d := if r == .data then data else []
    let s := writeData (npWords (s.port p).tt k d.length) d s
    modNp p k (fun b => { b with st := .done, res := some r, data1 := data1, len := d.length, stale := false }) s

/-- A running record ends; data for which the ring has no room are lost (log entry 10). -/
def recEnd (p : PortId) (x : PRecord) (r : XactResult) (data1 : Bool) (data : List Byte) (s : State) : State :=
  let t := (s.port p).tt
  let r := if 1023 < data.length || (r == .data && !t.ringRoom data.length) then .error else xactResult x.bad x.dirIn r
  let s := countError p r s
  if x.dropped then s.modTt p fun t => { t with recs := t.recs.filter (·.slot != x.slot) }
  else
    let d := if r == .data then data else []
    let x := { x with st := .ended, res := some r, data1 := data1, off := if r == .data then t.ring else x.off,
                      len := if r == .data then d.length else x.len }
    let s := if r == .data then writeData (recWords t x) d s else s
    s.modTt p fun t =>
      { t with recs := t.recs.map fun y => if y.slot == x.slot then x else y, ring := (t.ring + wordsFor d.length) % 448 }

/-- A full-speed transaction ends (R254, R257), and the bus takes the next. -/
def ttEnd (p : PortId) (r : XactResult) (data1 : Bool) (data : List Byte) (s : State) : State :=
  let t := (s.port p).tt
  match (List.finRange 4).find? fun k => t.np[k].st == .running with
  | some k => ttNext p (npEnd p k r data1 data s)
  | none => match t.recs.find? (·.st == .running) with
    | some x => ttNext p (recEnd p x r data1 data s)
    | none => s

/-! ### Control and bulk splits (R253, R255) -/

/-- Puts OUT or SETUP data into a buffer. -/
def npFill (p : PortId) (k : Fin 4) (data : List Byte) (s : State) : State :=
  modNp p k (fun b => { b with len := data.length })
    (writeData (npWords (s.port p).tt k data.length) data s)

/-- A buffer takes a new transaction. -/
def npTake (p : PortId) (k : Fin 4) (ty : NpType) (dirIn : Bool) (addr : BitVec 7) (ep : BitVec 4) (data : List Byte)
    (s : State) : State :=
  let t := (s.port p).tt
  let s := writeOpen ((List.range 4).map (npWord t k + ·)) s
  let s := modNp p k (fun _ => { st := .queued, ty := ty, dirIn := dirIn, addr := addr, ep := ep, order := t.nextOrder }) s
  npFill p k (if dirIn then [] else data)
    (s.modTt p fun t => { t with nextOrder := t.nextOrder + 1, naked := t.naked.filter (· ≠ (addr, ep, dirIn)) })

/-- A control or bulk start-split (R253, R258). -/
def ttStart (p : PortId) (ty : NpType) (dirIn : Bool) (addr : BitVec 7) (ep : BitVec 4) (data : List Byte) (crcOk : Bool)
    (s : State) : State :=
  if !s.ttTakes p || !crcOk || 64 < data.length then answer .noHandshake s
  else
    let t := (s.port p).tt
    match t.find dirIn addr ep with
    | some k => answer .ack (if t.np[k].st == .queued && !dirIn then npFill p k data s else s)
    | none => match t.freeBuf with
      | some k => answer .ack (npTake p k ty dirIn addr ep data s)
      | none => answer .nak (s.modTt p fun t => { t with naked := (addr, ep, dirIn) :: t.naked.filter (· ≠ (addr, ep, dirIn)) })

/-- The handshake of a result. -/
def resultAnswer : XactResult → UsbAnswer
  | .ack => .ack
  | .nak => .nak
  | .stall => .stall
  | _ => .noHandshake

/-- A control or bulk complete-split (R255, R258, R259). -/
def ttComplete (p : PortId) (dirIn : Bool) (addr : BitVec 7) (ep : BitVec 4) (s : State) : State :=
  let t := (s.port p).tt
  if !s.ttTakes p then answer .noHandshake s
  else match t.find dirIn addr ep with
    | none => answer (if t.naked.contains (addr, ep, dirIn) then .nyet else .noHandshake) s
    | some k =>
      let b := t.np[k]
      if b.st != .done then answer .nyet s
      else if b.res == some .data then
        let d := readData (npWords t k b.len) s
        match d.1.2 with
        | some a => answer (.data (d.1.1.take b.len) false b.data1) (ttPoison p a d.2)
        | none => answer (.data (d.1.1.take b.len) true b.data1) (npFree p k d.2)
      else answer (resultAnswer (b.res.getD .error)) (npFree p k s)

/-- A buffer DONE for longer than STALE (R255). -/
def ttStale (p : PortId) (k : Fin 4) (s : State) : State :=
  let b := (s.port p).tt.np[k]
  if b.st == .done && !b.stale && s.coreUp then ttEvt p 0 (modNp p k (fun b => { b with stale := true }) s) else s

/-! ### Periodic splits (R256, R257) -/

/-- A periodic start-split (R256, R258). -/
def ttPerStart (p : PortId) (iso dirIn : Bool) (addr : BitVec 7) (ep : BitVec 4) (data : List Byte) (s : State) : State :=
  let s := answer .noHandshake s
  if !s.ttTakes p then s
  else
    let t := (s.port p).tt
    let d := if dirIn then [] else data
    match t.freeRec with
    | some k =>
      if t.ringRoom d.length then
        let r : PRecord := { slot := k, iso := iso, dirIn := dirIn, addr := addr, ep := ep, off := t.ring, len := d.length }
        let s := writeOpen ((List.range 4).map (recWord t k + ·)) s
        let s := writeData (recWords t r) d s
        s.modTt p fun t => { t with recs := t.recs ++ [r], ring := (t.ring + wordsFor d.length) % 448 }
      else raiseAt .ttOverrun (some p) (ttEvt p 1 (s.bump (F.HP_TT_ERR_OVERRUN p)))
    | none => raiseAt .ttOverrun (some p) (ttEvt p 1 (s.bump (F.HP_TT_ERR_OVERRUN p)))

/-- The answer of an ended record, ERR for a failed one or poisoned data (R257, R259). -/
def recAnswer (p : PortId) (r : PRecord) (s : State) : State :=
  match r.res with
  | some .data =>
    let d := readData (recWords (s.port p).tt r) s
    match d.1.2 with
    | some a => answer .err (ttPoison p a d.2)
    | none => answer (.data (d.1.1.take r.len) true r.data1) d.2
  | some .error => answer .err s
  | some x => answer (resultAnswer x) s
  | none => answer .err s

/-- A periodic complete-split; the last one frees the record (R257, R258). -/
def ttPerComplete (p : PortId) (dirIn : Bool) (addr : BitVec 7) (ep : BitVec 4) (last : Bool) (s : State) : State :=
  if !s.ttTakes p then answer .err s
  else match (s.port p).tt.recs.find? fun r => !r.dropped && r.addr == addr && r.ep == ep && r.dirIn == dirIn with
    | none => answer .err s
    | some r =>
      let s := if r.st == .ended then recAnswer p r s else answer .nyet s
      if last then recFree p r.slot s else s

/-- A record not started by EOF1, or kept for three microframes, goes (R257). -/
def ttExpire (p : PortId) (k : Nat) (s : State) : State :=
  match (s.port p).tt.record k with
  | some r => if r.st == .running || !s.coreUp then s else recFree p k s
  | none => s

/-! ### Requests (R247, R261, R262) -/

/-- The ports a TT request addresses; none for a bad TT_port. -/
def State.ttPorts (s : State) (n : Nat) : List PortId :=
  if s.hub.alt then (if n = 17 then [] else (portOf n).toList) else if n = 1 then downPorts else []

/-- A TT request on the TTs it addresses; it is stalled for a bad TT_port. -/
def ttReq (n : Nat) (f : List PortId → State → State) : State → State :=
  cfgReq fun s =>
    let l := s.ttPorts n
    if l.isEmpty then answer .stall s else f l s

/-- ClearTTBuffer: wValue carries the endpoint in bits 3 to 0, the address in 10 to 4, the type in 12 to 11 and the direction
in 15 (USB 2.0, PRESUMED, log entry 23). -/
def ttClear (v : BitVec 16) (p : PortId) (s : State) : State :=
  let ty : NpType := if (v.toNat / 2048) % 4 = 2 then .bulk else .control
  match (s.port p).tt.find (v.getLsbD 15) (BitVec.ofNat 7 (v.toNat / 16)) (BitVec.ofNat 4 v.toNat) with
  | some k => if (s.port p).tt.np[k].ty == ty && (v.toNat / 2048) % 2 = 0 then npFree p k s else s
  | none => s

/-- StopTT (R261); a TT that is IDLE or UNAVAILABLE stays so. -/
def ttStop (p : PortId) (s : State) : State :=
  match (s.port p).tt.st with
  | .run | .stopped => ttEvt p 4 (s.modTt p fun t => { t with st := .stopped })
  | _ => s

def TtState.code : TtState → Nat
  | .idle => 0 | .run => 1 | .stopped => 2 | .unavailable => 3

def NpState.code : NpState → Nat
  | .free => 0 | .queued => 1 | .running => 2 | .done => 3

/-- The two masks of a TT: QUEUED or RUNNING in [3:0], DONE in [7:4] (R262). -/
def Tt.masks (t : Tt) : Nat :=
  ((List.finRange 4).map fun k =>
    match t.np[k].st with
    | .free => 0
    | .done => 16 * 2 ^ k.val
    | _ => 2 ^ k.val).sum

/-- HP_TT_PAGES. -/
def Tt.pagesWord (t : Tt) : Nat := t.pages.getD 0 0 + t.pages.getD 1 0 * 2 ^ 9 + t.pages.getD 2 0 * 2 ^ 18

/-- The TT state record (R262). -/
def State.ttRecord (s : State) (n : Nat) : List Byte :=
  let one := portOf n
  let tts := downPorts.map fun p => (s.port p).tt
  let r : Nat × Nat × Nat × Nat × Nat × Nat :=
    match s.hub.alt, one with
    | true, some p =>
      let t := (s.port p).tt
      (n, t.st.code, t.masks, t.recs.length, (s.reg (R.HP_TT_ERR p)).toNat, t.pagesWord)
    | _, _ =>
      (0xFF, (tts.map (·.st.code)).foldl max 0, (tts.map (·.masks)).foldl (· ||| ·) 0,
        min 255 (tts.map (·.recs.length)).sum, (s.reg (R.HP_TT_ERR 0)).toNat, 0)
  leBytes 1 r.1 ++ leBytes 1 r.2.1 ++ leBytes 1 r.2.2.1 ++ leBytes 1 r.2.2.2.1 ++ leBytes 4 r.2.2.2.2.1 ++
    leBytes 4 r.2.2.2.2.2 ++ leBytes 4 0

/-- GetTTState: stalled unless the TT is STOPPED (R261); in alternate setting 0, unless some TT is. -/
def ttGetState (n len : Nat) : State → State :=
  ttReq n fun l s =>
    if l.any fun p => (s.port p).tt.st == .stopped then reply (s.ttRecord n) len s else answer .stall s

def ttClearBuffer (n : Nat) (v : BitVec 16) : State → State :=
  ttReq n fun l s => answer .ack (forEach l (ttClear v) s)

def ttResetReq (n : Nat) : State → State := ttReq n fun l s => answer .ack (forEach l (ttReset · false) s)

def ttStopReq (n : Nat) : State → State := ttReq n fun l s => answer .ack (forEach l ttStop s)

/-- A write of HP_TT_CMD (R263). -/
def ttCmd (p : PortId) (v : Word) (s : State) : State :=
  let s := if bitOf v 1 then forEach (List.finRange 4) (npFree p) s else s
  if bitOf v 0 then ttReset p false s else s

end Sys2Proof.Machine
end

