-- ==== Sys2Proof/Machine/MeterAct.lean ====
section
/-! DEFINITION. Meters, snapshots, the metering log and the EP4 stream (04_port_power_path.md R114, R118, R128 to R134,
10_embedded_function.md R286 to R288). -/

namespace Sys2Proof.Machine

/-! ### One sample (R128 to R130) -/

/-- Samples of the averaging window (MT_CFG.WIN). -/
def winSize (w : Nat) : Nat :=
  match w % 4 with
  | 0 => 32
  | 1 => 256
  | 2 => 1024
  | _ => 8192

def meterList : List MeterId := List.finRange 21

/-- MT_CFG.WIN of a meter. -/
def State.win (s : State) (m : MeterId) : Nat := winSize (bitsOf (s.reg (mtBase m)) 0 2)

/-- Millivolts per voltage unit: 1 for ports and PU, 2 for FA, FB, AX0 and AX1 (R129). -/
def unitMv (m : MeterId) : Nat := if m.val < 17 then 1 else 2

/-- The converters are 16 bits wide (R128). -/
def clampV (v : Int) : Int := max 0 (min 65535 v)
def clampI (i : Int) : Int := max (-32768) (min 32767 i)

/-- Millijoules in units of 1/32 nanojoule (a milliwatt-thousandth for one sample of 1/32 ms). -/
def mjUnit : Nat := 32 * 1000000

/-- A meter takes a sample: `v` in its unit of `u` mV and `i` in mA (R129, R130). -/
def Meter.take (x : Meter) (u : Nat) (v i : Int) : Meter :=
  let v := clampV v
  let i := clampI i
  let e := x.residue + v.toNat * u * i.toNat
  { x with v := BitVec.ofInt 16 v, i := BitVec.ofInt 16 i, window := ((v, i) :: x.window).take 8192,
           energy := x.energy + BitVec.ofNat 48 (e / mjUnit), residue := e % mjUnit, cnt := x.cnt + 1,
           ipeak := if x.ipeak.toNat < i.toNat then BitVec.ofNat 16 i.toNat else x.ipeak,
           vmin := if (x.cnt = 0 ∧ x.window.isEmpty) ∨ v.toNat < x.vmin.toNat then BitVec.ofNat 16 v.toNat else x.vmin }

/-- A quotient as an integer next to it; where it is inexact the side is open (log entry 30). -/
def meanOf (num : Int) (den : Nat) : Int :=
  if num % den = 0 then num / den else if Config.roundUp num den then num / den + 1 else num / den

/-- MT_IAVG (R129). -/
def State.iavg (s : State) (m : MeterId) : Int :=
  let w := (s.mt.m[m].window).take (s.win m)
  meanOf (w.map Prod.snd).sum w.length

/-- MT_P in mW (R129). -/
def State.meanPower (s : State) (m : MeterId) : Int :=
  let w := (s.mt.m[m].window).take (s.win m)
  meanOf ((w.map fun e => e.1 * e.2).sum * unitMv m) (1000 * w.length)

/-! ### What the samples drive (R114, R118) -/

/-- The confirmed output of a port's converter, in mV; PU has none (log entry 31). -/
def State.convOut (s : State) (p : PortId) : Nat :=
  match (s.conv p).bind s.target? with
  | some t => t.confirmed
  | none => 0

/-- The brake timers that run at a current (R118): used breakpoints at or below it. -/
def brkRunning (s : State) (p : PortId) (i : Int) : BitVec 8 :=
  BitVec.ofNat 8 ((List.range 8).map fun k =>
    let th := s.rd (F.PP_BRK_I_TH p k)
    if th ≠ 0 ∧ (th * 10 : Int) ≤ i then 2 ^ k else 0).sum

/-- The accumulator after one sample period of 31.25 µs, in quarters of a picojoule (R114). -/
def soaNext (s : State) (p : PortId) (v i : Int) : Nat :=
  let x := (s.port p).pp
  match x.st with
  | .ramp | .limit => x.soa + ((s.convOut p : Int) - v).toNat * i.toNat * 125
  | _ => x.soa - s.rd (F.PP_BRKCFG_SOA_MJ p) * 12500

/-- A port's path at a sample instant: between samples current and voltage are taken as constant (log entry 31). -/
def ppSample (p : PortId) (v i : Int) (s : State) : State :=
  let n := soaNext s p v i
  let b := match (s.port p).pp.st with
    | .ramp | .on | .limit => brkRunning s p i
    | _ => 0
  s.modPp p fun x => { x with soa := n, brk := b }

/-- The sample instant (R128): every meter takes its voltage and current. -/
def meterSample (v i : List Int) (s : State) : State :=
  if !s.pwr.afeOn || !s.aonUp then s
  else
    let s := forEach allPorts (fun p => ppSample p (clampV (v.getD p.val 0)) (clampI (i.getD p.val 0))) s
    let m := Vector.ofFn fun k : Fin 21 => Meter.take s.mt.m[k] (unitMv k) (v.getD k.val 0) (i.getD k.val 0)
    s.modMt fun x => { x with m := m }

/-! ### Records (R286) -/

/-- A record's header. -/
def recordHeader (kind flags seq mask : Nat) (t : TbTime) : List Byte :=
  leBytes 1 kind ++ leBytes 1 flags ++ leBytes 2 seq ++ leBytes 4 mask ++ leBytes 4 t.sec ++ leBytes 4 t.ns

/-- Two's complement of `n` bytes. -/
def intBytes (n : Nat) (v : Int) : List Byte := leBytes n ((v % (2 ^ (8 * n) : Int)).toNat)

/-- The entry of a meter; `snap` chooses the snapshot values (R286). -/
def meterEntry (s : State) (snap : Bool) (m : MeterId) : List Byte :=
  let x := s.mt.m[m]
  leBytes 6 (if snap then x.sEnergy else x.energy).toNat ++ leBytes 2 (if snap then x.sVmin else x.vmin).toNat ++
    leBytes 2 (if snap then x.sIpeak else x.ipeak).toNat ++ intBytes 2 (s.iavg m) ++
    leBytes 4 (if snap then x.sCnt else x.cnt).toNat ++ intBytes 4 (s.meanPower m) ++ leBytes 2 x.v.toNat ++ leBytes 2 0

/-- A whole record for the meters of a mask. -/
def meterRecord (s : State) (snap : Bool) (lost : Bool) (seq mask : Nat) (t : TbTime) : List Byte :=
  recordHeader (if snap then 1 else 2) (b2n lost + 2 * b2n (!s.pwr.afeOn)) seq mask t ++
    (meterList.filter fun m => mask.testBit m.val).flatMap (meterEntry s snap)

/-! ### The log (R287) -/

/-- The log's pages: the MTR region's pages taken at load, in ascending order (R292). -/
def State.mlogPages (s : State) : List Nat := (s.rgnPages 5).filter fun p => s.sto.alloc.contains p

/-- Writes bytes at an offset of the log, word by word; offsets and lengths are multiples of 4. -/
def mlogPut : Nat → List Word → State → State
  | _, [], s => s
  | off, w :: l, s =>
    mlogPut (off + 4) l (storeWrite ((s.mlogPages.getD (off / 1024) 0) * 256 + off % 1024 / 4) w false s)

/-- The pad header: KIND 0; its other fields are open. `n` words remain before the ring's end. -/
def mlogPad (off n : Nat) (s : State) : State :=
  let a := s.fresh
  let b := a.2.fresh
  let c := b.2.fresh
  let d := c.2.fresh
  mlogPut off ([a.1 &&& ~~~ maskOf 0 8, b.1, c.1, d.1].take n) d.2

/-- The next record goes to offset 0: WRAP advances. -/
def mlogWrap (s : State) : State := (s.bumpWrap F.EFN_MLOG_WPTR_WRAP).wr F.EFN_MLOG_WPTR_WPTR 0

/-- Writes a SNAP record to the log (R287); a ring too small for it loses it. -/
def mlogSnap (t : TbTime) (s : State) : State :=
  let r := meterRecord s true s.efn.logLostFlag s.mt.sseq.toNat (s.rd F.EFN_MLOG_CTRL_MASK) t
  let size := 1024 * s.mlogPages.length
  if size < r.length || !s.sto.fillDone then s.modEfn fun e => { e with logLostFlag := true }
  else
    let off := s.rd F.EFN_MLOG_WPTR_WPTR
    let s := s.modEfn fun e => { e with logLostFlag := false }
    let s := if size < off + r.length then mlogWrap (mlogPad off ((size - off) / 4) s) else s
    let off := s.rd F.EFN_MLOG_WPTR_WPTR
    let s := mlogPut off (bytesWords r.length r) s
    if off + r.length = size then mlogWrap s else s.wr F.EFN_MLOG_WPTR_WPTR (off + r.length)

/-! ### The stream (R288) -/

/-- Appends a record to the EP4 stream, or drops it; at Level 0 there is no EP4 (R265). -/
def streamPut (snap : Bool) (seq : Nat) (t : TbTime) (s : State) : State :=
  if !s.rdB F.EFN_MTR_CTRL_EN || s.glb.level = 0 then s
  else
    let r := meterRecord s snap s.efn.mtrLostFlag seq (s.rd F.EFN_MTR_CTRL_MASK) t
    if s.epFree 6 < r.length || !s.sto.fillDone then mtrLost 1 s
    else
      ((epPut 6 r s).modEp 6 fun b => { b with xfers := b.xfers ++ [r.length] }).modEfn fun e =>
        { e with mtrLostFlag := false }

/-- EN = 0 empties the stream's buffer (R288). -/
def streamEnable (s : State) : State := if s.rdB F.EFN_MTR_CTRL_EN then s else epEmpty 6 s

/-- A tick of the stream (R288): the tick counter advances, and the record carries it. -/
def meterTick (s : State) : State :=
  if !s.rdB F.EFN_MTR_CTRL_EN || s.rd F.EFN_MTR_CTRL_TICK = 0 || !s.coreUp then s
  else
    let s := s.bumpWrap F.EFN_MTR_STAT_TICKSEQ
    streamPut false (s.rd F.EFN_MTR_STAT_TICKSEQ) s.tb0 s

/-! ### Snapshots (R131) -/

/-- A meter's values copied; IPEAK and VMIN start afresh from its last sample, unless they are held. -/
def Meter.snap (x : Meter) (held : Bool) : Meter :=
  { x with sEnergy := x.energy, sCnt := x.cnt, sIpeak := x.ipeak, sVmin := x.vmin,
           ipeak := if held then x.ipeak else BitVec.ofNat 16 x.i.toInt.toNat,
           vmin := if held then x.vmin else x.v }

/-- The snapshot: every meter copied, stamped and numbered; SNAP_MERGED after two or more commits; the log and the stream
take their records. -/
def snapshot (s : State) : State :=
  let t := s.tb0
  let merged := decide (2 ≤ s.mt.snapPend)
  let held := !s.pwr.afeOn
  let s := s.modMt fun x => { m := x.m.map (Meter.snap · held), sseq := x.sseq + 1, sStamp := t, snapPend := 0 }
  let s := if merged then pushEvent 0x00 0xFF08 (BitVec.ofNat 32 s.mt.sseq.toNat) s else s
  streamPut true s.mt.sseq.toNat t (mlogSnap t s)

/-- The first sample at or after a commit of G10. -/
def snapshotTaken (s : State) : State := if 0 < s.mt.snapPend ∧ s.pwr.afeOn then snapshot s else s

/-- A commit named G10: the snapshot follows at the next sample, at once while AFE-A and AFE-B are off. -/
def snapshotDue (s : State) : State :=
  let s := s.modMt fun x => { x with snapPend := x.snapPend + 1 }
  if s.pwr.afeOn then s else snapshot s

end Sys2Proof.Machine
end

