-- ==== Sys2Proof/Machine/EfnAct.lean ====
section
/-! DEFINITION. The embedded function's endpoints (10_embedded_function.md R264 to R274, R281, R284, R285;
14_cadence_queues.md R377, R378): standard requests, bulk packets, halts, poison. Descriptor layouts are USB 2.0's
(PRESUMED, log entry 23). -/

namespace Sys2Proof.Machine

/-! ### Descriptors (R264, R265) -/

/-- The endpoint addresses, in descriptor order; at Level 0 EP1 only. -/
def State.epAddrs (s : State) : List Byte := if s.glb.level = 0 then [0x01, 0x81] else [0x01, 0x81, 0x02, 0x82, 0x83, 0x84]

def efnDevice (s : State) : List Byte :=
  let i := s.identity
  deviceDesc 0 0 0 i.1 ((i.2.1 + 1) % 65536) i.2.2 s

def efnQualifier : List Byte := [10, 6, 0x10, 2, 0, 0, 0, 64, 1, 0]

/-- The configuration with bulk packets of `max` bytes. -/
def efnConfig (ty max : Nat) (s : State) : List Byte :=
  let eps := s.epAddrs.flatMap fun a => [7, 5, a, 2] ++ leBytes 2 max ++ [0]
  leBytes 1 9 ++ leBytes 1 ty ++ leBytes 2 (18 + eps.length) ++ [1, 1, 0, 0xC0, 0] ++
    [9, 4, 0, 0] ++ leBytes 1 s.epAddrs.length ++ [0xFF, 1, 1, 0] ++ eps

def efnDescriptor (ty k : Nat) (s : State) : Option (List Byte) :=
  match ty with
  | 1 => some (efnDevice s)
  | 2 => if k = 0 then some (efnConfig 2 s.maxPacket s) else none
  | 3 => stringDesc k s
  | 6 => some efnQualifier
  | 7 => if k = 0 then some (efnConfig 7 (576 - s.maxPacket) s) else none
  | 0x0F => some (bosDesc 0)
  | _ => none

/-! ### Endpoints -/

/-- The function takes packets: attached, the hub up (R266). -/
def State.efnUp (s : State) : Bool :=
  s.usbUp && match s.efn.st with
    | .default_ | .addressed | .configured => true
    | _ => false

/-- A buffer's endpoint exists: at Level 0 only EP0 and EP1 (R71, R265). -/
def State.epExists (s : State) (e : Fin 7) : Bool := s.glb.level != 0 || decide (e.val ≤ 2)

/-- The endpoint takes bulk packets. -/
def State.epUp (s : State) (e : Fin 7) : Bool := s.efnUp && s.efn.st == .configured && s.epExists e

def epIsOut (e : Fin 7) : Bool := e = 1 || e = 3
def epIsIn (e : Fin 7) : Bool := e = 2 || e = 4 || e = 5 || e = 6

/-- The buffer of an endpoint address. -/
def epOfAddr (a : Nat) : Option (Fin 7) :=
  match a % 256 with
  | 0x00 | 0x80 => some 0
  | 0x01 => some 1
  | 0x81 => some 2
  | 0x02 => some 3
  | 0x82 => some 4
  | 0x83 => some 5
  | 0x84 => some 6
  | _ => none

/-- Every bulk toggle to DATA0 (R273). -/
def togglesReset (s : State) : State := s.modEfn fun x => { x with eps := x.eps.map fun b => { b with toggle := false } }

/-! ### A batch on EP1 OUT (R280, R281) -/

/-- Where the batch in EP1 OUT ends. -/
inductive Extent where
  /-- more packets are to come -/
  | partly
  /-- the packets make exactly LEN bytes -/
  | whole (len : Nat)
  /-- these bytes and packets are a malformed batch -/
  | bad (len packets : Nat)
  deriving DecidableEq, Repr

/-- Adds packets until a batch of `len` bytes ends, is passed, or meets a short packet (R281); `none` of a length takes packets
up to the first short one. -/
def extentOf (max : Nat) (len : Option Nat) : Nat → Nat → List Nat → Extent
  | _, _, [] => .partly
  | sum, k, n :: l =>
    let t := sum + n
    match len with
    | some z =>
      if t = z then .whole z else if z < t ∨ n < max then .bad t (k + 1) else extentOf max len t (k + 1) l
    | none => if n < max then .bad t (k + 1) else extentOf max len t (k + 1) l

/-- LEN of a header, when it is in range (R280). -/
def State.batchLen (s : State) (h : List Byte) : Option Nat :=
  let z := leAt h 4 2
  if h.length = 8 ∧ z % 4 = 0 ∧ 16 ≤ z ∧ z ≤ min 4096 (s.epSize 1) then some z else none

/-- The extent of the batch at the head of EP1 OUT, and its header. -/
def batchExtent (s : State) : (Extent × List Byte) × State :=
  let b := s.ep 1
  let h := epPeek 1 0 (min 8 b.fill) s
  if b.fill < 8 ∧ ¬ b.xfers.any (· < s.maxPacket) then ((.partly, h.1.1), h.2)
  else ((extentOf s.maxPacket (s.batchLen h.1.1) 0 0 b.xfers, h.1.1), h.2)

/-- The batch state once EP1 OUT holds what it holds. -/
def batchIdle (s : State) : State :=
  s.modEfn fun e => { e with batch := if e.eps[(1 : Fin 7)].xfers.isEmpty then .idle else .receiving }

/-- A batch still incomplete after 100 ms is discarded (R281). -/
def batchAbort (s : State) : State :=
  let r := batchExtent s
  match s.efn.batch, r.1.1 with
  | .receiving, .partly => batchIdle (efnEvt 3 ((epEmpty 1 r.2).bump F.EFN_ERRCNT_MALFORMED))
  | _, _ => s

/-! ### OUT packets and PING (R271) -/

/-- The bytes of whole EP2 requests at the head of the ring (R375). -/
def ep2Whole : Nat → Nat → State → Nat × State
  | 0, off, s => (off, s)
  | n + 1, off, s =>
    let f := (s.ep 3).fill
    if f < off + 4 then (off, s)
    else
      let h := epPeek 3 off 4 s
      let z := leAt h.1.1 2 2
      if z = 0 ∨ f < off + z then (off, h.2) else ep2Whole n (off + z) h.2

/-- The packet lengths that make `n` bytes, the last one cut. -/
def trimPackets : Nat → List Nat → List Nat
  | _, [] => []
  | n, p :: l => if n = 0 then [] else if p ≤ n then p :: trimPackets (n - p) l else [n]

/-- Keeps the first `n` bytes of an OUT ring. -/
def epKeep (e : Fin 7) (n : Nat) (s : State) : State :=
  s.modEp e fun b => if n < b.fill then { b with fill := n, xfers := trimPackets (n + b.part) b.xfers } else b

/-- A packet joins an OUT ring. -/
def epTakeIn (e : Fin 7) (data : List Byte) (s : State) : State :=
  (epPut e data s).modEp e fun b => { b with xfers := b.xfers ++ [data.length], toggle := !b.toggle }

/-- An OUT packet (R271); EP2 OUT may be discarding (R376). -/
def bulkOut (e : Fin 7) (data : List Byte) (s : State) : State :=
  if !s.epUp e || !epIsOut e || s.maxPacket < data.length then s
  else if (s.ep e).halted then answer .stall s
  else if e = 3 && s.cad.ep2Discard then
    let s := if data.length < s.maxPacket then s.modCad fun c => { c with ep2Discard := false } else s
    answer .ack (s.modEp e fun b => { b with toggle := !b.toggle })
  else
    let free := s.epFree e
    if free < data.length then answer .nak s
    else
      let s := leaveIdle (epTakeIn e data s)
      let s := if e = 1 && s.efn.batch == .idle then s.modEfn fun x => { x with batch := .receiving } else s
      answer (if s.hub.speed == .high && decide (free < data.length + 512) then .nyet else .ack) s

/-- A PING, high speed only (R271). -/
def bulkPing (e : Fin 7) (s : State) : State :=
  if !s.epUp e || !epIsOut e || s.hub.speed != .high then s
  else if (s.ep e).halted then answer .stall s
  else answer (if 512 ≤ s.epFree e then .ack else .nak) s

/-! ### Filling EP2 IN and EP3 IN (R377) -/

/-- Appends a record to an IN ring as one unit. -/
def epRecord (e : Fin 7) (l : List Byte) (s : State) : State :=
  (epPut e l s).modEp e fun b => { b with xfers := b.xfers ++ [l.length] }

/-- Completion records go to EP2 IN while they fit. -/
def ep2Fill : Nat → State → State
  | 0, s => s
  | n + 1, s =>
    match s.cad.completions[(s.ep 4).xfers.length]? with
    | some c => if 24 ≤ s.epFree 4 then ep2Fill n (epRecord 4 c.bytes s) else s
    | none => s

/-- The count of the next receive record of a port to send: past those in the buffer and those released unsent. -/
def rxNext (x : RxRing) : Nat → BitVec 16 → Nat → Option (BitVec 16)
  | 0, _, _ => none
  | f + 1, c, n =>
    if c = x.wr then none
    else if x.skip.contains c then rxNext x f (c + 1) n
    else match n with
      | 0 => some c
      | m + 1 => rxNext x f (c + 1) m

/-- The next record of a host-owned ring that is not in the EP3 IN buffer. -/
def State.ep3Next (s : State) (p : PortId) : Option (BitVec 16) :=
  let x := (s.port p).cl.rx
  if x.own || !x.alloc then none else rxNext x 130 x.rd (s.cad.ep3Sent.count p)

/-- Copies words into an IN ring, poison with them (R298). -/
def epCopyWords (e : Fin 7) (k : Nat) : Nat → State → State
  | 0, s => s
  | n + 1, s =>
    let r := storeRead 3 k s
    let z := s.epSize e
    let b := s.ep e
    let a := s.epBase e + (if z = 0 then 0 else (b.rd + b.fill) % z)
    epCopyWords e (k + 1) n ((storeWrite (a / 4) r.1.1 r.1.2 r.2).modEp e fun b => { b with fill := b.fill + 4 })

/-- Bytes of a receive record on EP3 IN (R377). -/
def rxRecordLen (w : Word) : Nat := 4 * ((30 + bitsOf w 16 7 + 3) / 4)

/-- Receive records go to EP3 IN while they fit, the lowest-numbered port first. -/
def ep3Fill : Nat → State → State
  | 0, s => s
  | n + 1, s =>
    match allPorts.find? fun p => (s.ep3Next p).isSome with
    | none => s
    | some p =>
      let c := ((s.ep3Next p).getD 0).toNat
      let k := ((s.port p).cl.rx.base * 1024 + c % 64 * 96) / 4
      let z := min 96 (rxRecordLen (s.cell k).data)
      if s.epFree 5 < z then s
      else
        let s := (epCopyWords 5 k (z / 4) s).modEp 5 fun b => { b with xfers := b.xfers ++ [z] }
        ep3Fill n (s.modCad fun x => { x with ep3Sent := x.ep3Sent ++ [p] })

/-- What is ready goes to an endpoint's buffer. -/
def epFill (e : Fin 7) (s : State) : State :=
  if e = 4 then ep2Fill 700 s else if e = 5 then ep3Fill 500 s else s

/-! ### IN packets (R272, R274, R283, R288) -/

/-- The length of the next packet of an IN endpoint; none when it has nothing to send. -/
def nextPacket (e : Fin 7) (s : State) : Option Nat :=
  let b := s.ep e
  match b.sent with
  | some n => some n
  | none =>
    if e = 2 then b.xfers.head?.map fun n => min s.maxPacket (n - b.part)
    else if 0 < b.fill ∨ b.more then some (min s.maxPacket b.fill) else none

/-- How far past the oldest byte the first poisoned word of a packet begins. -/
def epPoisonAt (e : Fin 7) (n : Nat) (s : State) : Option Nat :=
  (List.range n).find? fun i => eccClass (s.cell (s.epAddr e i / 4)) == .uncorrectable

/-- The unit that holds the byte `off` past the oldest. -/
def unitAt : List Nat → Nat → Nat → Nat
  | [], k, _ => k
  | n :: l, k, off => if off < n then k else unitAt l (k + 1) (off - n)

/-- The completion that holds the poisoned word is released unsent (R378). -/
def ep2Lose (j : Nat) (s : State) : State :=
  match s.cad.completions[j]? with
  | some c =>
    completionFree c ((s.modCad fun x => { x with completions := x.completions.eraseIdx j }).bump F.CAD_HOST_LOST)
  | none => s

/-- Sets LOST on the record after `c` of a ring, or on the next one written (R378). -/
def rxMarkLost (p : PortId) (c : BitVec 16) (s : State) : State :=
  let x := (s.port p).cl.rx
  if c + 1 = x.wr then s.modCl p fun l => { l with rx := { l.rx with lost := true } }
  else
    let k := (x.base * 1024 + (c + 1).toNat % 64 * 96) / 4
    s.setCell k { s.cell k with data := setBit (s.cell k).data 31 }

/-- The receive record that holds the poisoned word is released unsent (R378). -/
def ep3Lose (j : Nat) (s : State) : State :=
  match s.cad.ep3Sent[j]? with
  | none => s
  | some p =>
    let x := (s.port p).cl.rx
    match rxNext x 130 x.rd ((s.cad.ep3Sent.take j).count p) with
    | none => s
    | some c =>
      let s := rxMarkLost p c (s.bump F.CAD_HOST_LOST)
      if c = x.rd then rxRelease p s else s.modCl p fun l => { l with rx := { l.rx with skip := c :: l.rx.skip } }

/-- The third poisoned read in a row in one page: the endpoint halts and discards what it holds (R274, R378). -/
def poisonHalt (e : Fin 7) (off : Nat) (s : State) : State :=
  let b := s.ep e
  let j := unitAt b.xfers 0 (b.part + off)
  let s := if e = 6 then mtrLost b.xfers.length s else if e = 4 then ep2Lose j s else if e = 5 then ep3Lose j s else s
  let s := (epEmpty e s).modEp e fun b => { b with halted := true, poisonRun := 0 }
  let s := if e = 2 && s.efn.batch == .responseUnread then batchIdle s else s
  forEach allPorts rxOwn (efnEvt 2 s)

/-- A poisoned word in an IN packet (R274). -/
def poisonIn (e : Fin 7) (off : Nat) (s : State) : State :=
  let a := s.epAddr e off / 4 * 4
  let s := efnEvt 1 (s.bump (F.EFN_EP_STAT_POISON_CNT e.val))
  let s := raiseFault { src := .poisonEfn, addr := 0x100000 + a, req := 0, acc := 1 } s
  let b := s.ep e
  let run := if 0 < b.poisonRun ∧ b.poisonPage = a / 1024 then b.poisonRun + 1 else 1
  let s := s.modEp e fun b => { b with poisonRun := run, poisonPage := a / 1024 }
  if 3 ≤ run then poisonHalt e off s else s

/-- An IN token (R272, R274). -/
def bulkIn (e : Fin 7) (s : State) : State :=
  if !s.epUp e || !epIsIn e then s
  else if (s.ep e).halted then answer .stall s
  else
    let s := leaveIdle (epFill e s)
    match nextPacket e s with
    | none => answer .nak s
    | some n =>
      let bad := epPoisonAt e n s
      let r := epPeek e 0 n s
      let s := r.2.modEp e fun b => { b with sent := some n }
      let t := (s.ep e).toggle
      let s := match bad with
        | some off => poisonIn e off s
        | none => s.modEp e fun b => { b with poisonRun := 0 }
      answer (.data (r.1.1.take n) bad.isNone t) s

/-- Records that a packet completes are released (R378). -/
def epRelease (e : Fin 7) (k : Nat) (s : State) : State :=
  if e = 4 then forEach (List.range k) (fun _ => completionRelease) s
  else if e = 5 then
    let l := s.cad.ep3Sent.take k
    forEach l rxRelease (s.modCad fun x => { x with ep3Sent := x.ep3Sent.drop k })
  else s

/-- The host has read EP1 IN empty: the next batch may run (R284). -/
def ep1Read (s : State) : State :=
  if (s.ep 2).xfers.isEmpty && s.efn.batch == .responseUnread then batchIdle s else s

/-- The host acknowledges the packet of an IN endpoint (R272, R378). -/
def bulkInAck (e : Fin 7) (s : State) : State :=
  if !s.epUp e || !epIsIn e || (s.ep e).halted then s
  else match (s.ep e).sent with
    | none => s
    | some n =>
      let full := n = s.maxPacket
      let b := s.ep e
      let s := (epDrop e n s).modEp e fun b => { b with sent := none, toggle := !b.toggle }
      if e = 2 then
        ep1Read (s.modEp e fun b => if full then { b with part := b.part + n } else { b with xfers := b.xfers.tail, part := 0 })
      else
        let r := popPackets b.xfers (b.part + n)
        epRelease e (b.xfers.length - r.1.length)
          (s.modEp e fun b => { b with xfers := r.1, part := r.2, more := full })

/-! ### Halts (R273) -/

/-- An OUT endpoint's sequence only partly received is discarded. -/
def outPartial (e : Fin 7) (s : State) : State :=
  if e = 1 then
    let r := batchExtent s
    match s.efn.batch, r.1.1 with
    | .receiving, .partly => batchIdle (epEmpty 1 r.2)
    | _, _ => r.2
  else if e = 3 then
    let r := ep2Whole 512 0 s
    epKeep 3 r.1 r.2
  else s

/-- SetFeature(ENDPOINT_HALT). -/
def setHalt (e : Fin 7) (s : State) : State :=
  if !s.efnUp then s
  else if !s.epExists e || (e ≠ 0 && s.efn.st != .configured) then answer .stall s
  else if e = 0 then answer .ack s
  else answer .ack (outPartial e (s.modEp e fun b => { b with halted := true }))

/-- ClearFeature(ENDPOINT_HALT): the toggle goes to DATA0 whether or not the endpoint was halted. -/
def clearHalt (e : Fin 7) (s : State) : State :=
  if !s.efnUp then s
  else if !s.epExists e || (e ≠ 0 && s.efn.st != .configured) then answer .stall s
  else if e = 0 then answer .ack s
  else answer .ack (s.modEp e fun b => { b with halted := false, toggle := false })

/-! ### Standard requests (R266, R273, R285) -/

/-- SetConfiguration. -/
def efnSetConfig (v : Nat) (s : State) : State :=
  if s.efn.st == .default_ then answer .stall s
  else if v = 1 then
    answer .ack (togglesReset (s.modEfn fun e => { e with st := .configured }))
  else if v = 0 then
    let a := s.efn.addr
    answer .ack ((efnDown .addressed s.ep4Records s).modEfn fun e => { e with addr := a })
  else answer .stall s

def efnSetAddress (v : Nat) (s : State) : State :=
  if s.efn.st == .configured then answer .stall s
  else answer .ack (s.modEfn fun e =>
    { e with addr := BitVec.ofNat 7 v, st := if v % 128 = 0 then .default_ else .addressed })

/-- GetStatus: self-powered, no remote wakeup; the halt of an endpoint. -/
def efnStatus (recipient ix : Nat) (s : State) : Option (List Byte) :=
  match recipient with
  | 0 => some [1, 0]
  | 1 => if ix = 0 then some [0, 0] else none
  | 2 => match epOfAddr ix with
    | some e => if s.epExists e then some (leBytes 2 (b2n (s.ep e).halted)) else none
    | none => none
  | _ => none

def replyOr (o : Option (List Byte)) (len : Nat) (s : State) : State :=
  match o with
  | some l => reply l len s
  | none => answer .stall s

/-- Set or ClearFeature: ENDPOINT_HALT only. -/
def efnFeature (set : Bool) (recipient v ix : Nat) (s : State) : State :=
  match recipient, v, epOfAddr ix with
  | 2, 0, some e => if set then setHalt e s else clearHalt e s
  | _, _, _ => answer .stall s

/-- A new SETUP abandons a held request, and a pop that waits with it (R278). -/
def setup (s : State) : State := (s.modEfn fun e => { e with held := none }).modPath .usb fun x => { x with popWait := false }

/-- A standard request to the function on EP0. -/
def efnStandard (bm req v ix len : Nat) (s : State) : State :=
  if !s.efnUp then s
  else
    let s := leaveIdle (setup s)
    if bm / 32 % 4 ≠ 0 then answer .stall s
    else match req with
      | 0 => replyOr (efnStatus (bm % 32) ix s) len s
      | 1 => efnFeature false (bm % 32) v ix s
      | 3 => efnFeature true (bm % 32) v ix s
      | 5 => efnSetAddress v s
      | 6 => replyOr (efnDescriptor (v / 256 % 256) (v % 256) s) len s
      | 8 => reply [if s.efn.st == .configured then 1 else 0] len s
      | 9 => efnSetConfig (v % 256) s
      | 10 => if s.efn.st == .configured then reply [0] len s else answer .stall s
      | 11 => if s.efn.st == .configured && v = 0 then answer .ack (togglesReset s) else answer .stall s
      | _ => answer .stall s

/-- A reset of port 17, or the loss of its connection (R285). -/
def efnPortReset (lost : Bool) (s : State) : State :=
  match s.efn.st with
  | .detached => s
  | _ => efnDown (if lost then .detached else .default_) s.ep4Records s

end Sys2Proof.Machine
end

