-- ==== Sys2Proof/Machine/View.lean ====
section
/-! DEFINITION. What each read-only field shows of the state (the register tables of the owning chapters). A field that no
view names reads from the register file. -/

namespace Sys2Proof.Machine

/-- Fields of one register: lowest bit, width, value. -/
abbrev View := List (Nat × Nat × Nat)

/-- The bits a view covers, and their values. -/
def View.mask (v : View) : Word := v.foldl (fun m f => m ||| maskOf f.1 f.2.1) 0
def View.val (v : View) : Word := v.foldl (fun m f => m ||| atBits f.1 f.2.1 f.2.2) 0

/-! ### GLB, PWR, FLT, EVQ -/

/-- GLB_PEND_x: groups with pending entries, their number, OVF (R432). -/
def PendBuf.view (b : PendBuf) : View :=
  [(31, 1, b2n b.ovf), (16, 8, b.entries.length),
   (0, 16, ((List.range 16).filter fun g => b.entries.any fun e => regGroup e.addr == some g).foldl (fun n g => n + 2 ^ g) 0)]

def glbView (s : State) (a : Nat) : View :=
  if a = R.GLB_STATUS then
    [(16, 1, b2n s.glb.loading), (8, 4, s.glb.compat.toNat), (2, 1, b2n s.glb.levelSet), (0, 2, s.glb.level.val)]
  else if a = R.GLB_LOCKRING then [(17, 1, b2n s.usbP.lockOpen), (16, 1, b2n s.i2cP.lockOpen)]
  else if a = R.GLB_I2C_CFG then [(0, 7, 0x58 + s.glb.straps.toNat % 4)]
  else if a = R.GLB_PEND_I2C then s.i2cP.pend.view
  else if a = R.GLB_PEND_USB then s.usbP.pend.view
  else if a = R.GLB_COMMIT_AT then [(27, 1, b2n s.glb.commitAt.isSome)]
  else []

def pwrView (s : State) (a : Nat) : View :=
  if a = R.PWR_STATUS then
    (if s.rd F.PWR_STATUS_RESULT = 2 then [] else [(16, 11, s.blockMask)]) ++ [(0, 3, s.pwr.st.ctorIdx)]
  else if a = R.PWR_RET_STATUS then [(8, 4, s.pwr.reload.toNat)]
  else []

/-- FAULT_N is driven low (R409). -/
def State.faultN (s : State) : Bool := s.flt.pulse || s.rdB F.FLT_PIN_ASSERT || s.flt.wakeHold

def fltView (s : State) (a : Nat) : View :=
  if a = R.FLT_STATUS then
    [(5, 1, b2n s.flt.demoted), (4, 1, b2n s.faultN), (3, 1, b2n s.flt.pulse), (2, 1, b2n s.flt.recovery),
     (1, 1, b2n s.flt.tempHigh), (0, 1, b2n s.classA)]
  else []

def evqView (s : State) (a : Nat) : View :=
  if a = R.EVQ_STATUS then [(16, 11, s.evqCap), (0, 11, s.evq.held.length)]
  else if a = R.EVQ_SEQ then [(0, 7, s.evq.seq.toNat)]
  else []

/-! ### FEED, PMB, NVM, STO -/

/-- State code and last cause of a feed (FEED_FSTATE). -/
def FeedLine.code (l : FeedLine) : Nat := l.st.ctorIdx + 16 * l.cause.ctorIdx

/-- The code of FEED_STATUS.SEL. -/
def selCode : Option FeedId → Nat
  | some f => feedCode f
  | none => 3

def AxPath.view (x : AxPath) : View :=
  [(8, 4, x.retries.val), (4, 3, x.cause.ctorIdx), (3, 1, b2n x.pgood), (0, 3, x.st.ctorIdx)]

def feedView (s : State) (a : Nat) : View :=
  let f := s.feed
  if a = R.FEED_STATUS then
    [(15, 1, b2n f.tandem), (14, 1, b2n f.degraded), (13, 1, b2n f.bell), (12, 1, b2n f.switching),
     (7, 1, b2n f.ftPresent), (0, 2, selCode f.sel)]
  else if a = R.FEED_FSTATE then [(16, 8, f.fc.code), (8, 8, f.fb.code), (0, 8, f.fa.code)]
  else if a = R.FEED_VIN then [(16, 16, f.vtan), (0, 16, f.vin / 10)]
  else if a = R.AX0_STATUS then (s.ax 0).view
  else if a = R.AX1_STATUS then (s.ax 1).view
  else []

/-- The target an index names; all 0 where the map has none. -/
def pmbTgtView (t : Target) : View :=
  [(28, 4, t.cause.code), (24, 2, t.st.code), (16, 1, b2n t.required), (8, 8, t.role.toNat), (0, 7, t.addr.toNat)]

def pmbView (s : State) (a : Nat) : View :=
  if a = R.PMB_STATUS then
    [(8, 8, min 255 (s.pmb.queue.length + s.pmb.blocked.length)), (3, 5, (s.pmb.wire.map (·.tgt)).getD 0), (2, 1, b2n s.pmb.alertLow),
     (1, 1, b2n s.pmb.stuck), (0, 1, b2n s.pmb.wire.isSome)]
  else if R.PMB_TGT 0 ≤ a ∧ a ≤ R.PMB_TGT 23 then
    ((s.target? ((a - R.PMB_TGT 0) / 4)).map pmbTgtView).getD [(0, 32, 0)]
  else if R.PMB_TST 0 ≤ a ∧ a ≤ R.PMB_TST 23 then
    ((s.target? ((a - R.PMB_TST 0) / 4)).map fun t => [(16, 16, t.vout), (0, 16, t.status.toNat)]).getD [(0, 32, 0)]
  else if a = R.PMB_SW_CTRL then [(31, 1, b2n s.pmb.swBusy)]
  else []

def slotCode : Option Slot → Nat
  | some .a => 0
  | some .b => 1
  | none => 3

def nvmView (s : State) (a : Nat) : View :=
  if a = R.NVM_STATUS then [(0, 1, b2n s.nvmBusy)]
  else if a = R.NVM_LOAD then
    [(17, 1, b2n s.nvm.causeNew), (16, 1, b2n s.signedMode), (0, 2, slotCode s.nvm.active)]
  else if a = R.NVM_OTP_DATA then [(0, 32, (s.otpWord (s.rd F.NVM_OTP_ADDR_WORD)).toNat)]
  else []

/-- Pages of a region allocated: the carving's for EFN, the queue's for EVQ, none for FREE (STO_RGNUn). -/
def State.rgnUsed (s : State) (n : Nat) : Nat :=
  match n with
  | 0 => s.efnUsed.length
  | 4 => s.evq.pages.length
  | 6 => 0
  | _ => ((s.rgnPages n).filter fun p => s.sto.alloc.contains p).length

def stoView (s : State) (a : Nat) : View :=
  if a = R.STO_STATUS then [(1, 1, b2n s.scrubs), (0, 1, b2n s.sto.fillDone)]
  else if a = R.STO_SCRUB then [(0, 9, s.sto.scrubPos / 256)]
  else if a = R.STO_FLIP_C then [(9, 1, b2n s.sto.armed.isSome)]
  else if 0x7140 ≤ a ∧ a ≤ 0x7174 then
    let n := (a - 0x7140) / 8
    if a % 8 = 0 then [(16, 10, s.rgnCount n), (0, 9, s.rgnBase n)]
    else [(16, 10, ((s.rgnPages n).filter s.retired).length), (0, 10, s.rgnUsed n)]
  else []

/-! ### HUB, EFN, TIM, CAD -/

def hubSpeedCode : UsbSpeed → Nat
  | .none => 0
  | .high => 2
  | _ => 1

def portSpeedCode : UsbSpeed → Nat
  | .none => 0
  | .low => 1
  | .full => 2
  | .high => 3

def hubView (s : State) (a : Nat) : View :=
  if a = R.HUB_CFG then [(5, 1, b2n s.img.holdConnect), (4, 1, b2n s.coupled)]
  else if a = R.HUB_STATUS then
    [(16, 7, s.hub.addr.toNat), (12, 1, b2n (s.glb.levelSet && s.glb.level == 0)), (11, 1, b2n s.hub.rwakeEn),
     (10, 1, b2n s.hub.l1), (9, 1, b2n s.hub.suspended), (8, 1, b2n s.hub.alt), (4, 2, hubSpeedCode s.hub.speed),
     (0, 3, s.hub.st.ctorIdx)]
  else if a = R.HUB_P17 then [(16, 16, s.hub.p17.chg.word), (0, 16, s.pstat 17)]
  else []

/-- EFN_STATUS.USB_STATE: the function suspends with the hub (R266). -/
def State.efnCode (s : State) : Nat :=
  if s.efn.st == .detached then 0 else if s.hub.suspended then 4 else s.efn.st.ctorIdx

def efnView (s : State) (a : Nat) : View :=
  if a = R.EFN_STATUS then [(16, 7, s.efn.addr.toNat), (8, 2, s.efn.batch.ctorIdx), (0, 3, s.efnCode)]
  else if a = R.EFN_CARVE then [(16, 1, b2n s.retiredInUse)]
  else if h : R.EFN_EP_STAT 0 ≤ a ∧ a ≤ R.EFN_EP_STAT 6 then
    let b := s.ep ⟨(a - R.EFN_EP_STAT 0) / 4, by simp only [R.EFN_EP_STAT] at *; omega⟩
    [(20, 1, b2n b.halted), (19, 1, b2n b.toggle), (0, 15, b.fill)]
  else []

def timView (s : State) (a : Nat) : View :=
  if a = R.TIM_STATUS then
    [(4, 1, b2n (s.tpMode == 3 && s.tpDue.isSome)), (3, 1, b2n s.tim.x32Rc), (2, 1, b2n s.tim.discOk),
     (1, 1, b2n s.tim.incHeld.isSome), (0, 1, b2n s.tim.undisc)]
  else if a = R.TIM_TB0_NS then [(0, 32, s.tb0.ns)]
  else if a = R.TIM_TB3_LO then [(0, 32, s.tb3)]
  else if a = R.TIM_TB2 then
    [(31, 1, b2n s.tim.tb2.valid), (16, 11, s.tim.tb2.frame.toNat), (13, 3, s.tim.tb2.uframe.toNat),
     (0, 13, s.tim.tb2.pos.toNat)]
  else []

/-- Pages that rings hold: what is allocated in the CAD region beside the payload pool and the forwarding slots. -/
def State.cadPool (s : State) : Nat := s.cad.poolPages.length + s.cad.fwdPages.length
def State.cadRings (s : State) : Nat := s.rgnUsed 2 - s.cadPool

def LaunchQ.view (l : LaunchQ) : View := [(20, 9, l.base), (16, 2, l.st.ctorIdx), (0, 16, l.done.toNat)]

def cadView (s : State) (a : Nat) : View :=
  if a = R.CAD_STATUS then [(3, 1, b2n s.cad.tooDeep), (0, 3, s.cad.tier.val)]
  else if a = R.CAD_POOL then [(16, 10, s.cadRings), (0, 10, s.cadPool)]
  else if a = R.CAD_BQ_STATUS then s.cad.bq.view
  else if a = R.CAD_BQ_TAIL then [(0, 16, s.cad.bq.tail.toNat)]
  else []

/-! ### Ports -/

/-- TC_STATUS.RP: presented as a source, seen as a sink. -/
def Tc.rpCode (t : Tc) : Nat :=
  if t.st.presentsRp then t.rp.val
  else if t.st == .attachedSnk then
    match (if t.orient then t.cc2 else t.cc1) with
    | .rpDefault => 1
    | .rp15 => 2
    | .rp30 => 3
    | _ => 0
  else 0

/-- VCONN's current, which no command carries: open while VCONN is on (log entry 32). -/
def State.vconnMa (s : State) (p : PortId) : Nat :=
  if (s.port p).tc.vconn then Config.vconnMa p.val s.free s.tim.tb1.toNat % 256 else 0

def tcView (s : State) (p : PortId) (off : Nat) : View :=
  let t := (s.port p).tc
  match off with
  | 0x008 =>
    [(11, 1, b2n (s.sinkOnly p)), (10, 1, b2n t.cableRa), (8, 2, t.rpCode), (7, 1, b2n t.accSeen),
     (6, 1, b2n s.feed.rdRule), (5, 1, b2n t.vconn), (4, 1, b2n t.orient), (0, 4, t.st.ctorIdx)]
  | 0x00C => [(8, 8, s.vconnMa p)]
  | 0x014 => [(16, 16, t.wetCnt.toNat), (2, 2, t.dryCnt.val), (0, 2, t.mstate.ctorIdx)]
  | 0x044 =>
    [(16, 16, (downPorts.map fun q =>
        match (s.port q).tc.mstate with
        | .wet | .drying => 2 ^ q.val
        | _ => 0).sum), (0, 1, b2n s.mass.active)]
  | _ => []

def pdView (s : State) (p : PortId) (off : Nat) : View :=
  let x := (s.port p).pd
  match off with
  | 0x200 => [(6, 1, b2n (s.img.tandemCap.getLsbD p.val)), (3, 1, b2n (s.eprClass p))]
  | 0x20C =>
    [(12, 4, x.hrstCnt.val), (11, 1, b2n x.tableErr), (10, 1, b2n x.bmLimited), (9, 1, b2n x.capped), (8, 1, b2n x.epr),
     (7, 1, b2n x.vconnSrc), (6, 1, b2n x.source), (4, 2, x.rev.val), (0, 4, x.st.ctorIdx)]
  | 0x210 => [(0, 32, (x.contract.map fun c => c.rdo.toNat).getD 0)]
  | 0x214 => [(16, 10, (x.contract.map (·.ma10)).getD 0), (0, 16, (x.contract.map (·.mv)).getD 0)]
  | 0x218 =>
    [(16, 16, if (s.port p).tc.st == .attachedSrc && p.val < 16 then s.share p / 100 else 0), (0, 16, x.grant / 100)]
  | 0x21C => [(4, 1, b2n x.tandemVdo), (3, 1, b2n x.eprCap), (2, 1, b2n x.snkCapValid), (0, 2, x.frsCur.toNat)]
  | 0x2C8 => [(16, 16, s.sumG / 100), (0, 16, s.bm.avail / 100)]
  | 0x2CC =>
    [(18, 1, b2n (downPorts.any fun q => (s.port q).pd.bmLimited)), (17, 1, b2n s.bmDeficit), (16, 1, b2n s.feed.degraded),
     (0, 16, s.bm.cap / 100)]
  | _ => if 0x280 ≤ off ∧ off ≤ 0x2A8 then [(0, 32, (x.adv.toList.getD ((off - 0x280) / 4) 0).toNat)] else []

def ppView (s : State) (p : PortId) (off : Nat) : View :=
  let x := (s.port p).pp
  match off with
  | 0x400 => [(24, 1, b2n (s.eprClass p))]
  | 0x404 => [(16, 10, x.bmIlim.toNat)]
  | 0x408 =>
    [(24, 8, x.brk.toNat), (12, 1, b2n (s.ppSuppress p)), (8, 4, x.retries.val), (4, 4, x.cause.ctorIdx),
     (0, 3, x.st.ctorIdx)]
  | 0x414 => [(16, 12, s.fastTh p), (0, 10, s.iRated p)]
  | 0x418 => [(0, 16, min 65535 (x.soa / 4000000000))]
  | _ => []

/-- A meter's registers, by their offset from its MT_CFG (R129, R131). -/
def meterView (s : State) (m : MeterId) (off : Nat) : View :=
  let x := s.mt.m[m]
  match off with
  | 0x04 => [(0, 16, x.v.toNat)]
  | 0x08 => [(0, 16, x.i.toNat)]
  | 0x0C => [(0, 16, (BitVec.ofInt 16 (s.iavg m)).toNat)]
  | 0x10 => [(0, 32, (BitVec.ofInt 32 (s.meanPower m)).toNat)]
  | 0x14 => [(16, 16, x.vmin.toNat), (0, 16, x.ipeak.toNat)]
  | 0x18 => [(0, 32, x.energy.toNat)]
  | 0x20 => [(0, 32, x.cnt.toNat)]
  | 0x24 => [(0, 16, s.mt.sseq.toNat)]
  | 0x28 => [(0, 32, x.sEnergy.toNat)]
  | 0x2C => [(0, 16, x.sEnergy.toNat / 2 ^ 32)]
  | 0x30 => [(0, 32, x.sCnt.toNat)]
  | 0x34 => [(16, 16, x.sVmin.toNat), (0, 16, x.sIpeak.toNat)]
  | 0x38 => [(0, 32, s.mt.sStamp.sec)]
  | 0x3C => [(0, 32, s.mt.sStamp.ns)]
  | _ => []

def clView (s : State) (p : PortId) (off : Nat) : View :=
  let l := (s.port p).cl
  match off with
  | 0x808 => [(8, 4, l.cause.code), (4, 2, l.ver.val), (0, 3, l.st.ctorIdx)]
  | 0x848 => [(0, 16, l.lq.tail.toNat)]
  | 0x84C => l.lq.view
  | 0x864 => [(0, 16, l.rx.rd.toNat)]
  | 0x868 => [(16, 9, l.rx.base), (0, 16, l.rx.wr.toNat)]
  | _ => []

/-- SUSP_KIND: 1 selective, 2 global, 3 both. -/
def UPort.suspKind (u : UPort) : Nat := b2n u.suspSel + 2 * b2n u.suspGlob

/-- HP_TT_NPk. AGE is in milliseconds of TB3 (R304). -/
def NpBuf.view (b : NpBuf) (now : Nat) : View :=
  [(30, 2, b.st.code), (27, 3, (b.res.map fun r => r.ctorIdx + 1).getD 0), (26, 1, b2n (b.ty == .bulk)), (25, 1, b2n b.dirIn),
   (16, 7, b.addr.toNat), (12, 4, b.ep.toNat), (0, 12, min 0xFFF ((now - b.since) * 1000 / 32768))]

def hpView (s : State) (p : PortId) (off : Nat) : View :=
  let u := (s.port p).u
  let t := (s.port p).tt
  match off with
  | 0xA04 =>
    [(28, 4, u.ust.ctorIdx), (26, 2, portSpeedCode u.speed), (25, 1, b2n !(s.gateOpen p)), (22, 2, u.suspKind),
     (0, 16, s.pstat (p.val + 1))]
  | 0xA08 => [(0, 16, u.chg.word)]
  | 0xA48 => [(8, 8, t.recs.length), (4, 4, t.masks / 16), (0, 2, t.st.code)]
  | 0xA4C => [(0, 27, t.pagesWord)]
  | 0xA60 => t.np[0].view s.tb3
  | 0xA64 => t.np[1].view s.tb3
  | 0xA68 => t.np[2].view s.tb3
  | 0xA6C => t.np[3].view s.tb3
  | _ => []

def portView (s : State) (p : PortId) (off : Nat) : View :=
  if off < 0x200 then tcView s p off
  else if off < 0x400 then pdView s p off
  else if off < 0x600 then ppView s p off
  else if off < 0x800 then meterView s ⟨p.val, by omega⟩ (off - 0x600)
  else if off < 0xA00 then clView s p off
  else hpView s p off

/-! ### The whole map -/

/-- The meter of an address among the feed and aux meters. -/
def feedMeterAt (a : Nat) : Option MeterId :=
  if h : 0x4200 ≤ a ∧ a < 0x4300 then some ⟨17 + (a - 0x4200) / 0x40, by omega⟩ else none

/-- The read-only fields at an address. -/
def regView (s : State) (a : Nat) : View :=
  match addrPort a with
  | some p => portView s p (a % 0x1000)
  | none =>
    match a / 0x1000 with
    | 0x0 => glbView s a
    | 0x1 => pwrView s a
    | 0x2 => fltView s a
    | 0x3 => evqView s a
    | 0x4 => match feedMeterAt a with
      | some m => meterView s m ((a - 0x4200) % 0x40)
      | none => feedView s a
    | 0x5 => pmbView s a
    | 0x6 => nvmView s a
    | 0x7 => stoView s a
    | 0x8 => hubView s a
    | 0x9 => efnView s a
    | 0xA => timView s a
    | 0xB => cadView s a
    | _ => []

/-- What a register holds for a reader: its views over the register file; 0 at reserved and unimplemented locations. -/
def State.value (s : State) (a : Nat) : Word :=
  match regRow a with
  | none => 0
  | some _ =>
    let v := regView s a
    (s.reg a &&& ~~~ v.mask) ||| v.val

end Sys2Proof.Machine
end

