-- ==== Sys2Proof/Machine/Commit.lean ====
section
/-! DEFINITION. The pending buffers and the commit (17_register_access.md R432 to R437, R443; R486): what a write leaves
pending, what a commit applies, and what the values it applies make each block do (R434). -/

namespace Sys2Proof.Machine

/-! ### The buffers (R432, R435) -/

/-- The capacity of a path's buffer: 128 entries, and every register for the loader. -/
def pendRoom : Path → PendBuf → Bool
  | .loader, _ => true
  | _, b => decide (b.entries.length < 128)

/-- A second write to a pending register replaces the pending fields. -/
def pendMerge (e : PendEntry) : List PendEntry → List PendEntry
  | [] => [e]
  | x :: l =>
    if x.addr = e.addr then { e with mask := x.mask ||| e.mask, val := (x.val &&& ~~~ e.mask) ||| (e.val &&& e.mask) } :: l
    else x :: pendMerge e l

/-- A write's buffered fields enter the path's buffer, or find it full (R432). -/
def pendWrite (p : Path) (e : PendEntry) (s : State) : State :=
  if e.mask = 0 then s
  else
    let b := (s.path p).pend
    if b.entries.any (·.addr == e.addr) || pendRoom p b then
      s.modPath p fun x => { x with pend := { x.pend with entries := pendMerge e x.pend.entries } }
    else raiseEvt0 R.GLB_EVT 1 (s.modPath p fun x => { x with pend := { x.pend with ovf := true } })

/-- An entry's group is among the named ones; G11 to G15 are reserved (R433). -/
def PendEntry.named (groups : Nat) (e : PendEntry) : Bool :=
  match regGroup e.addr with
  | some g => decide (g < 11) && groups.testBit g
  | none => false

/-- The path's entries of the named groups leave its buffer; OVF clears when the buffer is empty. -/
def pendDrop (p : Path) (groups : Nat) (s : State) : State :=
  s.modPath p fun x =>
    let rest := x.pend.entries.filter fun e => !e.named groups
    { x with pend := { entries := rest, ovf := x.pend.ovf && !rest.isEmpty } }

/-! ### The values that take effect (R101, R102, R405, R486) -/

/-- Fields with a range take the nearest value in range. -/
def clampWord (a : Nat) (w : Word) : Word :=
  match regRow a with
  | some r => r.clamp.foldl (fun w c => putBits w c.lo c.w (max c.min (min c.max (bitsOf w c.lo c.w)))) w
  | none => w

def faultSources : List FSrc :=
  [.tempCrit, .vinOv, .x24Stop, .vddc, .ctrlUe, .convOn, .portLock, .feedLock, .axLock, .vconnOc, .ccOvp, .sbuOvp, .massWet,
   .pmbFaulty, .pmbStuck, .tempHigh, .ttOverrun, .cadFailed, .cadTooDeep, .cadLateError, .cadNoPages, .regTimeout, .x32Rc,
   .retReset, .wakeFail, .poisonTt, .poisonEfn, .poisonRegUsb, .poisonRegI2c, .poisonCad, .poisonPd, .poisonEvq, .ttNoPage]

/-- FLT_REACTk with each nibble at the code that takes effect (R405). -/
def reactWord (k : Nat) (w : Word) : Word :=
  (faultSources.filter fun f => f.code / 8 == k).foldl
    (fun w f => putBits w (4 * (f.code % 8)) 4 (reactEffective f (bitsOf w (4 * (f.code % 8)) 4))) w

/-- The word that takes effect at a register, from the word asked for. -/
def State.effective (s : State) (a : Nat) (w : Word) : Word :=
  let w := clampWord a w
  if a = R.FEED_CTRL then (if prioOk (bitsOf w 0 6) then w else putBits w 0 6 (s.rd F.FEED_CTRL_PRIO))
  else if R.FLT_REACT 0 ≤ a ∧ a ≤ R.FLT_REACT 7 then reactWord ((a - R.FLT_REACT 0) / 4) w
  else if a = R.CAD_MODE then (if bitsOf w 0 2 = 3 then putBits w 0 2 0 else w)
  else match addrPort a with
    | some p =>
      if a = R.PD_CTRL p ∧ 100 < bitsOf w 8 8 ∧ !s.eprClass p then putBits w 8 8 100 else w
    | none => w

/-- One entry takes effect in the register file; a malformed PRIO is refused (R102). -/
def applyEntry (e : PendEntry) (s : State) : State :=
  let w := (s.reg e.addr &&& ~~~ e.mask) ||| (e.val &&& e.mask)
  let s := if e.addr = R.FEED_CTRL ∧ !prioOk (bitsOf w 0 6) then pushEvent 0x04 0xFF0D (atBits 0 6 (bitsOf w 0 6)) s else s
  s.setReg e.addr (s.effective e.addr w)

/-! ### What the values make each block do (R434) -/

/-- A register access powers up the DPHY domain its HP_ register lies in (R395). -/
def touchDomain (a : Nat) (s : State) : State :=
  match addrPort a with
  | some p => if p.val < 16 ∧ 0xA00 ≤ a % 0x1000 ∧ !s.dphyUp p then dphyUp (8 ≤ p.val) s else s
  | none => s

/-- A field differs between two words of a register. -/
def State.moved (o s : State) (f : Fld) : Bool := o.rd f != s.rd f

/-- Some register of the port's capability table, MAX_W or EPR_EN has changed (R170). -/
def State.tableMoved (o s : State) (p : PortId) (as : List Nat) : Bool :=
  o.moved s (F.PD_CTRL_MAX_W p) || o.moved s (F.PD_CTRL_EPR_EN p) ||
    as.any fun a => addrPort a == some p && decide (R.PD_PDOCNT p ≤ a ∧ a ≤ R.PD_PDO p 10) && o.reg a != s.reg a

/-- The blocks of a port act on what a commit has changed: Type-C, PD, the power path, USB. -/
def commitPort (o : State) (as : List Nat) (p : PortId) (s : State) : State :=
  if !as.any fun a => addrPort a == some p then s
  else
    let s := if o.moved s (F.TC_CTRL_DISABLE p) then portApplyDisable p s else s
    let s := if o.moved s (F.TC_CTRL_RP_ADV p) then tcApplyRp p s else s
    let s := if o.tableMoved s p as then pdTableChanged p s else s
    let s := if o.moved s (F.PD_TRANS_SLEW p) then pmbSlew p s else s
    let s := if o.moved s (F.PP_CTRL_FORCE_OFF p) then
        (if s.rdB (F.PP_CTRL_FORCE_OFF p) then ppForceOff p s else ppKick p s)
      else s
    if p.val < 16 ∧ o.gateOpen p ∧ !s.gateOpen p then gateClose p s else s

/-- The Cadence registers of a port: EN (R329, R360) and the owner of its receive ring (R361). -/
def commitLink (o : State) (as : List Nat) (p : PortId) (s : State) : State :=
  let s := if o.moved s (F.CL_CTRL_EN p) then (if s.rdB (F.CL_CTRL_EN p) then clEnabled p s else clDisabled p s) else s
  if as.contains (R.CL_RX_CTRL p) then rxOwn p s else s

/-- CAD_MODE (R327, R354). -/
def commitCad (o s : State) : State :=
  let s := if o.moved s F.CAD_MODE_MODE then cadModeMoved (o.rd F.CAD_MODE_MODE) s else s
  if o.moved s F.CAD_MODE_MAX_VER then cadAllowance s else s

/-- Every block acts on the values of one commit. -/
def commitActs (o : State) (as : List Nat) (s : State) : State :=
  let s := forEach allPorts (commitPort o as) s
  let s := if as.contains R.FEED_CTRL then
      feedApplyCtrl (o.moved s F.FEED_CTRL_PRIO || o.moved s F.FEED_CTRL_PIN) s
    else s
  let s := if as.any fun a => regGroup a == some 1 || a == R.PD_BM_CFG || a == R.PD_BM_AUX then bmRecompute s else s
  let s := if as.contains R.TIM_TB0_INC then timIncMoved s else s
  let s := if as.contains R.TIM_TB0_ADJ || as.contains R.TIM_TB0_SET_NS then timCorrect s else s
  let s := if o.moved s F.TIM_CTRL_TP_MODE then tpModeMoved s else s
  let s := if as.any fun a => regGroup a == some 8 then commitCad o (forEach allPorts (commitLink o as) s) else s
  if as.contains R.EFN_MTR_CTRL then streamEnable s else s

/-- A queue whose OWNER an entry changes is flushed first (R361). -/
def flushOwner (e : PendEntry) (s : State) : State :=
  let moved := bitOf e.mask 0 && bitOf e.val 0 != bitOf (s.reg e.addr) 0
  if e.addr = R.CAD_BQ_CTRL then (if moved then cadFlush broadQ s else s)
  else match addrPort e.addr with
    | some p => if e.addr = R.CL_LQ_CTRL p ∧ moved then cadFlush (portQ p) s else s
    | none => s

/-- Entries take effect together, and the blocks act on them. -/
def applyEntries (es : List PendEntry) (s : State) : State :=
  if es.isEmpty then s
  else
    let as := es.map (·.addr)
    let s := forEach es flushOwner (forEach as touchDomain s)
    commitActs s as (forEach es applyEntry s)

/-! ### The commit (R433, R436) -/

/-- The path's pending entries of the named groups apply on one edge; G1 waits for the end of a switchover (R81). -/
def commit (p : Path) (groups : Nat) (s : State) : State :=
  let es := (s.path p).pend.entries.filter (·.named groups)
  let s := pendDrop p groups s
  let s := if s.feed.switching then
      let late := es.filter fun e => regGroup e.addr == some 1
      applyEntries (es.filter fun e => regGroup e.addr != some 1)
        (s.modFeed fun x => { x with heldG1 := late.foldl (fun l e => pendMerge e l) x.heldG1 })
    else applyEntries es s
  if groups.testBit 10 then snapshotDue s else s

/-- The entries of G1 held by a switchover apply once SWITCHING is 0 (R81). -/
def heldG1Apply (s : State) : State :=
  if s.feed.switching || s.feed.heldG1.isEmpty then s
  else applyEntries s.feed.heldG1 (s.modFeed fun x => { x with heldG1 := [] })

/-- GLB_DISCARD (R435). -/
def discard (p : Path) (groups : Nat) (s : State) : State := pendDrop p groups s

/-! ### The timed commit (R436, R437) -/

/-- GLB_COMMIT_AT.PATH. -/
def pathCode : Path → Nat
  | .loader => 0
  | .i2c => 1
  | .usb => 2

def commitAtResult (r : Nat) (s : State) : State := s.wr F.GLB_COMMIT_AT_RESULT r

/-- The time registers of GLB_COMMIT_AT. -/
def State.commitTime (s : State) : TbTime :=
  ⟨s.rd F.GLB_COMMIT_AT_SHI_SHI * 2 ^ 32 + s.rd F.GLB_COMMIT_AT_SLO_SLO, s.rd F.GLB_COMMIT_AT_NS_NS⟩

/-- GLB_COMMIT_AT: ARM bit 31, CANCEL bit 30, which is taken alone when both are set and changes
nothing while no commit is armed. GROUPS holds what was recorded while
a commit is armed. -/
def commitAtWrite (p : Path) (v : Word) (s : State) : State :=
  let arm := bitOf v 31 && !bitOf v 30
  let other := match s.glb.commitAt with
    | some c => c.path != p
    | none => false
  if (arm || bitOf v 30) && other then raiseEvt0 R.GLB_EVT 4 (commitAtResult 3 s)
  else if bitOf v 30 then
    if s.glb.commitAt.isNone then s
    else commitAtResult 4 (s.modGlb fun g => { g with commitAt := none })
  else if arm then
    let s := (s.wr F.GLB_COMMIT_AT_GROUPS (bitsOf v 0 16)).wr F.GLB_COMMIT_AT_PATH (pathCode p)
    commitAtResult 1 (s.modGlb fun g =>
      { g with commitAt := some { path := p, groups := BitVec.ofNat 16 (bitsOf v 0 16), at_ := s.commitTime } })
  else if s.glb.commitAt.isNone then s.wr F.GLB_COMMIT_AT_GROUPS (bitsOf v 0 16) else s

/-- The armed commit's time has come. -/
def State.commitDue (s : State) : Bool :=
  match s.glb.commitAt with
  | some c => tbLe c.at_ s.tb0
  | none => false

/-- The timed commit fires (R436). -/
def commitFire (s : State) : State :=
  match s.glb.commitAt with
  | none => s
  | some c =>
    let s := commit c.path c.groups.toNat (s.modGlb fun g => { g with commitAt := none })
    raiseEvt0 R.GLB_EVT 0 (commitAtResult 2 s)

end Sys2Proof.Machine
end

