-- ==== Sys2Proof/Machine/Access.lean ====
section
/-! DEFINITION. Register reads and writes (00_scope.md R7, R8; 17_register_access.md R422, R423, R430, R438 to R442): acting
reads and their latches, the lockring, the access types, and what a write of each acting register does. -/

namespace Sys2Proof.Machine

/-! ### Where an access reaches (R390, R395, R424) -/

/-- Registers that AON serves in every state but OFF (R390). -/
def aonReg (a : Nat) : Bool :=
  let blk := a / 0x1000
  blk == 1 || blk == 2 || blk == 5 || a == R.EVQ_CTRL || a == R.EVQ_SEQ || a == R.EVQ_LOST || a == R.TIM_TB3_LO ||
    a == R.TIM_TB3_HI || a == R.TIM_TB3_ALARM_LO || a == R.TIM_TB3_ALARM_HI ||
    decide (R.STO_RETIRE 0 ≤ a ∧ a ≤ R.STO_RETIRE 15)

/-- The domain of the register is powered and the hub starts accesses (R385, R390). -/
def State.available (s : State) (a : Nat) : Bool :=
  if aonReg a then s.aonUp && s.pwr.st != .entering else s.coreUp && s.pwr.st != .entering

/-- Before the service level is first set, I²C reaches GLB, NVM and the AON registers only (R424). -/
def State.i2cServes (s : State) (a : Nat) : Bool := s.glb.levelSet || a / 0x1000 == 0 || a / 0x1000 == 6 || aonReg a

/-- A path carries accesses to a register: the loader while it runs, to what R66 leaves it; USB from the first service level
on (R70). -/
def State.reaches (s : State) (p : Path) (a : Nat) : Bool :=
  s.available a && match p with
    | .loader => s.glb.loading && !preloadForbidden a
    | .i2c => s.i2cServes a
    | .usb => s.glb.levelSet

/-- The store window (R289, R442). -/
def inWindow (a : Nat) : Bool := decide (0x100000 ≤ a ∧ a < 0x180000)

/-! ### Reads -/

/-- Registers that read a path's latch (R430). -/
def latched (a : Nat) : Bool :=
  a == R.EVQ_POP_D || a == R.EVQ_POP_S || a == R.EVQ_POP_NS || a == R.TIM_TB0_SHI || a == R.TIM_TB0_SLO || a == R.TIM_TB0_FRAC ||
    a == R.TIM_TB1_LO || a == R.TIM_TB1_HI || a == R.TIM_TB3_HI ||
    (decide (R.TIM_CAP_SLO 0 ≤ a ∧ a ≤ R.TIM_CAP_AUX 2) && a % 0x20 != 0 && (regRow a).isSome) ||
    decide (R.CL_XS_T1_SHI ≤ a ∧ a ≤ R.CL_XS_C2_HI) ||
    (decide (0x10000 ≤ a ∧ a < 0x21000) && a % 0x1000 == 0x61C) ||
    (decide (0x4200 ≤ a ∧ a < 0x4300) && a % 0x40 == 0x1C)

/-- Latches words on a path, at consecutive registers from `a`. -/
def latchSeq (p : Path) (a : Nat) (ws : List Word) (s : State) : State :=
  s.modPath p fun x => { x with latch := SMap.setSeq (fun _ => 0) 4 x.latch a ws }

/-- A read of MT_E_LO latches MT_E_HI (R132). -/
def meterRead (p : Path) (a : Nat) (m : MeterId) (s : State) : Word × State :=
  let e := s.mt.m[m].energy.toNat
  (BitVec.ofNat 32 e, latchSeq p (a + 4) [BitVec.ofNat 32 (e / 2 ^ 32)] s)

/-- A read of TIM_TB0_NS samples TB0 and TB1 (R320). -/
def tb0Read (p : Path) (s : State) : Word × State :=
  let t := s.tim.tb0
  let b := s.tim.tb1.toNat
  let s := latchSeq p R.TIM_TB0_SHI [BitVec.ofNat 32 (t.sec.toNat / 2 ^ 32), BitVec.ofNat 32 t.sec.toNat] s
  let s := latchSeq p R.TIM_TB0_FRAC [BitVec.ofNat 32 t.frac.toNat, BitVec.ofNat 32 b, BitVec.ofNat 32 (b / 2 ^ 32)] s
  (t.ns, s)

/-- A read of TIM_TB3_LO latches TIM_TB3_HI (R320). -/
def tb3Read (p : Path) (s : State) : Word × State :=
  (BitVec.ofNat 32 s.tb3, latchSeq p R.TIM_TB3_HI [BitVec.ofNat 32 (s.tb3 / 2 ^ 32)] s)

/-- A read of TIM_CAPu_STAT latches the unit's words and clears VALID and OVERRUN (R319). -/
def capRead (p : Path) (u : Nat) (s : State) : Word × State :=
  let w := s.reg (R.TIM_CAP_STAT u)
  let ws := (List.range 5).map fun k => s.reg (R.TIM_CAP_SLO u + 4 * k)
  (w, (latchSeq p (R.TIM_CAP_SLO u) ws s).setReg (R.TIM_CAP_STAT u) (w &&& ~~~ 3))

/-- A read of PU.CL_XS_STAT latches the sixteen CL_XS_ registers (R353). -/
def xsRead (p : Path) (s : State) : Word × State :=
  (s.reg R.CL_XS_STAT, latchSeq p R.CL_XS_T1_SHI ((List.range 16).map fun k => s.reg (R.CL_XS_T1_SHI + 4 * k)) s)

/-- The meter whose MT_E_LO is at `a`. -/
def energyAt (a : Nat) : Option MeterId :=
  match addrPort a with
  | some p => if a = R.MT_E_LO p then some ⟨p.val, by omega⟩ else none
  | none => if a % 0x40 = 0x18 then feedMeterAt a else none

/-- The fault source of a poisoned register read (R297). -/
def poisonSrc : Path → FSrc
  | .usb => .poisonRegUsb
  | _ => .poisonRegI2c

/-- A read of the store window: a poisoned word is a class D fault with its address (R289, R297). -/
def windowGet (p : Path) (a : Nat) (s : State) : (Word × Bool) × State :=
  let r := windowRead p (a - 0x100000) s
  if r.1.2 then (r.1, raiseFault { src := poisonSrc p, addr := a, req := pathReq p, acc := 1 } r.2) else r

/-- Wraps the read of a word that is never poisoned. -/
def gotWord (r : Word × State) : Option (Word × Bool) × State := (some (r.1, false), r.2)

/-- A read of one word on a path: its value and whether it is poisoned, or none while a pop waits (R419, R430). -/
def regRead (p : Path) (a : Nat) (s : State) : Option (Word × Bool) × State :=
  let s := touchDomain a (leaveIdle s)
  if inWindow a then let r := windowGet p a s; (some r.1, r.2)
  else if a = R.EVQ_POP then
    let r := evqPopRead p s
    (r.1.map fun ws => (ws.headD 0, false), r.2)
  else if a = R.TIM_TB0_NS then gotWord (tb0Read p s)
  else if a = R.TIM_TB3_LO then gotWord (tb3Read p s)
  else if a = R.CL_XS_STAT then gotWord (xsRead p s)
  else if a = R.TIM_CAP_STAT 0 ∨ a = R.TIM_CAP_STAT 1 ∨ a = R.TIM_CAP_STAT 2 then
    gotWord (capRead p ((a - R.TIM_CAP_STAT 0) / 0x20) s)
  else match energyAt a with
    | some m => gotWord (meterRead p a m s)
    | none =>
      if latched a then (some ((s.path p).latch.get (fun _ => 0) a, false), s) else (some (s.value a, false), s)

/-- What a read of a word that does not act returns on a path. -/
def State.readValue (s : State) (p : Path) (a : Nat) : Word :=
  if latched a then (s.path p).latch.get (fun _ => 0) a else s.value a

/-! ### Refused keyed fields (R8, R65, R439) -/

/-- KEY_REFUSED; on the loader path PRELOAD_IGNORED. -/
def keyRefused (p : Path) (a : Nat) (s : State) : State :=
  match p with
  | .loader => pushEvent 0x06 0xFF03 (BitVec.ofNat 32 a) s
  | _ => pushEvent (evSource a) 0xFF02 (BitVec.ofNat 32 a) s

/-! ### Acting writes -/

/-- NVM_CMD: refused while an operation or the loader runs; else OP and SLOT are taken and a non-zero OP starts (R73). -/
def nvmCmd (v : Word) (s : State) : State :=
  if s.nvmRefuses then nvmResult 4 s
  else
    let s := (s.wr F.NVM_CMD_OP (bitsOf v 0 4)).wr F.NVM_CMD_SLOT (bitsOf v 8 1)
    if bitsOf v 0 4 = 0 then s else nvmStart (bitsOf v 0 4) s

/-- GLB_RESET: COLD takes precedence over WARM. -/
def glbReset (v : Word) (s : State) : State :=
  if bitOf v 1 then coldReset 7 s else if bitOf v 0 then warmReset 8 s else s

/-- FLT_CMD.END_RECOVERY (R411). -/
def endRecovery (s : State) : State :=
  if s.flt.recovery && !s.flt.releasing && !s.classA then recoveryEnd s else s

/-- A write of 1 to FLT_CAP_INFO.VALID clears the whole capture (R410). -/
def capClear (v : Word) (s : State) : State :=
  if bitOf v 31 then
    forEach [R.FLT_CAP_INFO, R.FLT_CAP_ADDR, R.FLT_CAP_T0S, R.FLT_CAP_T0NS, R.FLT_CAP_T1LO, R.FLT_CAP_T1HI]
      (fun a s => s.setReg a 0) s
  else s

/-- HUB_CONNECT.DISCONNECT (R244). -/
def hubConnectCmd (v : Word) (s : State) : State := if bitOf v 1 then hubDetach s else s

def clCmd (p : PortId) (v : Word) (s : State) : State :=
  let s := if bitOf v 0 then cadEnterCmd p s else s
  if bitOf v 1 then cadRetrainCmd p s else s

/-- GLB_LOCKRING: the key opens the writing path's lockring, any other value leaves it re-armed (R438). -/
def lockringWrite (p : Path) (v : Word) (s : State) : State :=
  s.modPath p fun x => { x with lockOpen := bitsOf v 0 16 == 0x6B1C }

/-- What a keyed field of a register holds for a writer: the loader reads its own pending values (R64, R65). -/
def State.currentFor (s : State) (p : Path) (a : Nat) : Word :=
  match p with
  | .loader => match s.loader.pend.entries.find? (·.addr == a) with
    | some e => (s.value a &&& ~~~ e.mask) ||| (e.val &&& e.mask)
    | none => s.value a
  | _ => s.value a

/-- Writes that act without the key, by register. -/
def actWrite (p : Path) (a : Nat) (v : Word) (s : State) : State :=
  if a = R.GLB_LOCKRING then lockringWrite p v s
  else if a = R.GLB_COMMIT then commit p (bitsOf v 0 16) s
  else if a = R.GLB_DISCARD then discard p (bitsOf v 0 16) s
  else if a = R.GLB_COMMIT_AT then commitAtWrite p v s
  else if a = R.PWR_CMD then pwrCmd (v &&& 1) s
  else if a = R.FLT_CAP_INFO then capClear v s
  else if a = R.EVQ_CMD then (if bitOf v 0 then evqFlush s else s)
  else if a = R.PMB_VERIFY then pmbVerifyBits v s
  else if a = R.PMB_SW_CTRL then (if bitOf v 20 then pmbSwGo s else s)
  else if a = R.STO_CMD then stoCmd v s
  else if R.STO_ECCLOG 0 ≤ a ∧ a ≤ R.STO_ECCLOG 15 then ecclogClear ((a - R.STO_ECCLOG 0) / 4) v s
  else if a = R.HUB_CONNECT then hubConnectCmd v s
  else if a = R.EFN_CARVE then (if bitOf v 0 then carveApply s else s)
  else if a = R.TIM_CMD then timSwCap v s
  else if a = R.CAD_BQ_CMD then cadLqCmd broadQ v s
  else if a = R.CAD_BQ_TAIL then cadTail broadQ v s
  else match addrPort a with
    | none => s
    | some p =>
      if a = R.TC_CMD p then tcCmd p v s
      else if a = R.PD_CMD p then pdCmd p v s
      else if a = R.CL_CMD p then clCmd p v s
      else if a = R.CL_LQ_CMD p then cadLqCmd (portQ p) v s
      else if a = R.CL_LQ_TAIL p then cadTail (portQ p) v s
      else if a = R.CL_RX_RD p then cadRxRd p v s
      else if a = R.HP_TT_CMD p then ttCmd p v s
      else s

/-- Writes that act with the lockring open, by register. -/
def keyedWrite (p : Path) (a : Nat) (v : Word) (s : State) : State :=
  if a = R.GLB_RESET then glbReset v s
  else if a = R.PWR_CMD then pwrCmd (v &&& 2) s
  else if a = R.FLT_CMD then (if bitOf v 0 then endRecovery s else s)
  else if a = R.FEED_UNLOCK then feedUnlock v s
  else if a = R.NVM_CMD then nvmCmd v s
  else if a = R.STO_FLIP_C then flipArm p v s
  else if R.STO_RETIRE 0 ≤ a ∧ a ≤ R.STO_RETIRE 15 then retireWrite ((a - R.STO_RETIRE 0) / 4) v s
  else match addrPort a with
    | some q => if a = R.PP_UNLOCK q ∧ bitOf v 0 then ppUnlock q s else s
    | none => s

/-! ### Writes -/

/-- RW registers whose write acts on other state, which their reads show. -/
def ownStore (a : Nat) : Bool :=
  a == R.GLB_COMMIT_AT || a == R.CAD_BQ_TAIL ||
    (decide (0x10000 ≤ a ∧ a < 0x21000) && (a % 0x1000 == 0x848 || a % 0x1000 == 0x864))

/-- W1C bits written 1 clear; RW bits take the value, in range (R7, R486). -/
def plainWrite (a : Nat) (r : RegRow) (v : Word) (s : State) : State :=
  let w := s.reg a &&& ~~~ (v &&& r.w1c)
  let w := if ownStore a then w else clampWord a ((w &&& ~~~ r.rw) ||| (v &&& r.rw))
  s.setReg a w

/-- What a write of a register stores, field by field (R7, R8): refused keyed fields, W1C and RW bits, and the fields that
wait for a commit. -/
def rowStored (p : Path) (open_ : Bool) (a : Nat) (r : RegRow) (v : Word) (s : State) : State :=
  let kc := rwkcMask a r
  let s := if !open_ && ((v ^^^ s.currentFor p a) &&& (r.rwk ||| kc)) != 0 then keyRefused p a s else s
  pendWrite p { addr := a, mask := r.rwc ||| (if open_ then kc else 0), val := v } (plainWrite a r v s)

/-- A write of a register: what it stores, then what it does. -/
def rowWrite (p : Path) (open_ : Bool) (a : Nat) (r : RegRow) (v : Word) (s : State) : State :=
  let s := actWrite p a v (rowStored p open_ a r v s)
  if open_ && r.rwk != 0 then keyedWrite p a v s else s

/-- Every write re-arms the path's lockring, also one that is ignored (R423, R438), and ends IDLE; a register of a DPHY domain
that is off powers it up. -/
def rearmed (p : Path) (a : Nat) (s : State) : State :=
  touchDomain a (leaveIdle (s.modPath p fun x => { x with lockOpen := false }))

/-- What a write on a path stores before it acts. -/
def written (p : Path) (a : Nat) (v : Word) (s : State) : State :=
  match regRow a with
  | some r => rowStored p (s.path p).lockOpen a r v (rearmed p a s)
  | none => rearmed p a s

/-- A write of one word on a path. -/
def regWrite (p : Path) (a : Nat) (v : Word) (s : State) : State :=
  let open_ := (s.path p).lockOpen
  let s := rearmed p a s
  if inWindow a then windowWrite p (a - 0x100000) v s
  else match regRow a with
    | some r => rowWrite p open_ a r v s
    | none => s

/-- The lockring opened, then a write with nothing between (R65, R276). -/
def regKeyedWrite (p : Path) (a : Nat) (v : Word) (s : State) : State :=
  regWrite p a v (s.modPath p fun x => { x with lockOpen := true })

end Sys2Proof.Machine
end

