-- ==== Sys2Proof/Machine/Image.lean ====
section
/-! DEFINITION. Applying an image (02_startup_and_image.md R61 to R66; R488; 15_power_states.md R397, R399; 11_central_store.md
R291, R292): what each record writes, the preloads, the commit that ends the load, and the reload of a retention bank. -/

namespace Sys2Proof.Machine

/-- What a record asks the loader to write: a buffered field, a word of a hardware table, or a preload entry. -/
inductive ImgOp where
  | field (f : Fld) (v : Nat)
  | direct (a : Nat) (w : Word)
  | preload (keyed : Bool) (a : Nat) (mask val : Word)
  deriving DecidableEq, Repr

def ImgOp.addr : ImgOp → Nat
  | .field f _ => f.addr
  | .direct a _ => a
  | .preload _ a _ _ => a

/-! ### Register writes of the typed records (R62) -/

/-- A capability table for one port: unlisted positions are 0. -/
def pdoOps (n e : Nat) (pdos : List Word) (p : PortId) : List ImgOp :=
  [.field (F.PD_PDOCNT_N_SPR p) n, .field (F.PD_PDOCNT_N_EPR p) e] ++
    (List.range 11).map fun k =>
      let w := if k < 7 then (pdos.take n).getD k 0 else (pdos.drop n).getD (k - 7) 0
      .field (F.PD_PDO_PDO p k) w.toNat

def targetPort (n : Nat) : Option PortId := if h : n < 17 then some ⟨n, h⟩ else none

/-- One PORT_POLICY entry. -/
def policyOps (e : List Byte) : List ImgOp :=
  match targetPort (leAt e 0 1) with
  | none => []
  | some p =>
    [.field (F.PD_CTRL_PRIO p) (leAt e 1 1), .field (F.CL_CTRL_EN p) (b2n ((leAt e 2 2).testBit 3)),
     .field (F.PD_CTRL_MAX_W p) (leAt e 4 2), .field (F.PP_CTRL_RAMP p) (leAt e 6 1),
     .field (F.PP_CTRL_RETRY_CNT p) (leAt e 7 1 / 16), .field (F.PP_CTRL_BACKOFF p) (leAt e 7 1 % 16)]

/-- The brake-curve set a TARGET names (R62, R101). -/
def curveBase (t : Nat) : Nat :=
  match targetPort t with
  | some p => R.PP_BRKCFG p
  | none => 0x4100 + (t - 32) * 0x40

/-- The nine registers of a curve set. -/
def curveRegs (base fast soa : Nat) (bps : List (Nat × Nat)) : List ImgOp :=
  .field ⟨base, 0, 24⟩ (fast * 65536 + soa) ::
    (List.range 8).map fun k =>
      let b := bps.getD k (0, 0)
      .field ⟨base + 4 + 4 * k, 0, 24⟩ (b.2 * 65536 + b.1)

/-- One BRAKE_CURVE entry. -/
def curveOps (e : List Byte) : List ImgOp :=
  curveRegs (curveBase (leAt e 0 1)) (leAt e 1 1) (leAt e 2 2) ((chunks 4 (e.drop 4)).map fun b => (leAt b 0 2, leAt b 2 1))

/-- The default curve of FA or FB for a limit in A: 125 % for 100 ms, 150 % for 10 ms, 200 %, 2 J (R84, R488). -/
def feedCurveOps (l : List Rec) (t amps : Nat) : List ImgOp :=
  if (entriesOf 5 36 l).any fun e => leAt e 0 1 == t then []
  else curveRegs (curveBase t) 8 2000 [(125 * amps, 0x40), (150 * amps, 0x30)]

/-- FEED_POLICY, with the default feed curves at its place. -/
def feedOps (l : List Rec) (v : List Byte) : List ImgOp :=
  [.field F.FEED_CTRL_PRIO (leAt v 0 1), .field F.FEED_CTRL_ENABLE (leAt v 1 1), .field F.FEED_VTH_WARN (leAt v 2 1),
   .field F.FEED_VTH_HOLD (leAt v 3 1), .field F.PD_BM_CFG_BUDGET (leAt v 4 2), .field F.FEED_LIM_FA_MAX (leAt v 6 1),
   .field F.FEED_LIM_FB_MAX (leAt v 7 1), .field F.FEED_LIM_FC_MAX (leAt v 8 1)] ++
    feedCurveOps l 32 (leAt v 6 1) ++ feedCurveOps l 33 (leAt v 7 1)

/-- The carving of a REGION_MAP: staged and ACT values (R268). -/
def carveOps (v : List Byte) : List ImgOp :=
  (imgCarving v).zipIdx.flatMap fun e =>
    [.direct (R.EFN_EP_BASE e.2) (BitVec.ofNat 32 (e.1.1 * 0x10001)), .direct (R.EFN_EP_SIZE e.2) (BitVec.ofNat 32 (e.1.2 * 0x10001))]

/-- A preload entry. -/
def preloadOp (keyed : Bool) (e : List Byte) : ImgOp :=
  .preload keyed (leAt e 0 4) (BitVec.ofNat 32 (leAt e 4 4)) (BitVec.ofNat 32 (leAt e 8 4))

/-- The register writes of a record, in order. -/
def recOps (l : List Rec) (r : Rec) : List ImgOp :=
  let v := r.value
  match r.kind with
  | 1 => (chunks 12 v).map (preloadOp false)
  | 2 => (chunks 12 v).map (preloadOp true)
  | 3 => (allPorts.filter fun p => (leAt v 0 4).testBit p.val).flatMap
      (pdoOps (leAt v 4 1) (leAt v 5 1) (bytesWords (leAt v 4 1 + leAt v 5 1) (v.drop 8)))
  | 4 => (chunks 8 v).flatMap policyOps
  | 5 => (chunks 36 v).flatMap curveOps
  | 6 => feedOps l v
  | 7 => [.field F.PMB_CFG_SPEED (leAt v 0 1)]
  | 8 => [.field F.CAD_MODE_MODE (leAt v 2 1), .field F.CAD_MODE_MAX_VER (leAt v 3 1), .field F.CAD_MODE_SYNC_RATE (leAt v 4 1)]
  | 10 => carveOps v
  | _ => []

/-! ### Carrying them out (R64 to R66) -/

/-- A preload entry: reserved locations and what R65 and R66 refuse give PRELOAD_IGNORED. -/
def preloadRun (keyed : Bool) (a : Nat) (mask val : Word) (s : State) : State :=
  if (regRow a).isNone then keyRefused .loader a s
  else
    let v := (s.currentFor .loader a &&& ~~~ mask) ||| (val &&& mask)
    let s := if keyed ∧ a = R.STO_FLIP_C ∧ bitOf v 8 then keyRefused .loader a s else s
    if keyed then regKeyedWrite .loader a v s else regWrite .loader a v s

def opRun (o : ImgOp) (s : State) : State :=
  match o with
  | .field f v => pendWrite .loader { addr := f.addr, mask := maskOf f.lo f.w, val := atBits f.lo f.w v } s
  | .direct a w => s.setReg a w
  | .preload k a m v => preloadRun k a m v s

/-! ### Tables beside the registers -/

/-- A port's bit of a mask set to a value. -/
def putPort (m : BitVec 17) (p : PortId) (b : Bool) : BitVec 17 :=
  let k := BitVec.ofNat 17 (2 ^ p.val)
  if b then m ||| k else m &&& ~~~ k

/-- The flags of a PORT_POLICY entry. -/
def policyFlags (e : List Byte) (s : State) : State :=
  match targetPort (leAt e 0 1) with
  | none => s
  | some p =>
    let f := leAt e 2 2
    s.modImg fun x => { x with enabled := putPort x.enabled p (f.testBit 0), eprClass := putPort x.eprClass p (f.testBit 1),
                               tandemCap := putPort x.tandemCap p (f.testBit 2) }

/-- PMB_MAP: entry i is target i (R201). The VDDC regulator has passed the checks of its turn-on (R210). -/
def mapTargets (v : List Byte) : List Target :=
  (chunks 4 (v.drop 4)).map fun e =>
    { addr := BitVec.ofNat 7 (leAt e 0 1), role := BitVec.ofNat 8 (leAt e 1 1), required := (leAt e 2 1).testBit 0,
      st := if leAt e 1 1 = 0x20 then .verified else .unverified }

/-- The three strings of USB_DESC. -/
def usbStrings : Nat → List Byte → List (List Byte)
  | n + 1, b :: l => l.take b.toNat :: usbStrings n (l.drop b.toNat)
  | _, _ => []

def usbTable (v : List Byte) (s : State) : State :=
  s.modImg fun x =>
    { x with vid := BitVec.ofNat 16 (leAt v 0 2), pid := BitVec.ofNat 16 (leAt v 2 2), bcd := BitVec.ofNat 16 (leAt v 4 2),
             holdConnect := (leAt v 6 2).testBit 0, coupled := (leAt v 6 2).testBit 1, strings := usbStrings 3 (v.drop 8) }

/-- An address of the RETENTION record joins bank 0, or is ignored (R397). -/
def retain (a : Nat) (s : State) : State :=
  let some_ := match regRow a with
    | some r => (r.rw ||| r.rwc) != 0
    | none => false
  if heldDeep a || a / 0x1000 == 6 || inWindow a || !some_ then pwrEvt 5 (BitVec.ofNat 32 a) s
  else s.modImg fun x => { x with retention := if x.retention.contains a then x.retention else x.retention ++ [a] }

/-- What a record sets beside the registers. -/
def recTables (r : Rec) (s : State) : State :=
  let v := r.value
  match r.kind with
  | 4 => forEach (chunks 8 v) policyFlags s
  | 7 => s.modPmb fun x => { x with targets := mapTargets v }
  | 8 => s.modImg fun x => { x with svid := some (BitVec.ofNat 16 (leAt v 0 2)) }
  | 9 => usbTable v s
  | 10 => let c := regionCounts v; s.modSto fun x => { x with rgn := Vector.ofFn fun n => c.getD n.val 0 }
  | 11 => forEach ((chunks 4 (v.drop 4)).map fun e => leNat e) retain s
  | _ => s

/-! ### The load -/

/-- The records of a slot, in image order (R64). -/
def recsRun (l : List Rec) (s : State) : State :=
  forEach l (fun r s => forEach (recOps l r) opRun (recTables r s)) s

/-- Entries held by the event queue move into the pages of the map that the load has fixed (R291, R292). -/
def evqRehome (s : State) : State :=
  let pages := s.evqLoadPages
  if pages = s.evq.pages then s
  else
    let old := s.evq.held
    let cells := old.map fun m => (List.range 4).map fun k => s.cell (m.addr / 4 + k)
    let s := s.modEvq fun q => { q with held := [], pages := pages, wr := 0 }
    forEach (old.zip cells) (fun e s =>
      match s.evq.pages[s.evq.wr / 64]? with
      | none => evqOwe (e.1.lost.getD 1) s
      | some g =>
        let a := g * 1024 + s.evq.wr % 64 * 16
        let s := forEach e.2.zipIdx (fun c s => s.setCell (a / 4 + c.2) c.1) s
        s.modEvq fun q => { q with held := q.held ++ [⟨a, e.1.lost⟩], wr := (q.wr + 1) % (64 * q.pages.length) }) s

/-- The commit of G0 to G10 that ends the load, and the pages that owners take then (R64, R248, R291, R292). -/
def loadEnd (s : State) : State :=
  let s := evqRehome s
  assignPages (commit .loader 0x7FF s)

/-- A valid slot is applied (R60, R64). -/
def imageApply (x : Slot) (s : State) : State :=
  match s.slotRecs x with
  | .error _ => s
  | .ok l =>
    let s := (s.modNvm fun n => { n with active := some x }).modGlb fun g => { g with compat := 1 }
    loadEnd (recsRun l (s.modImg fun i => { i with applied := true }))

/-! ### The reload of a retention bank (R399) -/

/-- The image's writes to registers of bank `b`, in image order. -/
def State.bankOps (s : State) (b : Fin 4) (l : List Rec) : List ImgOp :=
  (l.flatMap (recOps l)).filter fun o => s.bankOf o.addr == some b

/-- The active slot, when it can be read and still validates. -/
def State.reloadSlot (s : State) : Option (List Rec) :=
  match s.nvm.active with
  | none => none
  | some x => if slotResult s x = 0 then (match s.slotRecs x with
      | .ok l => some l
      | .error _ => none)
    else none

/-- The reload of a bank completes: its records are applied, or it keeps its reset values with RET_RESET (R399). -/
def bankReloaded (b : Fin 4) (s : State) : State :=
  if !s.pwr.reload.getLsbD b.val || !s.coreUp then s
  else
    let s := match s.reloadSlot with
      | some l => commit .loader 0x7FF (forEach (s.bankOps b l) opRun s)
      | none =>
        let s := s.wr F.PWR_RET_STATUS_RESET (s.rd F.PWR_RET_STATUS_RESET ||| 2 ^ b.val)
        raiseAt .retReset none (pwrEvt 3 0 s)
    let s := s.modPwr fun x => { x with reload := x.reload &&& ~~~ BitVec.ofNat 4 (2 ^ b.val) }
    forEach (bankPorts b.val) portApplyDisable s

/-! ### The end of every command -/

/-- The wake sources that this command detected, the lower code first (R388, R389, R392). -/
def wakeNoticed (s : State) : State :=
  let l := s.pwr.noticed
  let s := s.modPwr fun x => { x with noticed := [] }
  forEach (List.range 12) (fun k => forEach (l.filter fun e => WakeSrcCode e.1 == k) fun e => wakeSourceAt e.1 e.2) s

/-- What follows every effect: faults are collected (R406), G1 held by a switchover applies once it has ended (R81), a
request for DEEP or OFF is taken up once its conditions hold (R384), and what was a wake source wakes the hub (R388). -/
def settled (s : State) : State := wakeNoticed (requestTrack (settle (heldG1Apply (settle s))))

/-- A meaning's next state. -/
def fin (s : State) : Host.Outcome State Fault Refusal := .next (settled s)

end Sys2Proof.Machine
end

