-- ==== Sys2Proof/Machine/Start.lean ====
section
/-! DEFINITION. Start-up: the supplies, the resets, the start ladder, the loader, the service level, the dynamo hand-over's ends
and the flash (01_architecture.md R22 to R26; 02_startup_and_image.md R40 to R73). -/

namespace Sys2Proof.Machine

/-- A write of one register on a path, where the path reaches it; else nothing happens. -/
def writeAt (p : Path) (a : Nat) (v : Word) (s : State) : State := if s.reaches p a then regWrite p a v s else s

/-- A read of one register on a path, where the path reaches it. -/
def readAt (p : Path) (a : Nat) (s : State) : State := if s.reaches p a then (regRead p a s).2 else s

/-! ### Supplies (R41, R43, R456) -/

/-- The start cause of the supplies found good together: VIN first, then PU_VBUS with an Rp of 1.5 A or 3.0 A, then VTAN. -/
def supplyCause (vin puVbus vtan : Nat) (rp : CcTerm) : Nat :=
  if 33000 ≤ vin then 1
  else if 4400 ≤ puVbus ∧ (rp = .rp15 ∨ rp = .rp30) then 2
  else if 4400 ≤ vtan then 3
  else 0

def causeSource : Nat → VauxSource
  | 1 => .buck
  | 2 => .puVbus
  | _ => .vtan

/-- The first supply found good: straps sampled, AON released, the cause recorded (R41, R44, R456); after a loss of VAUX5 the
cause is that of the loss. -/
def supplyGood (vin puVbus vtan : Nat) (rp : CcTerm) (straps : BitVec 3) (s : State) : State :=
  let c := supplyCause vin puVbus vtan rp
  if s.glb.phase != .unpowered || c = 0 then s
  else
    let s := s.modFeed fun x => { x with vin := vin, vtan := vtan, below36 := decide (vin < 36000) }
    let s := s.modFeed fun x => { x with ftPresent := decide (4400 ≤ vtan) && s.feedEn 3 }
    let s := s.modPwr fun x => { x with vaux := causeSource c }
    let s := s.modGlb fun g => { g with phase := .ldos, straps := straps }
    let s := s.modTim fun t => { t with x32Rc := straps.getLsbD 2 }
    setCause (if s.rd F.GLB_RST_CAUSE_CAUSE = 5 then 5 else c) 0xFF s

def execSupplyGoodEval (vin puVbus vtan : Nat) (puRp : CcTerm) (straps : BitVec 3) (s : State) :
    Host.Outcome State Fault Refusal := fin (supplyGood vin puVbus vtan puRp straps s)

/-! ### Resets (R25, R40) -/

/-- RESET_N: ignored without a supply and in OFF (R403). -/
def execResetNLow (s : State) : Host.Outcome State Fault Refusal := fin (if s.aonUp then coldReset 4 s else s)

/-- VAUX5 below its POR threshold: with no supply left the hub waits for one, with cause VAUX5_BROWNOUT unless a tandem
start record will say more (R40, R55). -/
def vauxBrownout (s : State) : State :=
  if !s.aonUp then s
  else if s.supplyNow == .none then
    if s.feed.tandem then powerLost s else setCause 5 0xFF (powerLost s)
  else coldReset 5 s

def execVaux5Brownout (s : State) : Host.Outcome State Fault Refusal := fin (vauxBrownout s)

/-- The write sets COLD. -/
def execGlbResetCold (path : Path) (v : Word) (s : State) : Host.Outcome State Fault Refusal :=
  fin (writeAt path R.GLB_RESET (setBit v 1) s)

/-- The write sets WARM. -/
def execGlbResetWarm (path : Path) (v : Word) (s : State) : Host.Outcome State Fault Refusal :=
  fin (writeAt path R.GLB_RESET (setBit v 0) s)

/-! ### Clocks (R20 to R23) -/

/-- VDD33, VDDA and VDDAON are in regulation; X24 is started, and the AFEs but in a start from VTAN (R26, R53). -/
def ldosReady (s : State) : State :=
  if s.glb.phase != .ldos then s
  else (s.modGlb fun g => { g with phase := .x24 }).modPwr fun x =>
    { x with ldosOk := true, x24Run := true, rc8Run := true, afeOn := x.vaux != .vtan }

def execInternalLdosReady (s : State) : Host.Outcome State Fault Refusal := fin (ldosReady s)

/-- X24 is stable and PLL-U locked: PMB_CTRL goes high (R21, R26, R210). -/
def x24Ready (s : State) : State :=
  if !s.pwr.x24Run || s.pwr.x24Ready then s
  else
    let s := s.modPwr fun x => { x with x24Ready := true }
    if s.glb.phase == .x24 then
      (s.modGlb fun g => { g with phase := .vddc }).modPwr fun x => { x with pmbCtrl := true }
    else s

def execX24Ready (s : State) : Host.Outcome State Fault Refusal := fin (x24Ready s)

/-- X24 has stopped while PLL-U is meant to run: a class A fault (R22, R408). -/
def x24Stop (s : State) : State :=
  if s.coreUp && s.pwr.x24Run then
    raiseAt .x24Stop none ((s.modFlt fun f => { f with x24Stop := true }).modPwr fun x => { x with x24Ready := false })
  else s

def execX24Stop (s : State) : Host.Outcome State Fault Refusal := fin (x24Stop s)
def execX32CrystalFail (s : State) : Host.Outcome State Fault Refusal := fin (x32Fail s)

/-! ### VDDC (R210, R401) -/

/-- The cause of a failed turn-on. -/
def vddcCause : VddcResult → Option WakeFailCause
  | .ok => none
  | .noAck => some .vddcNoAck
  | .noPowerGood => some .vddcPg
  | .badVout => some .vddcVout

/-- A failed turn-on of the start ladder: PMB_CTRL low, X24 stopped, the next attempt 10 ms later, FAULT_N held low after the
third (R401). -/
def ladderFail (c : WakeFailCause) (s : State) : State :=
  let n := s.pwr.attempts + 1
  let s := (s.wr F.PWR_WAKE_REC_FAIL_CAUSE (WakeFailCode c)).wr F.PWR_WAKE_REC_ATTEMPTS n.val
  let s := s.modGlb fun g => { g with phase := .x24 }
  let s := s.modPwr fun x => { x with attempts := n, pmbCtrl := false, x24Run := false, x24Ready := false }
  if 3 ≤ n.val then
    (s.wr F.PWR_WAKE_REC_WAKEFAIL 1).modPwr (fun x => { x with st := .wakeFail }) |>.modFlt fun f => { f with wakeHold := true }
  else s.modPwr fun x => { x with retryDue := true }

/-- The ladder tries X24 and VDDC again: 10 ms after a failure, or in a new set of three attempts. -/
def ladderRetry (s : State) : State :=
  s.modPwr fun x =>
    { x with st := .run, x24Run := true, retryDue := false, attempts := if x.st == .wakeFail then 0 else x.attempts }

/-- VDDC is confirmed, or its turn-on fails (R210, R401); after failed sets FAULT_N is released and WAKEFAIL follows. -/
def vddcDone (r : VddcResult) (s : State) : State :=
  match vddcCause r with
  | none =>
    if s.glb.phase == .vddc && s.pwr.pmbCtrl then
      let s := (s.modGlb fun g => { g with phase := .fill }).modPwr fun x => { x with vddcOn := true }
      if s.flt.wakeHold then
        raiseAt .wakeFail none (pwrEvt 1 (s.reg R.PWR_WAKE_REC) (s.modFlt fun f => { f with wakeHold := false }))
      else s
    else s
  | some c => if s.glb.phase == .vddc && s.pwr.pmbCtrl then ladderFail c s else attemptFail c s

def execVddcTurnOnDone (r : VddcResult) (s : State) : Host.Outcome State Fault Refusal := fin (vddcDone r s)

/-! ### The fill and the loader (R26, R44, R55, R59, R60) -/

/-- The fill is complete: CORE, TIME and the PHY domains are released and the loader starts (R26, R293). -/
def fillDone (s : State) : State :=
  if s.glb.phase != .fill then s
  else
    let s := storeFill s
    (s.modGlb fun g => { g with phase := .loader, loading := true }).modPwr fun x => { x with dphyA := true, dphyB := true }

/-- The last start was a warm reset (R40). -/
def State.warmStart (s : State) : Bool := s.rd F.GLB_RST_CAUSE_CAUSE == 8 || s.rd F.GLB_RST_CAUSE_CAUSE == 9

/-- The loader of a cold start examines the cause area (R55): a new record sets the cause, and is consumed. -/
def causeExamine (s : State) : State :=
  match s.causeRecord with
  | none => s
  | some k => (causeConsume k (setCause 0x0A (s.causeByte k 4).toNat s)).modNvm fun n => { n with causeNew := true }

/-- The first entry after a reset is the reset-cause entry, with the count of the entries lost (R33, R40, R418); events that
waited follow. -/
def causeEntry (s : State) : State :=
  let n := s.evq.lostNext
  let d := atBits 16 16 (min n 0xFFFF) ||| (s.reg R.GLB_RST_CAUSE &&& 0xFFFF)
  let e : EvEntry := { source := 0, code := 0xFF01, detail := d, at_ := s.tb0, lost := decide (0 < n) }
  let s := evqPut e none (s.modEvq fun q => { q with lostNext := 0 })
  evqFlushAon (s.modGlb fun g => { g with causeDone := true })

/-- A slot's result in NVM_LOAD. -/
def slotResultSet (x : Slot) (r : Nat) (s : State) : State :=
  match x with
  | .a => s.wr F.NVM_LOAD_A_RESULT r
  | .b => s.wr F.NVM_LOAD_B_RESULT r

/-- What follows the load: the converters of the map are commanded off (R44, R209), and recovery begins after FAULT_WARM
(R411). -/
def loadDone (s : State) : State :=
  let s := s.modGlb fun g => { g with phase := .converters, loading := false }
  let s := if s.rd F.GLB_RST_CAUSE_CAUSE = 9 then s.modFlt fun f => { f with recovery := true } else s
  pmbAllOff s

/-- No slot is valid: Level 0, with the default map (R46, R291). -/
def loadNone (s : State) : State := loadDone (assignPages ((evqRehome s).modNvm fun n => { n with order := [] }))

/-- The JEDEC ID and both headers are read, the slots are ordered, the cause area is examined (R55, R60, R487). -/
def headersRead (jedec : BitVec 24) (content : List (Nat × Byte)) (s : State) : State :=
  if s.glb.phase != .loader || s.glb.causeDone then s
  else
    let flash := SMap.ofList flashReset (content.map fun e => (e.1 % 2 ^ 24, e.2))
    let s := s.modNvm fun n => { n with jedec := jedec, flash := flash }
    if jedec = 0xFFFFFF ∨ jedec = 0 then
      loadNone (causeEntry (slotResultSet .a 12 (slotResultSet .b 12 s)))
    else
      let s := if s.warmStart then s else causeExamine s
      let s := s.wr F.NVM_SEQ_A_SEQ (if s.headerOk .a then s.slotSeq .a else 0)
      let s := s.wr F.NVM_SEQ_B_SEQ (if s.headerOk .b then s.slotSeq .b else 0)
      causeEntry (s.modNvm fun n => { n with order := s.slotOrder })

def execFlashHeadersRead (jedec : BitVec 24) (content : List (Nat × Byte)) (s : State) : Host.Outcome State Fault Refusal :=
  fin (headersRead jedec content s)

/-- A candidate has its result: 0 applies it, another leads to the other slot or to Level 0 (R59, R60). -/
def slotJudge (x : Slot) (rest : List Slot) (r : Nat) (s : State) : State :=
  let s := slotResultSet x r s
  if r = 0 then loadDone (imageApply x (s.modNvm fun n => { n with order := [] }))
  else if rest.isEmpty then loadNone s
  else (s.modNvm fun n => { n with order := rest }).modGlb fun g => { g with phase := .loader }

/-- The candidate slot is read: header and CRC, then the signature in signed-image mode, else the records (R59). -/
def slotValidated (s : State) : State :=
  match s.glb.phase, s.nvm.order with
  | .loader, x :: rest =>
    let r := slotCheck1 s x
    if r ≠ 0 then slotJudge x rest r s
    else if s.signedMode then s.modGlb fun g => { g with phase := .signature }
    else slotJudge x rest (slotCheck3 s x) s
  | _, _ => s

def execSlotValidated (s : State) : Host.Outcome State Fault Refusal := fin (slotValidated s)

/-- The signature check ends; a good one leads to the records (R59, R67). -/
def signatureVerified (s : State) : State :=
  match s.glb.phase, s.nvm.order with
  | .signature, x :: rest =>
    let r := slotCheck2 s x
    slotJudge x rest (if r ≠ 0 then r else slotCheck3 s x) s
  | _, _ => s

def execSignatureVerified (s : State) : Host.Outcome State Fault Refusal := fin (signatureVerified s)

/-! ### The service level (R44, R46, R52) -/

/-- Off commands of the ladder that are not yet confirmed (R44, R45). -/
def State.offsPending (s : State) : Bool := s.pmb.all.any fun t => t.why == .resetOff

/-- A dynamo start reaches Level 1 with FC enabled: the hand-over begins (R52). With FC disabled there is none (R51). -/
def dynBegin (s : State) : State :=
  if s.rd F.GLB_RST_CAUSE_CAUSE = 2 ∧ s.glb.level = 1 ∧ !s.feedActive then
    (if s.feedEn 2 then s.modDyn fun _ => { step := .req5 } else pushEvent 0x20 0xFF07 0 s)
  else s

/-- A hub that VTAN supplies, with no feed, comes up in the tandem state (before R53). -/
def tandemStart (s : State) : State :=
  if s.pwr.vaux == .vtan && !s.feedActive && s.feed.ftPresent then
    s.modFeed fun x => { x with tandem := true, totalLoss := true }
  else s

/-- The service level is set: the ports leave the first Rd state and follow the policy, converters are verified when a feed
is ACTIVE, and a dynamo start may begin its hand-over (R42, R46, R52, R207). -/
def portsStart (s : State) : State :=
  let s := forEach allPorts portApplyDisable (rdTrack s)
  dynBegin (if s.feedActive then pmbVerifyAll s else s)

/-- Every converter has been commanded off: the service level is set (R44, R46). -/
def convertersOff (s : State) : State :=
  if s.glb.phase != .converters || s.offsPending then s
  else portsStart (setLevel (if s.img.applied then 1 else 0) (tandemStart (s.modGlb fun g => { g with phase := .up })))

def execLadderConvertersOff (s : State) : Host.Outcome State Fault Refusal := fin (convertersOff s)

/-- Every converter marked REQUIRED in the map is verified (R46). -/
def State.requiredOk (s : State) : Bool :=
  s.pmb.targets.all fun t => !t.required || !decide (t.role.toNat < 16) || t.st == .verified

/-- The conditions of Level 2, once the feed and VIN have held for 100 ms (R46). -/
def State.level2Ok (s : State) : Bool :=
  s.isUp && s.glb.level == 1 && s.feed.sel.isSome && !s.feed.switching && decide (36000 ≤ s.feed.vin) && s.requiredOk &&
    s.pwr.reload == 0 && !s.feed.tandem && !s.dynRuns

/-- Level 2; each former tandem port, in port order, is asked to swap back (R46, R97). -/
def levelUp (s : State) : State :=
  if !s.level2Ok then s
  else
    let s := setLevel 2 s
    forEach s.feed.formerTandem (fun p s => pdPrSwapStart (dport p) s) (s.modFeed fun x => { x with formerTandem := [] })

def execLevelUpTo2 (s : State) : Host.Outcome State Fault Refusal := fin (levelUp s)

/-- VIN passes 33 V rising: bridge mode ends (R50). -/
def bridgeEnd (s : State) : State :=
  if s.dyn.bridge then (s.modDyn fun d => { d with bridge := false }).modPwr fun x => { x with vaux := .buck } else s

def execBridgeModeEnd (s : State) : Host.Outcome State Fault Refusal := fin (bridgeEnd s)

/-- No 48 V offer within 5 s of Level 1: the hand-over is abandoned (R51, R52). -/
def dynNoEpr (s : State) : State :=
  if s.dynRuns then dynAbandon s else s

def execDynNoEpr (s : State) : Host.Outcome State Fault Refusal := fin (dynNoEpr s)

/-! ### The flash (R54 to R56, R72, R73) -/

/-- The waiting cause record is programmed (R54). -/
def execCauseRecordProgrammed (s : State) : Host.Outcome State Fault Refusal :=
  fin (if s.nvm.op.isNone && !s.nvm.causeErase then causeProgram s else s)

/-- The background erase of the cause area starts (R55). -/
def execCauseAreaEraseStart (s : State) : Host.Outcome State Fault Refusal :=
  fin (if s.causeEraseDue then s.modNvm fun n => { n with causeErase := true } else s)

/-- The background erase ends; RESULT and VERDICT stay (R55). -/
def execCauseAreaEraseDone (s : State) : Host.Outcome State Fault Refusal :=
  fin (if s.nvm.causeErase then
    (s.modFlash (flashErase causeBase 4096)).modNvm fun n => { n with causeErase := false } else s)

/-- A write of NVM_CMD with operation `op`; the word's other bits are the operand's. -/
def nvmCmdAt (p : Path) (op : Nat) (v : Word) (s : State) : State := writeAt p R.NVM_CMD (putBits v 0 4 op) s

def execNvmRead (path : Path) (v : Word) (s : State) : Host.Outcome State Fault Refusal := fin (nvmCmdAt path 1 v s)
def execNvmProgram (path : Path) (v : Word) (s : State) : Host.Outcome State Fault Refusal := fin (nvmCmdAt path 2 v s)
def execNvmErase4k (path : Path) (v : Word) (s : State) : Host.Outcome State Fault Refusal := fin (nvmCmdAt path 3 v s)
def execNvmErase64k (path : Path) (v : Word) (s : State) : Host.Outcome State Fault Refusal := fin (nvmCmdAt path 4 v s)
def execNvmVerifySlot (path : Path) (v : Word) (s : State) : Host.Outcome State Fault Refusal := fin (nvmCmdAt path 5 v s)
def execNvmReadId (path : Path) (v : Word) (s : State) : Host.Outcome State Fault Refusal := fin (nvmCmdAt path 6 v s)
def execNvmOtpProgram (path : Path) (v : Word) (s : State) : Host.Outcome State Fault Refusal := fin (nvmCmdAt path 7 v s)

/-- A write of NVM_CMD with an undefined OP, 8 to 15: the operand's OP with bit 3 set. -/
def execNvmBadOp (path : Path) (v : Word) (s : State) : Host.Outcome State Fault Refusal :=
  fin (writeAt path R.NVM_CMD (setBit v 3) s)

def execNvmOpDone (jedec : BitVec 24) (stuckLow : Word) (s : State) : Host.Outcome State Fault Refusal :=
  fin (nvmFinish jedec stuckLow s)

/-- A timed operation exceeds its bound: RESULT TIMEOUT (R73). -/
def nvmTimeout (s : State) : State :=
  match s.nvm.op with
  | some op => if op.timed then nvmResult 2 (s.modNvm fun n => { n with op := none }) else s
  | none => s

def execNvmOpTimeout (s : State) : Host.Outcome State Fault Refusal := fin (nvmTimeout s)

/-! ### Retention (R399) -/

def execRetentionReloadDone (bank : Fin 4) (s : State) : Host.Outcome State Fault Refusal := fin (bankReloaded bank s)

end Sys2Proof.Machine
end

