-- ==== Sys2Proof/Machine/Feeds.lean ====
section
/-! DEFINITION. The feed commands (03_feeds.md R75 to R100): windows, loss, switchover, damage, trips, the bell, the tandem
state and the aux outputs. A command whose condition the hub does not meet leaves the state as it is (log 2). -/

namespace Sys2Proof.Machine

/-! ### Windows and qualification (R75, R76, R78) -/

/-- FC can qualify only under a PU contract as sink at 36 V or more (R76). -/
def State.mayQualify (s : State) (f : FeedId) : Bool :=
  s.feedEn (feedCode f) && (f != .fc || (match (s.port PU).pd.contract with
    | some c => !(s.port PU).pd.source && decide (36000 ≤ c.mv)
    | none => false))

/-- A feed enters its window (R75). -/
def feedEnter (f : FeedId) (s : State) : State :=
  if !s.aonUp then s
  else
    let s := s.modLine f fun l => { l with inWindow := true }
    if (s.line f).st == .absent && s.mayQualify f then s.modLine f fun l => { l with st := .qualifying } else s

def execFeedWindowEnter (f : FeedId) (s : State) : Host.Outcome State Fault Refusal := fin (feedEnter f s)

/-- A feed leaves its window for 10 µs: an ACTIVE feed is not held to it (R75). -/
def feedLeave (f : FeedId) (s : State) : State :=
  let s := s.modLine f fun l => { l with inWindow := false }
  match (s.line f).st with
  | .qualifying | .ready => s.modLine f fun l => { l with st := .absent }
  | _ => s

def execFeedWindowExit (f : FeedId) (s : State) : Host.Outcome State Fault Refusal := fin (feedLeave f s)

def execFeedQualified (f : FeedId) (s : State) : Host.Outcome State Fault Refusal :=
  fin (if (s.line f).st == .qualifying && (s.line f).inWindow then feedReady f s else s)

/-- The revert delay of a higher-ranked READY feed has passed (R78). -/
def feedRevert (f : FeedId) (s : State) : State :=
  match s.activeFeed with
  | some g =>
    if (s.line f).st == .ready && decide (s.feedRank f < s.feedRank g) && !s.feed.switching &&
        s.rd F.FEED_CTRL_REVERT != 0 then feedBreak g .ready s
    else s
  | none => s

def execFeedRevertExpire (f : FeedId) (s : State) : Host.Outcome State Fault Refusal := fin (feedRevert f s)

/-! ### Loss of the ACTIVE feed (R79) -/

/-- VAUX5 when VIN no longer supplies it: PU_VBUS, VTAN, or nothing (R14, R15). -/
def vauxFall (s : State) : State :=
  if s.pwr.vaux == .buck && !s.dyn.bridge then s.modPwr fun x => { x with vaux := s.supplyNow } else s

/-- VIN below 31 V: the ACTIVE feed is lost; with none ACTIVE, total feed loss (R79, R92). A feed that drove the bus through
its failed pair is gone with it (R82). -/
def vinLow (vin : Nat) (s : State) : State :=
  if 31000 ≤ vin || !s.aonUp then s
  else
    let s := vauxFall (s.modFeed fun x => { x with vin := vin, below36 := true })
    match s.activeFeed with
    | some f => feedBreak f .absent s
    | none =>
      if s.feed.failed.isSome then feedSelect (totalLossNow (s.modFeed fun x => { x with failed := none }))
      else if s.feed.switching || s.feed.totalLoss then s
      else totalLossNow s

def execVinUvlo (vin : Nat) (s : State) : Host.Outcome State Fault Refusal := fin (vinLow vin s)

/-- Reverse current into the ACTIVE feed. -/
def feedReverse (s : State) : State :=
  match s.activeFeed with
  | some f => feedBreak f .absent s
  | none => s

def execFeedReverseCurrent (s : State) : Host.Outcome State Fault Refusal := fin (feedReverse s)

/-- VIN has stayed below 36 V longer than FEED_VTH.HOLD: the Rd rule (R140), Level 1 (R46), and the loss of the ACTIVE feed
while another is READY (R79). -/
def vinHeld (s : State) : State :=
  if !s.feed.below36 then s
  else
    let s := levelDown (rdTrack (s.modFeed fun x => { x with below36Held := true }))
    match s.activeFeed, s.feedPick with
    | some f, some _ => feedBreak f .absent s
    | _, _ => s

def execVinBrownoutHoldExpire (s : State) : Host.Outcome State Fault Refusal := fin (vinHeld s)

/-- VIN crosses 36.0 V (R140, R46). -/
def vinCross (rising : Bool) (vin : Nat) (s : State) : State :=
  if rising then
    if vin < 36000 || !s.aonUp then s
    else
      let s := s.modFeed fun x => { x with vin := vin, below36 := false, below36Held := false }
      let s := s.modPwr fun x => { x with vaux := .buck }
      rdTrack s
  else if 36000 ≤ vin then s
  else s.modFeed fun x => { x with vin := vin, below36 := true }

def execVin36vCrossing (rising : Bool) (vin : Nat) (s : State) : Host.Outcome State Fault Refusal :=
  fin (vinCross rising vin s)

/-! ### Switchover (R80 to R83) -/

/-- The old pair is confirmed off: SEL names none, the old feed settles, the new one is chosen afresh (R80, R81). -/
def oldOff (s : State) : State :=
  match s.feed.switching, s.feed.old with
  | true, some f =>
    let first := (s.line f).st != .active
    let next := s.feed.oldNext
    let s := s.modFeed fun x => { x with sel := none, old := none }
    rdTrack (feedChoose first (feedSettleOld f next s))
  | _, _ => s

def execSwitchoverOldOff (s : State) : Host.Outcome State Fault Refusal := fin (oldOff s)

/-- The old pair is not confirmed off within 100 µs (R82): the hub runs on from a feed that is still present. -/
def oldStuck (present : Bool) (s : State) : State :=
  match s.feed.switching, s.feed.old with
  | true, some f =>
    let s := s.modFeed fun x =>
      { x with switching := false, old := none, new_ := none, failed := if present then some f else none }
    let s := feedLockNow f .shortedPass s
    if present then s else totalLossNow s
  | _, _ => s

def execSwitchoverConfirmTimeout (oldPresent : Bool) (s : State) : Host.Outcome State Fault Refusal :=
  fin (oldStuck oldPresent s)

/-- The pair of the ACTIVE feed reaches conduction (R80); onto a live bus VIN is there. -/
def pairConducts (f : FeedId) (s : State) : State :=
  if (s.line f).st == .active && (s.line f).gate == .charging && !s.breaking then
    feedConducts f (if (s.line f).live then s.modPwr fun x => { x with vaux := .buck } else s)
  else s

def execFeedPairConducts (f : FeedId) (s : State) : Host.Outcome State Fault Refusal := fin (pairConducts f s)

/-- V_GS above 8 V: the switchover is over, held G1 commits take effect (R80, R81); FC's pair is the PU path, which is ON. -/
def pairFull (f : FeedId) (s : State) : State :=
  if (s.line f).st == .active && (s.line f).gate == .conducting && !s.breaking then
    let s := s.modLine f fun l => { l with gate := .full }
    let s := if s.feed.switching then
        s.modFeed fun x => { x with switching := false, lastSwitch := some s.tb3 }
      else s
    if f = .fc then s.modPp PU fun x => { x with st := if x.st == .ramp then .on else x.st } else s
  else s

def execFeedPairFullyOn (f : FeedId) (s : State) : Host.Outcome State Fault Refusal := fin (pairFull f s)

/-- Onto a live bus, the pair must be fully on within 5 ms (R83). -/
def execFeedLiveTurnonTimeout (f : FeedId) (s : State) : Host.Outcome State Fault Refusal :=
  let l := s.line f
  fin (if l.st == .active && l.live && l.gate != .full && !s.breaking then feedTripNow f .gate s else s)

/-- The end of a ramp onto a low bus (R85): VIN has come within 5 % of the feed. -/
def rampEnd (f : FeedId) (s : State) : State :=
  let l := s.line f
  if l.st == .active && !l.live && !l.rampEnded && !s.breaking then
    let s := s.modLine f fun l => { l with rampEnded := true }
    let s := s.modPwr fun x => { x with vaux := .buck }
    if l.gate == .charging then feedConducts f s else s
  else s

def execFeedRampEnd (f : FeedId) (s : State) : Host.Outcome State Fault Refusal := fin (rampEnd f s)

/-- The gate check after a turn-on onto a low bus (R85). -/
def gateFail (f : FeedId) (s : State) : State :=
  let l := s.line f
  if l.st == .active && !l.live && l.gate != .full && !s.breaking then
    feedBreak f .locked (s.modLine f fun l => { l with cause := .gate })
  else s

def execFeedGateCheckFail (f : FeedId) (s : State) : Host.Outcome State Fault Refusal := fin (gateFail f s)

/-- Current in a pair that should be off, with another feed ACTIVE (R85). -/
def shortedPass (f : FeedId) (s : State) : State :=
  match (s.line f).st, s.activeFeed with
  | .active, _ | .locked, _ | _, none => s
  | _, some _ => feedLockNow f .shortedPass s

def execFeedShortedPass (f : FeedId) (s : State) : Host.Outcome State Fault Refusal := fin (shortedPass f s)

/-! ### Trips (R84) -/

def feedTripCause : FeedTripCause → FeedCause
  | .brakeCurve => .brakeCurve
  | .fastTrip => .fastTrip
  | .gate => .gate
  | .soaBudget => .soaBudget

def puTripCause : FeedTripCause → PpCause
  | .brakeCurve => .brakeCurve
  | .fastTrip => .fastTrip
  | .gate => .gate
  | .soaBudget => .soaBudget

/-- A feed trips; FC is protected by the PU power path. -/
def execFeedTrip (f : FeedId) (cause : FeedTripCause) (s : State) : Host.Outcome State Fault Refusal :=
  fin (if f = .fc then pathTrip PU (puTripCause cause) s
    else if (s.line f).st == .active && !s.breaking then feedTripNow f (feedTripCause cause) s
    else s)

/-- The end of the 1 s of COOLDOWN: ABSENT, or DISABLED where FEED_CTRL has disabled the feed meanwhile. -/
def feedCooled (f : FeedId) (s : State) : State :=
  match (s.line f).st with
  | .tripped | .cooldown =>
    s.modLine f fun l => { l with st := if s.feedEn (feedCode f) then .absent else .disabled }
  | _ => s

def execFeedCooldownExpire (f : FeedId) (s : State) : Host.Outcome State Fault Refusal := fin (feedCooled f s)

/-- FEED_UNLOCK takes the write where its key holds (R85). -/
def execFeedUnlock (path : Path) (v : Word) (s : State) : Host.Outcome State Fault Refusal :=
  fin (writeAt path R.FEED_UNLOCK v s)

/-! ### VIN overvoltage (R88, R459) -/

/-- VIN above 78 V: the class A fault, present until VIN is back at 78 V or below (R408). In OFF, HVS alone acts. -/
def vinOver (vin : Nat) (s : State) : State :=
  if vin ≤ 78000 then s
  else
    let s := s.modFeed fun x => { x with vin := vin }
    if !s.aonUp then feedsClassA s
    else if s.flt.vinOv then s
    else
      let s := match s.activeFeed with
        | some f => s.modLine f fun l => { l with cause := .overvoltage }
        | none => s
      raiseAt .vinOv none (s.modFlt fun x => { x with vinOv := true })

/-- A VIN above the absolute maximum of R459 is damage, for which the spec gives no behaviour. -/
def execVinOvervoltage (vin : Nat) (s : State) : Host.Outcome State Fault Refusal :=
  if 100000 < vin then .fault .stressBeyondRating else fin (vinOver vin s)

/-! ### The bell (R89 to R91) -/

/-- The warning level in mV. -/
def State.warnMv (s : State) : Nat := 33000 + 500 * s.rd F.FEED_VTH_WARN

def execBellRing (vin : Nat) (s : State) : Host.Outcome State Fault Refusal :=
  fin (if decide (vin < s.warnMv) && s.aonUp then bellNow (s.modFeed fun x => { x with vin := vin }) else s)

/-- The bell clears: CLEAR frames, EWARN_N released, the dip duration recorded and queued. -/
def bellClear (vin dur : Nat) (s : State) : State :=
  if !s.feed.bell || decide (vin ≤ s.warnMv + 1000) then s
  else
    let s := sendBells true (s.modFeed fun x => { x with vin := vin, bell := false })
    let s := s.setReg R.FEED_BELL_DUR (BitVec.ofNat 32 dur)
    raiseEvt R.FEED_EVT 1 (BitVec.ofNat 32 dur) s

def execBellClear (vin durUs : Nat) (s : State) : Host.Outcome State Fault Refusal := fin (bellClear vin durUs s)

def execDegradedSet (s : State) : Host.Outcome State Fault Refusal :=
  fin (if s.feed.bell && !s.feed.degraded then
      bmRecompute (feedEvt 9 (s.modFeed fun x => { x with degraded := true }))
    else s)

def execDegradedClear (s : State) : Host.Outcome State Fault Refusal :=
  fin (if s.feed.degraded && !s.feed.bell then bmRecompute (s.modFeed fun x => { x with degraded := false }) else s)

/-! ### The tandem state (R77, R94, R140) -/

/-- VAUX5 falls to VTAN after total feed loss: TANDEM, Level 1, the event, the analogue front ends off. -/
def tandemIn (vtan : Nat) (s : State) : State :=
  if s.feed.totalLoss && !s.feed.tandem && decide (4400 ≤ vtan) && s.feedEn 3 && !s.puHolds then
    let s := s.modFeed fun x => { x with vtan := vtan, ftPresent := true, tandem := true }
    let s := s.modPwr fun x => { x with vaux := .vtan, afeOn := false }
    rdTrack (feedEvt 4 (levelDown s))
  else s

def execTandemEnter (vtan : Nat) (s : State) : Host.Outcome State Fault Refusal := fin (tandemIn vtan s)

/-- VTAN has moved; as the supply of VAUX5 it holds at 4.4 V or more. -/
def vtanMoved (vtan : Nat) (s : State) : State :=
  if !s.aonUp then s
  else
    let s := noticeIf (s.feed.ftPresent != (decide (4400 ≤ vtan) && s.feedEn 3)) .feed none s
    let s := s.modFeed fun x => { x with vtan := vtan, ftPresent := decide (4400 ≤ vtan) && s.feedEn 3 }
    if s.pwr.vaux == .none || s.pwr.vaux == .vtan then s.modPwr fun x => { x with vaux := s.supplyNow } else s

def execFtPresentChange (vtan : Nat) (s : State) : Host.Outcome State Fault Refusal := fin (vtanMoved vtan s)

/-! ### Aux outputs (R99, R100) -/

/-- 10 ms after an aux output turned off. -/
def axCheck (a : AxId) (vsns : Nat) (s : State) : State :=
  if (s.ax a).offCheck then
    let s := s.modAx a fun x => { x with offCheck := false }
    if 3000 ≤ vsns && !s.feed.tandem then axLock a .shortedPass (feedEvt 7 s) else s
  else s

def execAxOffVsnsCheck (a : AxId) (vsns : Nat) (s : State) : Host.Outcome State Fault Refusal := fin (axCheck a vsns s)

def axPgood (a : AxId) (s : State) : State :=
  match (s.ax a).st with
  | .on | .limit => s.modAx a fun x => { x with pgood := x.pgood || x.gateFull }
  | _ => s

def execAxPgoodRelease (a : AxId) (s : State) : Host.Outcome State Fault Refusal := fin (axPgood a s)

end Sys2Proof.Machine
end

