-- ==== Sys2Proof/Machine/Paths.lean ====
section
/-! DEFINITION. The power-path and metering commands (04_port_power_path.md R103 to R132; 03_feeds.md R98; EP4's tick,
10_embedded_function.md R288). A command whose condition the path does not meet leaves the state as it is (log 2). -/

namespace Sys2Proof.Machine

def State.pathState (s : State) : PathRef → PpState
  | .port p => (s.port p).pp.st
  | .ax a => (s.ax a).st

/-- A trip of either kind of path that counts as a retry. -/
def tripRef (x : PathRef) (c : PpCause) (fc : FeedCause) (s : State) : State :=
  match x with
  | .port p => pathTrip p c s
  | .ax a => axTrip a fc true s

/-! ### RAMP, ON and LIMIT (R98, R106, R108, R110) -/

/-- PU_VBUS lies within 5 % of the contract voltage (R106). -/
def State.puVbusOk (s : State) (mv : Nat) : Bool :=
  match (s.port PU).pd.contract with
  | some c => decide (20 * mv ≤ 21 * c.mv ∧ 19 * c.mv ≤ 20 * mv)
  | none => false

/-- The pair of a port may leave OFF, or COOLDOWN after its backoff, with VSNS (for PU its VBUS) at `v`. -/
def State.rampReady (s : State) (p : PortId) (v : Nat) : Bool :=
  if p = PU then
    s.puVbusOk v && (s.coolReady PU || (s.puMayRamp && (s.feed.fc.st == .active || s.dyn.step == .ramp)))
  else s.coolReady p || ((s.port p).pp.st == .off && s.ppReady p)

/-- An aux output may leave OFF, or COOLDOWN after its backoff (R98). -/
def State.axRampReady (s : State) (a : AxId) : Bool :=
  s.axMay a && ((s.ax a).st == .off || ((s.ax a).st == .cooldown && (s.ax a).backoffDone))

/-- Entry to RAMP; a fresh 250 ms of R146 starts for an attached source. -/
def pathRamp (x : PathRef) (vsns : Nat) (s : State) : State :=
  match x with
  | .port p =>
    if s.rampReady p vsns then
      let s := ppEnterRamp p (if p = PU then 0 else vsns) s
      s.modTc p fun t => { t with vbusCount := t.st == .attachedSrc }
    else s
  | .ax a =>
    if s.axRampReady a then
      s.modAx a fun x => { x with st := .ramp, backoffDone := false, offCheck := false }
    else s

def execPathRampStart (x : PathRef) (vsns : Nat) (s : State) : Host.Outcome State Fault Refusal := fin (pathRamp x vsns s)

/-- A downstream path reaches ON: the gate check of an SPR-class pair starts (R124), R146 ends, and the PD engine goes on with
a swap (R193) or starts a contract (R167). -/
def portOn (p : PortId) (s : State) : State :=
  let s := s.modPp p fun x => { x with st := .on, gateCheck := !s.eprClass p }
  let s := s.modTc p fun t => { t with vbusCount := false }
  if (s.port p).pd.swap == .newRamp then swapNewOn p s
  else if s.pdUp p && (s.port p).tc.st == .attachedSrc && (s.port p).pd.contract.isNone then pdContractStart p s
  else s

/-- The PU pair reaches ON; in the hand-over EPR mode is entered next (R49, R106). -/
def puOn (s : State) : State :=
  let s := s.modPp PU fun x => { x with st := .on }
  if s.dyn.step == .ramp then puEnterEpr (s.modDyn fun d => { d with step := .enterEpr }) else s

/-- RAMP to ON (R108, R106, R98). -/
def pathOn (x : PathRef) (s : State) : State :=
  if s.pathState x == .ramp then
    match x with
    | .port p => if p = PU then puOn s else portOn p s
    | .ax a => s.modAx a fun x => { x with st := .on, gateFull := true }
  else s

def execPathRampDone (x : PathRef) (s : State) : Host.Outcome State Fault Refusal := fin (pathOn x s)

/-- ON to LIMIT (R108). -/
def pathLimit (x : PathRef) (s : State) : State :=
  if s.pathState x == .on then
    match x with
    | .port p => ppEvt p 2 (s.modPp p fun x => { x with st := .limit })
    | .ax a => notice .prot none (s.modAx a fun x => { x with st := .limit, gateFull := false })
  else s

def execPathLimitEnter (x : PathRef) (s : State) : Host.Outcome State Fault Refusal := fin (pathLimit x s)

/-- LIMIT to ON (R108). -/
def pathUnlimit (x : PathRef) (s : State) : State :=
  if s.pathState x == .limit then
    match x with
    | .port p => s.modPp p fun x => { x with st := .on }
    | .ax a => s.modAx a fun x => { x with st := .on, gateFull := true }
  else s

def execPathLimitExit (x : PathRef) (s : State) : Host.Outcome State Fault Refusal := fin (pathUnlimit x s)

/-! ### Trips (R103, R111, R114, R118) -/

def execPathFastTrip (x : PathRef) (s : State) : Host.Outcome State Fault Refusal := fin (tripRef x .fastTrip .fastTrip s)

/-- I_TH of breakpoint `k` of a path; 0 leaves the breakpoint unused (R117). -/
def State.brkTh (s : State) (x : PathRef) (k : Fin 8) : Nat := bitsOf (s.reg (brkBase x + 4 + 4 * k.val)) 0 16

/-- A timer of a used breakpoint reaches its T (R118). -/
def execBrakeTimerExpire (x : PathRef) (k : Fin 8) (s : State) : Host.Outcome State Fault Refusal :=
  fin (if s.brkTh x k = 0 then s else tripRef x .brakeCurve .brakeCurve s)

/-- The accumulator reaches SOA_MJ in RAMP or LIMIT (R114); PP_SOAE then reports it full. -/
def soaTrip (x : PathRef) (s : State) : State :=
  match s.pathState x with
  | .ramp | .limit =>
    match x with
    | .port p =>
      pathTrip p .soaBudget (s.modPp p fun x => { x with soa := s.rd (F.PP_BRKCFG_SOA_MJ p) * 4000000000 })
    | .ax a => axTrip a .soaBudget true s
  | _ => s

def execSoaBudgetExhausted (x : PathRef) (s : State) : Host.Outcome State Fault Refusal := fin (soaTrip x s)

/-- Neither R111 nor R124 to R126 applies to the PU pair (R106). -/
def execRampTimeout (p : PortId) (s : State) : Host.Outcome State Fault Refusal :=
  fin (if p ≠ PU && (s.port p).pp.st == .ramp then pathTrip p .rampTimeout s else s)

/-! ### Damaged pass elements (R124 to R127) -/

/-- The steps of R127: LOCKED, the event, the converter off as class 1. -/
def pathShorted (p : PortId) (s : State) : State := ppShortedOff p (ppEvt p 5 (pathLock p .shortedPass s))

def execRampOvershoot (p : PortId) (s : State) : Host.Outcome State Fault Refusal :=
  fin (if p ≠ PU && (s.port p).pp.st == .ramp then pathShorted p s else s)

def execGateCheckFail (p : PortId) (s : State) : Host.Outcome State Fault Refusal :=
  fin (if p ≠ PU && (s.port p).pp.st == .on && (s.port p).pp.gateCheck then pathLock p .gate (ppEvt p 4 s) else s)

/-- VSNS is not below 3 V 10 ms after the pair of an EPR-class port went off (R125). -/
def outputPresent (p : PortId) (s : State) : State :=
  if (s.port p).pp.check && !s.ppSuppress p then
    match (s.port p).pp.st with
    | .off | .tripped | .cooldown => pathShorted p (s.modPp p fun x => { x with check := false })
    | _ => s
  else s

def execOutputPresentFail (p : PortId) (s : State) : Host.Outcome State Fault Refusal := fin (outputPresent p s)

/-! ### COOLDOWN and retries (R108, R121, R98) -/

/-- AXn_CTRL.RETRY: the retry count and the backoff code. -/
def State.axRetry (s : State) (a : AxId) : Nat := s.rd (if a = 0 then F.AX0_CTRL_RETRY else F.AX1_CTRL_RETRY)

/-- The pair of a tripped aux output is off: COOLDOWN, or LOCKED when no retry is left; an OFF condition acts now. -/
def axCool (a : AxId) (s : State) : State :=
  let x := s.ax a
  if x.counted && decide (s.axRetry a / 16 ≤ x.retries.val) then axLock a x.cause s
  else
    let s := s.modAx a fun x =>
      { x with st := .cooldown, backoffDone := false,
               retries := if x.counted && decide (x.retries.val < 15) then x.retries + 1 else x.retries }
    if s.feedEn (4 + a.val) && s.feedActive then s else axOff a s

def pathDischarged (x : PathRef) (s : State) : State :=
  if s.pathState x == .tripped then
    match x with
    | .port p => pathCool p s
    | .ax a => axCool a s
  else s

def execPathDischarged (x : PathRef) (s : State) : Host.Outcome State Fault Refusal := fin (pathDischarged x s)

def backoffDone (x : PathRef) (s : State) : State :=
  if s.pathState x == .cooldown then
    match x with
    | .port p => s.modPp p fun x => { x with backoffDone := true }
    | .ax a => s.modAx a fun x => { x with backoffDone := true }
  else s

def execBackoffExpire (x : PathRef) (s : State) : Host.Outcome State Fault Refusal := fin (backoffDone x s)

def retriesReset (x : PathRef) (s : State) : State :=
  if s.pathState x == .on then
    match x with
    | .port p => s.modPp p fun x => { x with retries := 0 }
    | .ax a => s.modAx a fun x => { x with retries := 0 }
  else s

def execRetryCountReset (x : PathRef) (s : State) : Host.Outcome State Fault Refusal := fin (retriesReset x s)

/-- The write sets UNLOCK (R123). -/
def execPpUnlock (path : Path) (p : PortId) (v : Word) (s : State) : Host.Outcome State Fault Refusal :=
  fin (writeAt path (R.PP_UNLOCK p) (setBit v 0) s)

/-! ### Metering (R128 to R132, R288) -/

def execMeterSample (v i : List Int) (s : State) : Host.Outcome State Fault Refusal := fin (meterSample v i s)
def execSnapshotTaken (s : State) : Host.Outcome State Fault Refusal := fin (snapshotTaken s)
def execMtELoRead (path : Path) (m : MeterId) (s : State) : Host.Outcome State Fault Refusal :=
  fin (readAt path (mtBase m + 0x18) s)
def execMeterTick (s : State) : Host.Outcome State Fault Refusal := fin (meterTick s)

end Sys2Proof.Machine
end

