-- ==== Sys2Proof/Machine/TypeC.lean ====
section
/-! DEFINITION. The Type-C commands (05_typec_attach.md R135 to R158). Timers, terminations and readings are the commands'
operands (log entry 3). -/

namespace Sys2Proof.Machine

def execTcCcChange (p : PortId) (cc1 cc2 : CcTerm) (s : State) : Host.Outcome State Fault Refusal := fin (tcCcChange p cc1 cc2 s)
def execTcDrpToggle (p : PortId) (s : State) : Host.Outcome State Fault Refusal := fin (tcDrpToggle p s)
def execTcCcDebounceExpire (p : PortId) (vbus : Nat) (s : State) : Host.Outcome State Fault Refusal := fin (tcDebounce p vbus s)
def execTcDrpTryExpire (p : PortId) (s : State) : Host.Outcome State Fault Refusal := fin (tcDrpTry p s)
def execTcTryTimeout (p : PortId) (s : State) : Host.Outcome State Fault Refusal := fin (tcTryTimeout p s)
def execTcDrpTryWaitExpire (p : PortId) (s : State) : Host.Outcome State Fault Refusal := fin (tcTryWait p s)
def execTcDetach (p : PortId) (s : State) : Host.Outcome State Fault Refusal := fin (tcDetachRow p s)
def execVbusLate (p : PortId) (s : State) : Host.Outcome State Fault Refusal := fin (tcVbusLate p s)
def execTcErrorRecoveryExpire (p : PortId) (s : State) : Host.Outcome State Fault Refusal := fin (tcRecoveryEnd p s)

/-- The write sets ERR_RECOVERY (R151). -/
def execTcCmdErrRecovery (path : Path) (p : PortId) (v : Word) (s : State) : Host.Outcome State Fault Refusal :=
  fin (writeAt path (R.TC_CMD p) (setBit v 0) s)

/-- The write sets MOIST_TEST (R154). -/
def execTcCmdMoistTest (path : Path) (p : PortId) (v : Word) (s : State) : Host.Outcome State Fault Refusal :=
  fin (writeAt path (R.TC_CMD p) (setBit v 1) s)

def execVconnOc (p : PortId) (s : State) : Host.Outcome State Fault Refusal := fin (vconnOc p s)
def execVconnTotalOc (s : State) : Host.Outcome State Fault Refusal := fin (vconnTotalOc s)

/-- The pins stand 58 V (R459, R152): a higher voltage is damage; 6 V or less is no over-voltage. -/
def execCcOvp (p : PortId) (mv : Nat) (s : State) : Host.Outcome State Fault Refusal :=
  if 58000 < mv then .fault .stressBeyondRating else fin (if 6000 < mv then ccOvp p s else s)

def execCcOvpClear (p : PortId) (s : State) : Host.Outcome State Fault Refusal := fin (ccOvpClear p s)

/-- As CC_OVP, for an SBU pin. -/
def execSbuOvp (p : PortId) (mv : Nat) (s : State) : Host.Outcome State Fault Refusal :=
  if 58000 < mv then .fault .stressBeyondRating else fin (if 6000 < mv then sbuOvp p s else s)

/-- The drivers return, and with them a link that waits for them (R350). -/
def execSbuOvpClear (p : PortId) (s : State) : Host.Outcome State Fault Refusal := fin (cadReturn p (sbuOvpClear p s))

def execMoistTestDue (p : PortId) (s : State) : Host.Outcome State Fault Refusal := fin (moistDue p s)
def execMoistTestDone (p : PortId) (cc1 cc2 sbu1 sbu2 : Nat) (s : State) : Host.Outcome State Fault Refusal :=
  fin (moistDone p cc1 cc2 sbu1 sbu2 s)
def execMassWetClear (s : State) : Host.Outcome State Fault Refusal := fin (massClear s)

/-- The partner presents Rd on exactly one line: an attach (R158). -/
def execDeepCcPoll (p : DPort) (cc1 cc2 : CcTerm) (s : State) : Host.Outcome State Fault Refusal :=
  fin (deepPoll (dport p) ((cc1 == .rd) != (cc2 == .rd)) s)

end Sys2Proof.Machine
end

