-- ==== Sys2Proof/Machine/Pd.lean ====
section
/-! DEFINITION. The PD engine's and the budget manager's commands (06_pd_engine.md R159 to R199). -/

namespace Sys2Proof.Machine

/-! ### Messages received (R159 to R198) -/

def execPdSourceCapsRx (p : PortId) (rev2 epr : Bool) (pdos : List Word) (s : State) : Host.Outcome State Fault Refusal :=
  fin (pdSourceCapsRx p rev2 epr pdos s)
def execPdRequestRx (p : PortId) (rev2 : Bool) (rdo : Word) (s : State) : Host.Outcome State Fault Refusal :=
  fin (pdRequestRx p rev2 rdo s)
def execPdEprRequestRx (p : PortId) (rdo pdo : Word) (s : State) : Host.Outcome State Fault Refusal :=
  fin (pdEprRequestRx p rdo pdo s)
def execPdAcceptRx (p : PortId) (s : State) : Host.Outcome State Fault Refusal := fin (pdAcceptRx p s)
def execPdRejectRx (p : PortId) (s : State) : Host.Outcome State Fault Refusal := fin (pdRejectRx p s)
def execPdWaitRx (p : PortId) (s : State) : Host.Outcome State Fault Refusal := fin (pdWaitRx p s)
def execPdPsRdyRx (p : PortId) (s : State) : Host.Outcome State Fault Refusal := fin (pdPsRdyRx p s)
def execPdSoftResetRx (p : PortId) (s : State) : Host.Outcome State Fault Refusal := fin (pdSoftResetRx p s)
def execPdHardResetRx (p : PortId) (s : State) : Host.Outcome State Fault Refusal := fin (pdHardResetRx p s)
def execPdGetSourceCapRx (p : PortId) (epr : Bool) (s : State) : Host.Outcome State Fault Refusal :=
  fin (pdGetSourceCapRx p epr s)
def execPdGetSinkCapRx (p : PortId) (epr : Bool) (s : State) : Host.Outcome State Fault Refusal :=
  fin (pdGetSinkCapRx p epr s)
def execPdSinkCapsRx (p : PortId) (pdo1 : Word) (s : State) : Host.Outcome State Fault Refusal :=
  fin (pdSinkCapsRx p pdo1 s)
def execPdPrSwapRx (p : PortId) (s : State) : Host.Outcome State Fault Refusal := fin (pdPrSwapRx p s)
def execPdVconnSwapRx (p : PortId) (s : State) : Host.Outcome State Fault Refusal := fin (pdVconnSwapRx p s)
def execPdDrSwapRx (p : PortId) (s : State) : Host.Outcome State Fault Refusal := fin (pdDrSwapRx p s)
def execPdFrSwapRx (p : PortId) (s : State) : Host.Outcome State Fault Refusal := fin (pdFrSwapRx p s)
def execPdEprModeEnterRx (p : PortId) (s : State) : Host.Outcome State Fault Refusal := fin (pdEprModeEnterRx p s)
def execPdEprModeExitRx (p : PortId) (s : State) : Host.Outcome State Fault Refusal := fin (pdEprModeExitRx p s)
def execPdEprKeepaliveRx (p : PortId) (s : State) : Host.Outcome State Fault Refusal := fin (pdEprKeepaliveRx p s)
def execPdAlertRx (p : PortId) (ado : Word) (s : State) : Host.Outcome State Fault Refusal := fin (pdAlertRx p ado s)
def execPdGetStatusRx (p : PortId) (s : State) : Host.Outcome State Fault Refusal := fin (pdGetStatusRx p s)
def execPdGetSourceInfoRx (p : PortId) (s : State) : Host.Outcome State Fault Refusal := fin (pdGetSourceInfoRx p s)
def execPdGetRevisionRx (p : PortId) (s : State) : Host.Outcome State Fault Refusal := fin (pdGetRevisionRx p s)
def execPdGetSrcCapExtRx (p : PortId) (s : State) : Host.Outcome State Fault Refusal := fin (pdGetSrcCapExtRx p s)
def execPdGetSnkCapExtRx (p : PortId) (s : State) : Host.Outcome State Fault Refusal := fin (pdGetSnkCapExtRx p s)
def execPdBistRx (p : PortId) (carrier : Bool) (s : State) : Host.Outcome State Fault Refusal := fin (pdBistRx p carrier s)
def execPdUnsupportedRx (p : PortId) (s : State) : Host.Outcome State Fault Refusal := fin (pdUnsupportedRx p s)
/-- Not_Supported, as for an unsupported message (R161). -/
def execPdUnchunkedExtRx (p : PortId) (s : State) : Host.Outcome State Fault Refusal := fin (pdUnsupportedRx p s)
/-- Discarded, without GoodCRC (R160). -/
def execPdSop2Rx (_p : PortId) (s : State) : Host.Outcome State Fault Refusal := fin s
def execPdIgnoredRx (p : PortId) (s : State) : Host.Outcome State Fault Refusal := fin (pdIgnoredRx p s)
def execPdSvdmRx (p : PortId) (header : Word) (s : State) : Host.Outcome State Fault Refusal := fin (pdSvdmRx p header s)
def execPdResponseRx (p : PortId) (r : PdResponse) (s : State) : Host.Outcome State Fault Refusal :=
  fin (pdResponseRx p r s)
def execPdCableIdentityRx (p : DPort) (vdos : List Word) (s : State) : Host.Outcome State Fault Refusal :=
  fin (pdCableIdentity (dport p) vdos s)

/-! ### Messages sent: GoodCRC, or none -/

/-- GoodCRC of the message at the head; that of the Enter Mode ACK enters the Cadence mode (R346). -/
def execPdGoodcrcRx (p : PortId) (s : State) : Host.Outcome State Fault Refusal :=
  fin (cadSent p (s.port p).pd.tx.head? (pdGoodcrc p s))
def execPdNoGoodcrc (p : PortId) (s : State) : Host.Outcome State Fault Refusal := fin (pdNoGoodcrc p s)

/-! ### Timers (R164 to R196) -/

def execPdSenderResponseTimeout (p : PortId) (s : State) : Host.Outcome State Fault Refusal := fin (pdSenderTimeout p s)
def execPdCableDiscoverRetry (p : PortId) (s : State) : Host.Outcome State Fault Refusal := fin (pdCableRetry p s)
def execPdSendSourceCapRepeat (p : PortId) (s : State) : Host.Outcome State Fault Refusal := fin (pdCapsRepeat p s)
def execPdSrcTransitionExpire (p : PortId) (s : State) : Host.Outcome State Fault Refusal := fin (pdSrcTransition p s)
def execPdTransitionSettled (p : PortId) (s : State) : Host.Outcome State Fault Refusal := fin (pdSettledVolt p s)
def execPdTransitionWindowExpire (p : PortId) (s : State) : Host.Outcome State Fault Refusal := fin (pdWindowExpire p s)
def execPdPsHardResetExpire (p : PortId) (s : State) : Host.Outcome State Fault Refusal := fin (pdPsHardReset p s)
def execPdSrcRecoverExpire (p : PortId) (s : State) : Host.Outcome State Fault Refusal := fin (pdSrcRecover p s)
def execPdEprKeepaliveExpire (p : PortId) (s : State) : Host.Outcome State Fault Refusal := fin (pdKeepaliveLost p s)
def execPdPuKeepaliveDue (s : State) : Host.Outcome State Fault Refusal := fin (puKeepalive s)
def execPdSinkTxExpire (p : PortId) (s : State) : Host.Outcome State Fault Refusal :=
  fin (if (s.port p).pd.sinkTxNG then pdSinkTx p s else s)
def execPdSinkRequestExpire (s : State) : Host.Outcome State Fault Refusal := fin (pdSinkRequestExpire s)
def execPdPsSourceTimeout (p : PortId) (s : State) : Host.Outcome State Fault Refusal := fin (pdPsSourceTimeout p s)
def execPdFrsNomsg (p : PortId) (s : State) : Host.Outcome State Fault Refusal := fin (pdFrsNomsg p s)
def execPdHrstWithheld (s : State) : Host.Outcome State Fault Refusal := fin (pdHrstWithheld s)
def execPdEprExitTimeout (p : PortId) (s : State) : Host.Outcome State Fault Refusal := fin (pdEprExitTimeout p s)

/-- VSNS falls through a level; below 3 V an output-present check has passed (R125), and the path may ramp again. -/
def vbusCross (p : PortId) (l : VbusLevel) (s : State) : State :=
  let s := match l with
    | .below08 | .below3 => s.modPp p fun x => { x with check := false }
    | .belowSafe5V => s
  ppKick p (pdVbusDown p l s)

def execVbusThresholdCross (p : PortId) (l : VbusLevel) (s : State) : Host.Outcome State Fault Refusal :=
  fin (vbusCross p l s)

/-! ### PD_CMD (R199): the write sets the bit its row names -/

def execPdCmdSoftReset (path : Path) (p : PortId) (v : Word) (s : State) : Host.Outcome State Fault Refusal :=
  fin (writeAt path (R.PD_CMD p) (setBit v 0) s)
def execPdCmdHardReset (path : Path) (p : PortId) (v : Word) (s : State) : Host.Outcome State Fault Refusal :=
  fin (writeAt path (R.PD_CMD p) (setBit v 1) s)
def execPdCmdPrSwap (path : Path) (p : PortId) (v : Word) (s : State) : Host.Outcome State Fault Refusal :=
  fin (writeAt path (R.PD_CMD p) (setBit v 2) s)
def execPdCmdVconnSwap (path : Path) (p : PortId) (v : Word) (s : State) : Host.Outcome State Fault Refusal :=
  fin (writeAt path (R.PD_CMD p) (setBit v 3) s)
def execPdCmdSendCaps (path : Path) (p : PortId) (v : Word) (s : State) : Host.Outcome State Fault Refusal :=
  fin (writeAt path (R.PD_CMD p) (setBit v 4) s)
def execPdCmdGetSinkCap (path : Path) (p : PortId) (v : Word) (s : State) : Host.Outcome State Fault Refusal :=
  fin (writeAt path (R.PD_CMD p) (setBit v 5) s)
def execPdCmdEprExit (path : Path) (p : PortId) (v : Word) (s : State) : Host.Outcome State Fault Refusal :=
  fin (writeAt path (R.PD_CMD p) (setBit v 6) s)

/-! ### The budget manager (R184, R189, R190) -/

def execBmRecompute (vinAvg : Nat) (s : State) : Host.Outcome State Fault Refusal := fin (bmTick vinAvg s)
def execRenegTimeout (p : PortId) (s : State) : Host.Outcome State Fault Refusal := fin (bmRenegTimeout p s)
def execBmRaiseDelayExpire (s : State) : Host.Outcome State Fault Refusal := fin (bmRaise s)

end Sys2Proof.Machine
end

