-- ==== Sys2Proof/Machine/Pmbus.lean ====
section
/-! DEFINITION. The PMBus commands (07_pmbus_link.md R200 to R214): the end of a transaction, repeats and time limits, alert
service, the stuck bus and software transactions. -/

namespace Sys2Proof.Machine

/-! ### Transactions (R200, R204) -/

def execPmbTransactionDone (ack : PmbAck) (data : BitVec 16) (s : State) : Host.Outcome State Fault Refusal :=
  fin (pmbEnd ack data s)

/-- The command is confirmed by READ_VOUT, read again every 1 ms. -/
def Txn.readsVout (t : Txn) : Bool := t.phase == .confirm && t.cmd == .opOn

/-- The command is confirmed by OFF. -/
def Txn.readsOff (t : Txn) : Bool := t.phase == .confirm && t.cmd == .opOff

/-- The first of the delayed commands of a kind goes back to the queue. -/
def pmbDue (sel : Txn → Bool) (s : State) : State :=
  match s.pmb.delayed.find? sel with
  | some t => pmbIssue t (s.modPmb fun p => { p with delayed := p.delayed.erase t })
  | none => s

/-- The 100 µs of a repeat or a re-read have passed (R204). -/
def execPmbRetryDue (s : State) : Host.Outcome State Fault Refusal := fin (pmbDue (fun t => !t.readsVout) s)

/-- The 1 ms of a READ_VOUT re-read has passed (R204). -/
def execPmbVoutRetryDue (s : State) : Host.Outcome State Fault Refusal := fin (pmbDue Txn.readsVout s)

/-- The command acknowledged first. -/
def pmbOldest : List Txn → Option Txn
  | [] => none
  | t :: l =>
    match pmbOldest l with
    | some x => if x.since < t.since then some x else some t
    | none => some t

/-- The time for the re-reads of the command acknowledged first has ended: it fails, unless a read of it is queued or on the
wire, which then decides. -/
def pmbExpire (sel : Txn → Bool) (c : TgtCause) (s : State) : State :=
  match pmbOldest ((s.pmb.delayed ++ s.pmb.queue ++ s.pmb.wire.toList).filter fun t => sel t && !t.late) with
  | none => s
  | some t =>
    if s.pmb.delayed.contains t then pmbFail t c (s.modPmb fun p => { p with delayed := p.delayed.erase t })
    else
      let mark (x : Txn) : Txn := if x = t then { x with late := true } else x
      s.modPmb fun p => { p with queue := p.queue.map mark, wire := p.wire.map mark }

/-- TON_MAX with READ_VOUT still out of band (R204). -/
def execPmbTonMaxExpire (s : State) : Host.Outcome State Fault Refusal := fin (pmbExpire Txn.readsVout .vout s)

/-- 1 ms after OPERATION 0x00 with OFF still 0 (R204). -/
def execPmbOffConfirmTimeout (s : State) : Host.Outcome State Fault Refusal := fin (pmbExpire Txn.readsOff .status s)

/-- A stretched transaction is abandoned: a missing acknowledgement with cause TIMEOUT (R200). -/
def execPmbStretchTimeout (s : State) : Host.Outcome State Fault Refusal := fin (pmbEnd .stretched 0 s)

/-- A write of PMB_VERIFY (R207). -/
def execPmbVerifyWrite (path : Path) (v : Word) (s : State) : Host.Outcome State Fault Refusal :=
  fin (writeAt path R.PMB_VERIFY v s)

/-! ### Alerts (R211) -/

/-- Alert service runs. -/
def State.alertOn (s : State) : Bool := s.glb.levelSet && s.rdB F.PMB_CFG_ALERT_EN && !s.pmb.stuck

/-- One alert service: during a storm the targets are polled instead. -/
def pmbAlert (addr : BitVec 7) (pecOk : Bool) (ack : PmbAck) (status : BitVec 16) (s : State) : State :=
  if !s.alertOn then s
  else
    let s := s.modPmb fun p => { p with alertLow := true }
    if s.pmb.storms.isEmpty then alertServe addr pecOk ack status s else alertRound s

def execPmbAlert (addr : BitVec 7) (pecOk : Bool) (ack : PmbAck) (status : BitVec 16) (s : State) :
    Host.Outcome State Fault Refusal := fin (pmbAlert addr pecOk ack status s)

/-- 10 ms later: a line that is still low is served again, by a round of polls during a storm and otherwise by the alert
that follows. -/
def pmbAlertAgain (low : Bool) (s : State) : State :=
  let s := s.modPmb fun p => { p with alertLow := low }
  if low && s.alertOn && !s.pmb.storms.isEmpty then alertRound s else s

def execPmbAlertRepeat (stillLow : Bool) (s : State) : Host.Outcome State Fault Refusal := fin (pmbAlertAgain stillLow s)

/-- The second in which an address is ignored ends. -/
def pmbStormEnd (addr : BitVec 7) (s : State) : State :=
  if s.pmb.storms.contains addr then
    s.modPmb fun p =>
      { p with storms := p.storms.filter (· ≠ addr), responders := p.responders.filter fun e => e.1 ≠ addr }
  else s

def execPmbAlertStormExpire (addr : BitVec 7) (s : State) : Host.Outcome State Fault Refusal := fin (pmbStormEnd addr s)

/-! ### The stuck bus (R213) and software transactions (R214) -/

def execPmbBusStuck (s : State) : Host.Outcome State Fault Refusal := fin (pmbBusHeld s)

/-- Nine clocks and a STOP; what they free is told by PMB_STUCK_CLEAR. -/
def execPmbBusRecoveryDue (s : State) : Host.Outcome State Fault Refusal := fin s

def execPmbStuckClear (s : State) : Host.Outcome State Fault Refusal := fin (pmbBusFree s)

/-- The write sets GO. -/
def execPmbSwGo (path : Path) (v : Word) (s : State) : Host.Outcome State Fault Refusal :=
  fin (writeAt path R.PMB_SW_CTRL (setBit v 20) s)

end Sys2Proof.Machine
end

