-- ==== Sys2Proof/Machine/Usb.lean ====
section
/-! DEFINITION. The hub's USB commands (08_usb_hub.md R215 to R246; 12_time_bases.md R314): requests, the upstream bus, the
downstream ports, link power management and SOF. -/

namespace Sys2Proof.Machine

/-! ### Device requests (R215, R216, R220, R224, R237, R243, R247) -/

def execUsbGetDescriptor (dtype index : Byte) (len : Nat) (s : State) : Host.Outcome State Fault Refusal :=
  fin (getDescriptor dtype.toNat index.toNat len s)
def execUsbSetAddress (addr : BitVec 7) (s : State) : Host.Outcome State Fault Refusal := fin (setAddress addr s)
def execUsbSetConfiguration (cfg : Byte) (s : State) : Host.Outcome State Fault Refusal :=
  fin (setConfiguration cfg.toNat s)
def execUsbSetInterface (alt : Byte) (s : State) : Host.Outcome State Fault Refusal := fin (setInterface alt.toNat s)
def execUsbGetStatus (s : State) : Host.Outcome State Fault Refusal := fin (getStatus s)
def execUsbDeviceFeature (set : Bool) (s : State) : Host.Outcome State Fault Refusal := fin (deviceFeature set s)
def execHubGetHubStatus (s : State) : Host.Outcome State Fault Refusal := fin (getHubStatus s)
def execHubGetPortStatus (port : Nat) (s : State) : Host.Outcome State Fault Refusal := fin (getPortStatus port s)
def execHubHubFeature (set : Bool) (feature : Nat) (s : State) : Host.Outcome State Fault Refusal :=
  fin (hubFeature set feature s)
/-- A hub class request that the hub does not support. -/
def execHubClassStall (_request : Byte) (s : State) : Host.Outcome State Fault Refusal := fin (classStall s)

/-! ### Port requests (R220 to R245) -/

def execPortResetRequest (port : Nat) (s : State) : Host.Outcome State Fault Refusal := fin (portReset port s)
def execPortResetDone (port : Nat) (speed : UsbSpeed) (s : State) : Host.Outcome State Fault Refusal :=
  fin (portResetDone port speed s)
def execPortSuspendRequest (port : Nat) (s : State) : Host.Outcome State Fault Refusal := fin (portSuspend port s)
def execPortResumeRequest (port : Nat) (s : State) : Host.Outcome State Fault Refusal := fin (portResume port s)
def execPortResumeDone (port : Nat) (s : State) : Host.Outcome State Fault Refusal := fin (portResumeDone port s)
def execPortPowerFeature (set : Bool) (port : Nat) (s : State) : Host.Outcome State Fault Refusal :=
  fin (portPowerFeature set port s)
def execPortEnableClear (port : Nat) (s : State) : Host.Outcome State Fault Refusal := fin (portEnableClear port s)
def execPortTestRequest (port : Nat) (selector : Byte) (s : State) : Host.Outcome State Fault Refusal :=
  fin (portTest port selector.toNat s)
/-- PORT_ENABLE or PORT_INDICATOR set, or a port that does not exist (R220). -/
def execPortFeatureStall (_port _feature : Nat) (s : State) : Host.Outcome State Fault Refusal := fin (classStall s)
def execPortChangeClear (port feature : Nat) (s : State) : Host.Outcome State Fault Refusal :=
  fin (portChangeClear port feature s)
def execPortL1Request (port : Nat) (besl : BitVec 4) (rwe : Bool) (dev : BitVec 7) (ans : LpmAnswer)
    (s : State) : Host.Outcome State Fault Refusal :=
  fin (portL1 port besl.toNat rwe dev.toNat ans s)
def execPortL1Clear (port : Nat) (s : State) : Host.Outcome State Fault Refusal := fin (portL1Clear port s)

/-! ### Downstream ports (R228, R229, R231, R235, R241) -/

/-- Speed `none` is no pull-up, so nothing is detected. -/
def execPortConnectDetect (p : DPort) (speed : UsbSpeed) (s : State) : Host.Outcome State Fault Refusal :=
  fin (match speed with
    | .none => s
    | _ => portConnect (dport p) s)
def execPortDisconnectDetect (p : DPort) (s : State) : Host.Outcome State Fault Refusal := fin (portDisconnect (dport p) s)
def execPortBabble (p : DPort) (s : State) : Host.Outcome State Fault Refusal := fin (portBabble (dport p) s)
def execRemoteWakeK (p : DPort) (s : State) : Host.Outcome State Fault Refusal := fin (remoteK (dport p) s)
def execRemoteWakeEvent (s : State) : Host.Outcome State Fault Refusal := fin (remoteEvent s)
def execPortL1DeviceExit (p : DPort) (s : State) : Host.Outcome State Fault Refusal := fin (portL1DeviceExit (dport p) s)

/-! ### The upstream bus (R70, R233, R234, R238, R239, R242, R244, R314) -/

def execUpstreamConnect (s : State) : Host.Outcome State Fault Refusal := fin (hubConnect s)
def execHubConnectWrite (path : Path) (v : Word) (s : State) : Host.Outcome State Fault Refusal :=
  fin (writeAt path R.HUB_CONNECT v s)
/-- The write sets DISCONNECT. -/
def execHubConnectDisconnect (path : Path) (v : Word) (s : State) : Host.Outcome State Fault Refusal :=
  fin (writeAt path R.HUB_CONNECT (setBit v 1) s)
def execConnectReevaluate (s : State) : Host.Outcome State Fault Refusal := fin (hubConnect s)
def execUpstreamBusReset (hs : Bool) (s : State) : Host.Outcome State Fault Refusal := fin (busReset hs s)
def execUpstreamDetach (s : State) : Host.Outcome State Fault Refusal := fin (if s.coreUp then hubDetach s else s)
def execGlobalSuspend (s : State) : Host.Outcome State Fault Refusal := fin (globalSuspend s)
def execHostResume (s : State) : Host.Outcome State Fault Refusal := fin (hostResume s)
def execLpmToken (linkState : BitVec 4) (rwe : Bool) (s : State) : Host.Outcome State Fault Refusal :=
  fin (lpmToken linkState.toNat rwe s)
def execL1Resume (s : State) : Host.Outcome State Fault Refusal := fin (l1Resume s)
def execL1RemoteWake (s : State) : Host.Outcome State Fault Refusal := fin (l1Remote s)
def execSofReceived (frame : BitVec 11) (s : State) : Host.Outcome State Fault Refusal := fin (sofRx frame s)
def execSofMissed (s : State) : Host.Outcome State Fault Refusal := fin (sofMissed s)

end Sys2Proof.Machine
end

