-- ==== Sys2Proof/Machine/Translators.lean ====
section
/-! DEFINITION. The transaction translators' commands (09_transaction_translators.md R252 to R263). -/

namespace Sys2Proof.Machine

/-! ### Split transactions (R253, R255, R256, R257) -/

def execTtStartSplit (p : DPort) (ty : NpType) (dirIn : Bool) (addr : BitVec 7) (ep : BitVec 4) (data : List Byte) (crcOk : Bool)
    (s : State) : Host.Outcome State Fault Refusal :=
  fin (usbReq (ttStart (dport p) ty dirIn addr ep data crcOk) s)
def execTtCompleteSplit (p : DPort) (_ty : NpType) (dirIn : Bool) (addr : BitVec 7) (ep : BitVec 4)
    (s : State) : Host.Outcome State Fault Refusal :=
  fin (usbReq (ttComplete (dport p) dirIn addr ep) s)
def execTtPeriodicStartSplit (p : DPort) (iso dirIn : Bool) (addr : BitVec 7) (ep : BitVec 4) (data : List Byte)
    (s : State) : Host.Outcome State Fault Refusal :=
  fin (usbReq (ttPerStart (dport p) iso dirIn addr ep data) s)
def execTtPeriodicCompleteSplit (p : DPort) (dirIn : Bool) (addr : BitVec 7) (ep : BitVec 4) (last : Bool)
    (s : State) : Host.Outcome State Fault Refusal :=
  fin (usbReq (ttPerComplete (dport p) dirIn addr ep last) s)

/-! ### The full-speed side (R252, R254, R255, R257) -/

def execTtFrameStart (p : DPort) (s : State) : Host.Outcome State Fault Refusal := fin (ttFrame (dport p) s)
def execTtTransactionEnd (p : DPort) (r : XactResult) (data1 : Bool) (data : List Byte)
    (s : State) : Host.Outcome State Fault Refusal :=
  fin (ttEnd (dport p) r data1 data s)
def execTtRecordExpire (p : DPort) (k : Fin 16) (s : State) : Host.Outcome State Fault Refusal :=
  fin (ttExpire (dport p) k.val s)
def execTtStale (p : DPort) (k : Fin 4) (s : State) : Host.Outcome State Fault Refusal := fin (ttStale (dport p) k s)

/-! ### Hub class requests (R261, R262) and HP_TT_CMD (R263) -/

def execTtClearTtBuffer (ttPort : Nat) (wValue : BitVec 16) (s : State) : Host.Outcome State Fault Refusal :=
  fin (ttClearBuffer ttPort wValue s)
def execTtResetTt (ttPort : Nat) (s : State) : Host.Outcome State Fault Refusal := fin (ttResetReq ttPort s)
def execTtStopTt (ttPort : Nat) (s : State) : Host.Outcome State Fault Refusal := fin (ttStopReq ttPort s)
def execTtGetTtState (ttPort len : Nat) (s : State) : Host.Outcome State Fault Refusal := fin (ttGetState ttPort len s)
/-- The write sets RESET. -/
def execHpTtCmdReset (path : Path) (p : DPort) (v : Word) (s : State) : Host.Outcome State Fault Refusal :=
  fin (writeAt path (R.HP_TT_CMD (dport p)) (setBit v 0) s)
/-- The write sets CLEAR_NP. -/
def execHpTtCmdClearNp (path : Path) (p : DPort) (v : Word) (s : State) : Host.Outcome State Fault Refusal :=
  fin (writeAt path (R.HP_TT_CMD (dport p)) (setBit v 1) s)

end Sys2Proof.Machine
end

