-- ==== Sys2Proof/Machine/EfnReq.lean ====
section
/-! DEFINITION. Register access over the embedded function: the vendor requests of EP0 (10_embedded_function.md R275 to R279,
R284) and the batches of EP1 (R280 to R284). -/

namespace Sys2Proof.Machine

/-! ### Words read (R275, R279, R297) -/

/-- The store address of the first poisoned word of the entry that a pop would take. -/
def State.headPoison (s : State) : Option Nat :=
  match s.evq.held with
  | m :: _ =>
    if (List.range 4).any fun k => eccClass (s.cell (m.addr / 4 + k)) == .uncorrectable then
      some (firstPoison s (m.addr / 4) 4)
    else none
  | [] => none

/-- A vendor request pops a poisoned entry: a capture with requester 0, and the entry is gone (R279). -/
def popPoisoned (a : Nat) (s : State) : State :=
  evqDropOldest (raiseFault { src := .poisonRegUsb, addr := 0x100000 + a, req := 0, acc := 1 } s)

/-- How a run of reads ends: with its words, at a poisoned word, or at a pop that waits. -/
inductive ReadEnd where
  | words (ws : List Word)
  | poisoned
  | waits (got : List Word) (addr : Nat)

/-- Reads `n` words upward on the USB path, one after another (R275, R422). -/
def readRun : Nat → Nat → List Word → State → ReadEnd × State
  | 0, _, got, s => (.words got.reverse, s)
  | n + 1, a, got, s =>
    match (if a = R.EVQ_POP then s.headPoison else none) with
    | some x => (.poisoned, popPoisoned x s)
    | none =>
      let r := regRead .usb a s
      match r.1 with
      | none => (.waits got.reverse a, r.2)
      | some (_, true) => (.poisoned, r.2)
      | some (w, false) => readRun n (a + 4) (w :: got) r.2

/-- Every one of `n` registers is within reach of the USB path. -/
def State.reachRun (s : State) (a n : Nat) : Bool := (List.range n).all fun k => s.reaches .usb (a + 4 * k)

/-! ### Vendor requests (R275 to R279) -/

/-- A vendor request is stalled. -/
def vendorStall (s : State) : State := answer .stall (s.bump F.EFN_ERRCNT_EP0_STALL)

/-- The address of a vendor request, when R275's fields are as they must be. -/
def vendorAddr (v ix : BitVec 16) : Option Nat :=
  if v.toNat % 4 = 0 ∧ ix.toNat < 256 then some (ix.toNat * 65536 + v.toNat) else none

/-- A batch partly received, or executing, holds every register request of EP0 (R284). -/
def State.batchHolds (s : State) : Bool := s.efn.batch == .receiving || s.efn.batch == .executing

/-- A request is held: its data or status stage is answered NAK (R278). -/
def vendorHold (code : Byte) (a len : Nat) (data : List Byte) (s : State) : State :=
  answer .nak (s.modEfn fun e => { e with held := some (code, a, len, data) })

/-- 0x40: words read from consecutive addresses. -/
def vendorRead (a len : Nat) (s : State) : State :=
  let r := readRun (len / 4) a [] s
  match r.1 with
  | .words ws => answer (.data (wordsBytes ws) true true) r.2
  | .poisoned => vendorStall r.2
  | .waits got x => vendorHold 0x40 x len (wordsBytes got) r.2

/-- Words written upward, in order. -/
def writeRun (a : Nat) : List Word → State → State
  | [], s => s
  | w :: l, s => writeRun (a + 4) l (writeAt .usb a w s)

/-- The status stage follows the last write, unless a write has reset the function. -/
def vendorAck (s : State) : State := if s.efnUp then answer .ack s else s

/-- Pops up to `n` more entries; a poisoned one stalls the request (R277, R279). -/
def popRun : Nat → List Word → State → Option (List Word) × State
  | 0, got, s => (some got, s)
  | n + 1, got, s =>
    match s.headPoison with
    | some x => (none, popPoisoned x s)
    | none =>
      let r := evqTake s
      match r.1 with
      | some ws => popRun n (got ++ ws) (latchPop .usb ws r.2)
      | none => (some got, s)

/-- 0x42: entries until the length is filled or the queue is empty; only the first pop can block. -/
def vendorPop (len : Nat) (s : State) : State :=
  if s.evq.held.isEmpty then
    let r := evqPopRead .usb s
    match r.1 with
    | some ws => answer (.data (wordsBytes ws) true true) r.2
    | none => vendorHold 0x42 R.EVQ_POP len [] r.2
  else
    let r := popRun (len / 16) [] s
    match r.1 with
    | some ws => answer (.data (wordsBytes ws) true true) r.2
    | none => vendorStall r.2

/-- A request that keeps R275's rules, once nothing holds it. -/
def vendorDo (code : Byte) (a len : Nat) (data : List Byte) (s : State) : State :=
  match code with
  | 0x40 => vendorRead a len s
  | 0x41 => vendorAck (writeRun a (bytesWords (len / 4) data) s)
  | 0x42 => vendorPop len s
  | _ => vendorAck (regKeyedWrite .usb a (BitVec.ofNat 32 (leAt data 4 4)) s)

/-- The words a request touches: 0x43 one, 0x42 the pop. -/
def vendorWords (code : Byte) (len : Nat) : Nat :=
  match code with
  | 0x40 | 0x41 => len / 4
  | _ => 1

/-- The request is held now. -/
def State.vendorHeld (s : State) (code : Byte) (a len : Nat) : Bool :=
  s.batchHolds || !s.reachRun a (vendorWords code len)

/-- A vendor request that keeps R275's rules (R284). -/
def vendorGo (code : Byte) (a len : Nat) (data : List Byte) (s : State) : State :=
  if s.vendorHeld code a len then vendorHold code a len data s else vendorDo code a len data s

/-- A vendor request: SETUP, R275's rules, then the access. -/
def vendorReq (code : Byte) (v ix : BitVec 16) (len : Nat) (data : List Byte) (ok : Nat → Bool) (s : State) : State :=
  if !s.efnUp then s
  else
    let s := leaveIdle (setup s)
    match vendorAddr v ix with
    | some a => if ok a then vendorGo code a len data s else vendorStall s
    | none => vendorStall s

/-- 4 to 64 bytes, whole words. -/
def wordLen (len : Nat) : Bool := decide (4 ≤ len ∧ len ≤ 64 ∧ len % 4 = 0)

/-- What held a request has gone (R278). -/
def efnResume (s : State) : State :=
  match s.efn.held with
  | some (code, a, len, data) =>
    if s.usbP.popWait || s.vendorHeld code a len || !s.efnUp then s
    else vendorDo code a len data (s.modEfn fun e => { e with held := none })
  | none => s

/-! ### Batches: form and checks (R280, R281) -/

/-- The extra words of an operation. -/
def batchExtra (op arg : Nat) : Nat :=
  match op with
  | 3 => if 1 ≤ arg ∧ arg ≤ 64 then arg else 0
  | 4 => 1
  | 5 => 2
  | 6 => 1
  | _ => 0

/-- The most response words of an operation. -/
def batchWords (op arg : Nat) : Nat :=
  match op with
  | 1 => arg
  | 5 => 1
  | 8 => 4 * arg
  | _ => 0

/-- OP known, ARG in range, ADDR aligned, and that of EVQ_POP for 0x08. -/
def batchCmdOk (op addr arg : Nat) : Bool :=
  addr % 4 == 0 && match op with
    | 1 | 3 => decide (1 ≤ arg ∧ arg ≤ 64)
    | 2 | 4 | 6 => true
    | 5 | 7 => decide (1 ≤ arg ∧ arg ≤ 100000)
    | 8 => decide (1 ≤ arg ∧ arg ≤ 16) && addr == R.EVQ_POP
    | _ => false

/-- Checks the commands from `off` on: the count found, or the index of the first that fails. `room` is what the response may
still hold. -/
def batchScan (b : List Byte) (room : Nat) : Nat → Nat → Nat → Nat → Except Nat Nat
  | 0, k, _, _ => .error k
  | f + 1, k, off, used =>
    if b.length ≤ off then .ok k
    else
      let op := leAt b off 1
      let arg := leAt b (off + 4) 4
      let next := off + 8 + 4 * batchExtra op arg
      let used := used + 4 + 4 * batchWords op arg
      if b.length < next ∨ !batchCmdOk op (leAt b (off + 1) 3) arg ∨ room < used then .error k
      else batchScan b room f (k + 1) next used

/-- The whole batch before it runs (R281): the index that fails, 0xFF for the header. -/
def batchCheck (b : List Byte) (room : Nat) : Option Byte :=
  match batchScan b room 600 0 8 8 with
  | .error k => some (BitVec.ofNat 8 k)
  | .ok n => if n = leAt b 2 1 then none else some 0xFF

/-- The header of an EP1 IN message (R283). -/
def ep1Head (kind status : Nat) (tag : List Byte) (len count : Nat) (first : Byte) : List Byte :=
  [BitVec.ofNat 8 kind, BitVec.ofNat 8 status] ++ tag ++ leBytes 2 len ++ [BitVec.ofNat 8 count, first]

/-- The response MALFORMED. -/
def malformed (tag : List Byte) (first : Byte) (s : State) : State :=
  let s := (efnEvt 4 (s.bump F.EFN_ERRCNT_MALFORMED)).modEfn fun e => { e with batch := .responseUnread }
  (epQueueIn 2 (ep1Head 1 2 tag 8 0 first) s).2

/-- What a response may hold: the lesser of 4096 bytes and EP1 IN. -/
def State.respRoom (s : State) : Nat := min 4096 (s.epSize 2)

/-- EP1 OUT holds a batch (R281): it starts, or it is answered MALFORMED. It waits while EP1 IN has no room for the answer. -/
def batchReceived (s : State) : State :=
  if s.efn.batch != .receiving || s.epFree 2 < 8 then s
  else
    let r := batchExtent s
    let tag := (r.1.2 ++ [0, 0]).take 2
    match r.1.1 with
    | .partly => s
    | .bad n _ => efnResume (malformed tag 0xFF (epTakeOut 1 n r.2))
    | .whole n =>
      let b := epPeek 1 0 n r.2
      let s := epTakeOut 1 n b.2
      match batchCheck b.1.1 s.respRoom with
      | some k => efnResume (malformed tag k s)
      | none => s.modEfn fun e =>
        { e with batch := .executing, bytes := b.1.1, index := 0, off := 8, resp := [], firstErr := 0xFF,
                 skipping := bitOf (BitVec.ofNat 32 (leAt b.1.1 3 1)) 0, executed := 0, discardResp := false }

/-! ### Batches: execution (R280, R282, R283) -/

/-- OP, ADDR and ARG of the next command. -/
def Efn.op (e : Efn) : Nat := leAt e.bytes e.off 1
def Efn.addr24 (e : Efn) : Nat := leAt e.bytes (e.off + 1) 3
def Efn.arg (e : Efn) : Nat := leAt e.bytes (e.off + 4) 4

/-- Extra word `k` of the next command. -/
def Efn.extra (e : Efn) (k : Nat) : Word := BitVec.ofNat 32 (leAt e.bytes (e.off + 8 + 4 * k) 4)

/-- Every command of the batch has completed. -/
def Efn.batchOver (e : Efn) : Bool := decide (leAt e.bytes 2 1 ≤ e.index)

/-- The response of one command. -/
def cmdResp (status op : Nat) (ws : List Word) : List Byte :=
  [BitVec.ofNat 8 status, BitVec.ofNat 8 op] ++ leBytes 2 ws.length ++ wordsBytes ws

/-- Moves past the next command, with its response. -/
def Efn.pass (e : Efn) (status : Nat) (ws : List Word) : Efn :=
  { e with resp := e.resp ++ cmdResp status e.op ws, index := e.index + 1, off := e.off + 8 + 4 * batchExtra e.op e.arg }

/-- The rest of the batch completes SKIPPED. -/
def Efn.skipRest : Nat → Efn → Efn
  | 0, e => e
  | n + 1, e => if e.batchOver then e else Efn.skipRest n (e.pass 6 [])

/-- A command completes; with STOP_ON_ERR a failure skips the rest (R282). -/
def Efn.finish (status : Nat) (ws : List Word) (e : Efn) : Efn :=
  let k := BitVec.ofNat 8 e.index
  let e := { e.pass status ws with executed := e.executed + 1 }
  if status = 0 then e
  else
    let e := { e with firstErr := if e.firstErr = 0xFF then k else e.firstErr }
    if e.skipping then e.skipRest 256 else e

/-- The command of the executing batch completes; a write that has reset the hub has ended the batch with it. -/
def batchEnd (status : Nat) (ws : List Word) (s : State) : State :=
  if s.efn.batch == .executing then s.modEfn (Efn.finish status ws) else s

/-- The words the next command reads. -/
def Efn.reads (e : Efn) : Nat :=
  match e.op with
  | 1 => e.arg
  | 4 | 5 => 1
  | _ => 0

/-- The registers the next command touches are within reach (R278). -/
def State.batchReach (s : State) : Bool :=
  let e := s.efn
  match e.op with
  | 1 | 3 => s.reachRun e.addr24 e.arg
  | 7 => true
  | _ => s.reachRun e.addr24 1

/-- The next command reads EVQ_POP, which blocks (R277). -/
def State.batchPopWaits (s : State) : Bool :=
  let e := s.efn
  s.evq.held.isEmpty && s.popBlocks && decide (e.addr24 ≤ R.EVQ_POP ∧ R.EVQ_POP < e.addr24 + 4 * e.reads)

/-- The next command is operation `op` and nothing holds it. -/
def State.batchAt (s : State) (op : Nat) : Bool :=
  s.coreUp && s.efn.batch == .executing && !s.efn.batchOver && s.efn.op == op && s.batchReach && !s.batchPopWaits

/-- A word on the USB path, 0 where it is poisoned; and whether it was. -/
def batchGet (a : Nat) (s : State) : (Word × Bool) × State :=
  let r := regRead .usb a s
  match r.1 with
  | some (w, bad) => ((if bad then 0 else w, bad), r.2)
  | none => ((0, false), r.2.modPath .usb fun x => { x with popWait := false })

/-- Words upward, and whether one was poisoned. -/
def batchGets : Nat → Nat → State → (List Word × Bool) × State
  | 0, _, s => (([], false), s)
  | n + 1, a, s =>
    let r := batchGet a s
    let t := batchGets n (a + 4) r.2
    ((r.1.1 :: t.1.1, r.1.2 || t.1.2), t.2)

/-- READ. -/
def batchRead (s : State) : State :=
  if s.batchAt 1 then
    let r := batchGets s.efn.arg s.efn.addr24 s
    batchEnd (if r.1.2 then 3 else 0) r.1.1 r.2
  else s

/-- WRITE. -/
def batchWrite (s : State) : State :=
  if s.batchAt 2 then batchEnd 0 [] (regWrite .usb s.efn.addr24 (BitVec.ofNat 32 s.efn.arg) s) else s

/-- WRITE_N. -/
def batchWriteN (s : State) : State :=
  if s.batchAt 3 then
    batchEnd 0 [] (writeRun s.efn.addr24 ((List.range s.efn.arg).map s.efn.extra) s)
  else s

/-- RMW: nothing comes between its read and its write; a poisoned word is not written. -/
def batchRmw (s : State) : State :=
  if s.batchAt 4 then
    let m : Word := BitVec.ofNat 32 s.efn.arg
    let v := s.efn.extra 0
    let r := batchGet s.efn.addr24 s
    if r.1.2 then batchEnd 3 [] r.2
    else batchEnd 0 [] (regWrite .usb s.efn.addr24 ((r.1.1 &&& ~~~ m) ||| (v &&& m)) r.2)
  else s

/-- One read of a POLL; `timedOut` says its time is over. -/
def batchPoll (timedOut : Bool) (s : State) : State :=
  if s.batchAt 5 then
    let r := batchGet s.efn.addr24 s
    if r.1.2 then batchEnd 3 [r.1.1] r.2
    else if r.1.1 &&& s.efn.extra 0 = s.efn.extra 1 then batchEnd 0 [r.1.1] r.2
    else if timedOut then batchEnd 4 [r.1.1] r.2
    else r.2
  else s

/-- KEYED_WRITE: a wrong KEY writes nothing. -/
def batchKeyed (s : State) : State :=
  if s.batchAt 6 then
    if s.efn.extra 0 = 0x6B1C then batchEnd 0 [] (regKeyedWrite .usb s.efn.addr24 (BitVec.ofNat 32 s.efn.arg) s)
    else batchEnd 5 [] s
  else s

/-- DELAY has passed. -/
def batchDelay (s : State) : State := if s.batchAt 7 then batchEnd 0 [] s else s

/-- Pops up to `n` entries, until the queue is empty. -/
def batchPops : Nat → List Word → State → List Word × State
  | 0, got, s => (got, s)
  | n + 1, got, s =>
    let r := evqTake s
    match r.1 with
    | some ws => batchPops n (got ++ ws) (latchPop .usb ws r.2)
    | none => (got, s)

/-- EVQ_POP: an empty queue that blocks is waited for until `timedOut` (R277). -/
def batchPop (timedOut : Bool) (s : State) : State :=
  if s.batchAt 8 then
    if s.evq.held.isEmpty && s.popBlocks then
      if timedOut then batchEnd 4 [] (latchPop .usb (noEntry true) s) else s
    else
      let t := if s.evq.held.isEmpty then latchPop .usb (noEntry false) s else s
      let r := batchPops s.efn.arg [] t
      batchEnd 0 r.1 r.2
  else s

/-- A wait of the executing batch has reached its bound: TIMEOUT, and no fault (R282). -/
def batchTimeout (s : State) : State := batchEnd 4 [] s

/-- The executing batch waits for a register that is out of reach. -/
def State.batchOutOfReach (s : State) : Bool := s.efn.batch == .executing && !s.efn.batchOver && !s.batchReach

/-- The executing batch waits at EVQ_POP. -/
def State.batchWaitsPop (s : State) : Bool :=
  s.efn.batch == .executing && !s.efn.batchOver && s.batchReach && s.batchPopWaits

/-- The last command has completed: the response goes to EP1 IN, unless a bus reset discards it (R283, R285); what EP0 held
goes on (R284). -/
def batchDone (s : State) : State :=
  let e := s.efn
  if !s.coreUp || e.batch != .executing || !e.batchOver then s
  else if e.discardResp then efnResume (batchIdle (s.modEfn fun e => { e with bytes := [], resp := [], discardResp := false }))
  else
    let m := ep1Head 1 (if e.firstErr = 0xFF then 0 else 1) (e.bytes.take 2) (8 + e.resp.length) e.executed e.firstErr ++ e.resp
    let r := epQueueIn 2 m s
    if r.1 then efnResume (r.2.modEfn fun e => { e with batch := .responseUnread, bytes := [], resp := [] }) else s

/-- An events message (R283): with EVQ_PUSH set and EP1 IN holding no unsent message, up to 31 entries are popped. -/
def evqPush (s : State) : State :=
  if s.epUp 2 && s.rdB F.EFN_CTRL_EVQ_PUSH && (s.ep 2).xfers.isEmpty && !s.evq.held.isEmpty && decide (24 ≤ s.epFree 2) then
    let r := batchPops (min 31 ((s.epFree 2 - 8) / 16)) [] s
    let n := r.1.length / 4
    (epQueueIn 2 (ep1Head 2 0 [0, 0] (8 + 16 * n) n 0xFF ++ wordsBytes r.1) r.2).2
  else s

end Sys2Proof.Machine
end

