-- ==== Sys2Proof/Machine/Efn.lean ====
section
/-! DEFINITION. The embedded function's commands (10_embedded_function.md R266 to R285): vendor requests, standard requests,
endpoints, batches, events messages, carving. -/

namespace Sys2Proof.Machine

/-! ### Requests on EP0 (R266, R275 to R279) -/

def execEfnVendorRead (wValue wIndex : BitVec 16) (len : Nat) (s : State) : Host.Outcome State Fault Refusal :=
  fin (vendorReq 0x40 wValue wIndex len [] (fun _ => wordLen len) s)
/-- A data packet that is not as long as wLength is refused with the rest of R275. -/
def execEfnVendorWrite (wValue wIndex : BitVec 16) (len : Nat) (data : List Byte)
    (s : State) : Host.Outcome State Fault Refusal :=
  fin (vendorReq 0x41 wValue wIndex len data (fun _ => wordLen len && data.length == len) s)
def execEfnVendorEvqRead (wValue wIndex : BitVec 16) (len : Nat) (s : State) : Host.Outcome State Fault Refusal :=
  fin (vendorReq 0x42 wValue wIndex len [] (fun a => a == R.EVQ_POP && wordLen len && len % 16 == 0) s)
def execEfnVendorKeyedWrite (wValue wIndex : BitVec 16) (len : Nat) (data : List Byte)
    (s : State) : Host.Outcome State Fault Refusal :=
  fin (vendorReq 0x43 wValue wIndex len data (fun _ => len == 8 && data.length == 8 && leAt data 0 4 == 0x6B1C) s)

/-- An access still held after 25 ms: the request is stalled, a class C fault (R278); a batch's access completes with TIMEOUT
and no fault (R282). A pop that waits has its own bound (R277). -/
def holdTimeout (s : State) : State :=
  if s.batchOutOfReach then batchTimeout s
  else match s.efn.held with
    | some (code, a, _, _) =>
      if s.usbP.popWait then s
      else
        raiseFault { src := .regTimeout, addr := a, req := 0, acc := if code = 0x41 ∨ code = 0x43 then 2 else 1 }
          (vendorStall (s.modEfn fun e => { e with held := none }))
    | none => s

def execEfnAccessHoldTimeout (s : State) : Host.Outcome State Fault Refusal := fin (holdTimeout s)
def execEfnStandardRequest (bmRequestType bRequest : Byte) (wValue wIndex : BitVec 16) (len : Nat)
    (s : State) : Host.Outcome State Fault Refusal :=
  fin (efnStandard bmRequestType.toNat bRequest.toNat wValue.toNat wIndex.toNat len s)
def execEfnSetHalt (e : Fin 7) (s : State) : Host.Outcome State Fault Refusal :=
  fin (setHalt e (if s.efnUp then setup s else s))
def execEfnClearHalt (e : Fin 7) (s : State) : Host.Outcome State Fault Refusal :=
  fin (clearHalt e (if s.efnUp then setup s else s))

/-! ### Bulk packets (R271 to R274) -/

def execEfnBulkOut (e : Fin 7) (data : List Byte) (s : State) : Host.Outcome State Fault Refusal := fin (bulkOut e data s)
def execEfnPing (e : Fin 7) (s : State) : Host.Outcome State Fault Refusal := fin (bulkPing e s)
def execEfnBulkIn (e : Fin 7) (s : State) : Host.Outcome State Fault Refusal := fin (bulkIn e s)
def execEfnBulkInAck (e : Fin 7) (s : State) : Host.Outcome State Fault Refusal := fin (bulkInAck e s)
def execEfnPortReset (lost : Bool) (s : State) : Host.Outcome State Fault Refusal := fin (efnPortReset lost s)

/-! ### Batches (R280 to R284) -/

def execBatchReceived (s : State) : Host.Outcome State Fault Refusal := fin (batchReceived s)
def execBatchAbort (s : State) : Host.Outcome State Fault Refusal := fin (efnResume (batchAbort s))
def execBatchRead (s : State) : Host.Outcome State Fault Refusal := fin (batchRead s)
def execBatchWrite (s : State) : Host.Outcome State Fault Refusal := fin (batchWrite s)
def execBatchWriteN (s : State) : Host.Outcome State Fault Refusal := fin (batchWriteN s)
def execBatchRmw (s : State) : Host.Outcome State Fault Refusal := fin (batchRmw s)
def execBatchPoll (timedOut : Bool) (s : State) : Host.Outcome State Fault Refusal := fin (batchPoll timedOut s)
def execBatchKeyedWrite (s : State) : Host.Outcome State Fault Refusal := fin (batchKeyed s)
def execBatchDelay (s : State) : Host.Outcome State Fault Refusal := fin (batchDelay s)
def execBatchEvqPop (timedOut : Bool) (s : State) : Host.Outcome State Fault Refusal := fin (batchPop timedOut s)
def execBatchDone (s : State) : Host.Outcome State Fault Refusal := fin (batchDone s)
def execEvqPushMessage (s : State) : Host.Outcome State Fault Refusal := fin (evqPush s)

/-! ### Carving (R269) -/

/-- The write sets APPLY. -/
def execEfnCarveApply (path : Path) (v : Word) (s : State) : Host.Outcome State Fault Refusal :=
  fin (writeAt path R.EFN_CARVE (setBit v 0) s)

end Sys2Proof.Machine
end

