-- ==== Sys2Proof/Machine/I2cReq.lean ====
section
/-! DEFINITION. The management I²C target (17_register_access.md R424 to R429; 15_power_states.md R386, R390): what it
acknowledges, the writes of a transaction at its STOP, the words of a read, and what clock stretching holds. -/

namespace Sys2Proof.Machine

/-- The hub's address, 0x58 + STRAP[1:0] (R424). -/
def State.i2cAddr (s : State) : Nat := 0x58 + s.glb.straps.toNat % 4

/-- The register address `k` words after the one a transaction names. -/
def i2cAt (a k : Nat) : Nat := (a / 4 * 4 + 4 * k) % 2 ^ 24

/-- The I²C wake source is masked and the hub has no other reason to wake (R390). -/
def State.i2cMasked (s : State) : Bool :=
  !bitOf (s.reg R.PWR_WAKE_EN) 1 && match s.pwr.st with
    | .sleep | .deep | .entering => true
    | _ => false

/-- A register that a transaction may name now (R390, R424). -/
def State.i2cTakes (s : State) (a : Nat) : Bool := s.i2cServes a && (aonReg a || !s.i2cMasked)

/-- The register address, once its three bytes have been sent. -/
def i2cReg (bytes : List Byte) : Nat := beAt bytes 0 3

/-- N. -/
def i2cN (bytes : List Byte) : Nat := leAt bytes 3 1

/-- N is from 1 to 16 (R425, R426). -/
def i2cNOk (bytes : List Byte) : Bool := decide (1 ≤ i2cN bytes ∧ i2cN bytes ≤ 16)

/-- Every register the transaction reaches may be named. -/
def State.i2cReach (s : State) (bytes : List Byte) : Bool :=
  (List.range (i2cN bytes)).all fun k => s.i2cTakes (i2cAt (i2cReg bytes) k)

/-- The acknowledgement of byte `k` after the address byte `ab` (R424, R425, R427). -/
def State.i2cAck (s : State) (ab : Byte) (bytes : List Byte) (k : Nat) : Bool :=
  if k < 2 then true
  else if !s.i2cTakes (i2cAt (i2cReg bytes) 0) then false
  else if k = 2 then true
  else if !i2cNOk bytes || !s.i2cReach bytes then false
  else if k < 4 + 4 * i2cN bytes then true
  else decide (k = 4 + 4 * i2cN bytes) && some (pec (ab :: bytes.take k)) == bytes[k]?

/-- The transaction is taken up to its N byte. -/
def State.i2cTaken (s : State) (bytes : List Byte) : Bool := i2cNOk bytes && s.i2cReach bytes

/-- The acknowledgements of a transaction, address byte first. -/
def i2cAcks (l : List Bool) (s : State) : State := s.modI2c fun i => { i with acks := l }

/-- GLB_EVT.I2C_FORMAT and its count. -/
def i2cFormat (s : State) : State := raiseEvt0 R.GLB_EVT 3 (s.bump F.GLB_ERRCNT_FORMAT)

/-- GLB_EVT.I2C_PEC and its count. -/
def i2cBadPec (s : State) : State := raiseEvt0 R.GLB_EVT 2 (s.bump F.GLB_ERRCNT_PEC)

/-- The address match (R390); a hub whose start has failed three times tries again (R401). -/
def i2cMatched (s : State) : State :=
  if s.glb.phase == .x24 && s.pwr.st == .wakeFail then
    ladderRetry ((s.modI2c fun i => { i with matched := true }).modPwr fun x => { x with rc8Run := true })
  else i2cMatch s

/-- A transaction that needs a register out of reach wakes the hub (R386, R390). -/
def i2cWakes (bytes : List Byte) (s : State) : State :=
  if (List.range (i2cN bytes)).all fun k => s.available (i2cAt (i2cReg bytes) k) then s else wakeSourceAt .i2c none s

/-! ### Writes (R425, R427, R428) -/

/-- Writes words upward; the rest is held at the first register that is not available. A write that resets the hub ends the
transaction with the engine. -/
def i2cWriteRun (a : Nat) : List Word → State → State
  | [], s => s
  | w :: l, s =>
    if !s.i2c.matched then s
    else if s.available (i2cAt a 0) then i2cWriteRun (a + 4) l (regWrite .i2c (i2cAt a 0) w s)
    else s.modI2c fun i => { i with heldWrite := some (a, w :: l) }

/-- A write transaction at its STOP: byte count, PEC, then the words in order (R425, R427). -/
def i2cFinish (ab : Byte) (bytes : List Byte) (s : State) : State :=
  let n := i2cN bytes
  let data := bytes.drop 4
  if bytes.length < 4 then i2cFormat s
  else if data.length = 4 * n + 1 then
    if some (pec (ab :: bytes.take (4 + 4 * n))) == bytes[4 + 4 * n]? then
      i2cWriteRun (i2cReg bytes) (bytesWords n data) (i2cWakes bytes s)
    else i2cBadPec s
  else if data.length ≠ 4 * n || s.rdB F.GLB_I2C_CFG_PEC_REQ then i2cFormat s
  else i2cWriteRun (i2cReg bytes) (bytesWords n data) (i2cWakes bytes s)

/-- Earlier writes, or a read, are still held: the address byte is stretched after (R428). -/
def State.i2cBusy (s : State) : Bool := s.i2c.heldWrite.isSome || s.i2c.heldRead.isSome

/-- Nothing of the transaction is taken beyond its address byte (R428). -/
def i2cRefuse (n : Nat) (s : State) : State := i2cAcks (true :: List.replicate n false) s

/-- A write transaction to a 7-bit address; `stopped` says that it ended with a STOP (R429). -/
def i2cWrite (addr : BitVec 7) (bytes : List Byte) (stopped : Bool) (s : State) : State :=
  if !s.aonUp then s
  else if addr.toNat ≠ s.i2cAddr then i2cAcks [false] s
  else
    let s := i2cMatched s
    let ab := BitVec.ofNat 8 (2 * addr.toNat)
    if s.i2cBusy then i2cRefuse bytes.length s
    else
      let s := i2cAcks (true :: (List.range bytes.length).map (s.i2cAck ab bytes)) s
      if bytes.length < 4 then (if stopped then i2cFormat s else s)
      else if !i2cNOk bytes then (if s.i2cTakes (i2cAt (i2cReg bytes) 0) then i2cFormat s else s)
      else if stopped && s.i2cReach bytes then i2cFinish ab bytes s
      else s

/-! ### Reads (R426 to R428) -/

/-- Reads the words of a read, each when its first bit is due; the rest is held where a register is not available or a pop
waits. -/
def i2cReadRun (hdr : List Byte) (nread : Nat) : Nat → Nat → List Byte → Bool → State → State
  | 0, _, got, bad, s => s.modI2c fun i => { i with reply := i2cReply hdr got bad nread }
  | n + 1, a, got, bad, s =>
    let hold : HeldRead := { hdr := hdr, got := got, addr := a, left := n + 1, nread := nread, bad := bad }
    if s.available (i2cAt a 0) then
      let r := regRead .i2c (i2cAt a 0) s
      match r.1 with
      | some (w, p) => i2cReadRun hdr nread n (a + 4) (got ++ wordBytes w) (bad || p) r.2
      | none => r.2.modI2c fun i => { i with heldRead := some hold }
    else s.modI2c fun i => { i with heldRead := some hold }

/-- The words whose first bit is due when the controller reads `nread` bytes. -/
def i2cDue (n nread : Nat) : Nat := min n ((nread + 3) / 4)

/-- A read transaction: the bytes before the repeated START, and the bytes the controller reads (R426). -/
def i2cRead (addr : BitVec 7) (bytes : List Byte) (nread : Nat) (s : State) : State :=
  if !s.aonUp then s
  else if addr.toNat ≠ s.i2cAddr then i2cAcks [false] s
  else
    let s := i2cMatched s
    let ab := BitVec.ofNat 8 (2 * addr.toNat)
    let rb := BitVec.ofNat 8 (2 * addr.toNat + 1)
    if s.i2cBusy then i2cRefuse (bytes.length + 1) s
    else
      let ok := decide (bytes.length = 4) && s.i2cTaken bytes
      let s := i2cAcks (true :: (List.range bytes.length).map (s.i2cAck ab bytes) ++ [ok]) s
      if ok then
        i2cReadRun (ab :: bytes ++ [rb]) nread (i2cDue (i2cN bytes) nread) (i2cReg bytes) [] false (i2cWakes bytes s)
      else if bytes.length = 4 && (i2cNOk bytes || !s.i2cTakes (i2cAt (i2cReg bytes) 0)) then s
      else i2cFormat s

/-! ### What is held (R386, R428, R429) -/

/-- What held a transaction has gone: it goes on. -/
def i2cResume (s : State) : State :=
  let s := match s.i2c.heldWrite with
    | some (a, ws) => i2cWriteRun a ws (s.modI2c fun i => { i with heldWrite := none })
    | none => s
  match s.i2c.heldRead with
  | some h =>
    if s.i2cP.popWait then s
    else i2cReadRun h.hdr h.nread h.left h.addr h.got h.bad (s.modI2c fun i => { i with heldRead := none })
  | none => s

/-- 10 ms of stretching are over (R428): a read goes on with 0xFF and a wrong PEC; a transaction stretched after its address
byte is refused, while the write that held it stays. -/
def i2cTimeout (s : State) : State :=
  match s.i2c.heldRead, s.i2c.heldWrite with
  | some h, _ =>
    if s.i2cP.popWait then s
    else
      let got := h.got ++ List.replicate (4 * h.left) 0xFF
      let s := s.modI2c fun i => { i with heldRead := none, reply := i2cReply h.hdr got true h.nread }
      raiseFault { src := .regTimeout, addr := i2cAt h.addr 0, req := 1, acc := 1 } s
  | none, some _ => raiseAt .regTimeout none (i2cRefuse 1 s)
  | none, none => s

/-- SCL or SDA held for 35 ms: the transaction ends; a held read ends with what it has read (R429). -/
def i2cAbandon (s : State) : State :=
  (s.modI2c fun i => { i with heldRead := none }).modPath .i2c fun x => { x with popWait := false }

end Sys2Proof.Machine
end

