-- ==== Sys2Proof/Machine/Stores.lean ====
section
/-! DEFINITION. The commands of the central store, the event queue's registers and the time bases (11_central_store.md R289 to
R302; 16_faults.md R418, R419; 12_time_bases.md R310 to R321). -/

namespace Sys2Proof.Machine

/-! ### The store (R289, R290, R299 to R302) -/

/-- The window address of a store byte address; an access is of the whole word that holds it. -/
def windowAt (addr : BitVec 19) : Nat := 0x100000 + addr.toNat / 4 * 4

def execStoreWindowRead (path : Path) (addr : BitVec 19) (s : State) : Host.Outcome State Fault Refusal :=
  fin (readAt path (windowAt addr) s)
def execStoreWindowWrite (path : Path) (addr : BitVec 19) (v : Word) (s : State) : Host.Outcome State Fault Refusal :=
  fin (writeAt path (windowAt addr) v s)
def execScrubSlot (s : State) : Host.Outcome State Fault Refusal := fin (if s.scrubs then scrubSlot s else s)
/-- The write sets CLR_LOG. -/
def execStoCmdClrLog (path : Path) (v : Word) (s : State) : Host.Outcome State Fault Refusal :=
  fin (writeAt path R.STO_CMD (setBit v 1) s)
/-- The write sets CLR_CNT. -/
def execStoCmdClrCnt (path : Path) (v : Word) (s : State) : Host.Outcome State Fault Refusal :=
  fin (writeAt path R.STO_CMD (setBit v 0) s)
/-- The write sets VALID. -/
def execStoEcclogClear (path : Path) (k : Fin 16) (v : Word) (s : State) : Host.Outcome State Fault Refusal :=
  fin (writeAt path (R.STO_ECCLOG k.val) (setBit v 31) s)
def execStoFlipArm (path : Path) (v : Word) (s : State) : Host.Outcome State Fault Refusal :=
  fin (writeAt path R.STO_FLIP_C v s)
def execStoRetireWrite (path : Path) (k : Fin 16) (v : Word) (s : State) : Host.Outcome State Fault Refusal :=
  fin (writeAt path (R.STO_RETIRE k.val) v s)

/-! ### The event queue (R418, R419) -/

def execEvqPop (path : Path) (s : State) : Host.Outcome State Fault Refusal := fin (readAt path R.EVQ_POP s)

/-- A blocking pop has waited 20 ms: it ends with TIMEOUT, the batch's like the others (R277, R282, R419). -/
def popTimeout (p : Path) (s : State) : State :=
  if (s.path p).popWait then endPop p (noEntry true) s
  else if p = .usb && s.batchWaitsPop then batchTimeout (latchPop .usb (noEntry true) s)
  else s

def execEvqPopBlockTimeout (path : Path) (s : State) : Host.Outcome State Fault Refusal := fin (popTimeout path s)
/-- The write sets FLUSH. -/
def execEvqCmdFlush (path : Path) (v : Word) (s : State) : Host.Outcome State Fault Refusal :=
  fin (writeAt path R.EVQ_CMD (setBit v 0) s)

/-! ### The time bases (R310, R315, R316, R318 to R321) -/

def execHoldoverExpire (s : State) : Host.Outcome State Fault Refusal := fin (holdoverExpire s)
def execTpulseFire (s : State) : Host.Outcome State Fault Refusal := fin (tpFire s)
def execTpulseEnd (s : State) : Host.Outcome State Fault Refusal := fin (tpEnd s)
def execTpulseInputEdge (rising : Bool) (s : State) : Host.Outcome State Fault Refusal := fin (tpEdge rising s)
/-- The write sets SW_CAP. -/
def execTimSwCap (path : Path) (v : Word) (s : State) : Host.Outcome State Fault Refusal :=
  fin (writeAt path R.TIM_CMD (setBit v 0) s)
def execTimCapStatRead (path : Path) (u : Fin 3) (s : State) : Host.Outcome State Fault Refusal :=
  fin (readAt path (R.TIM_CAP_STAT u.val) s)
def execTimTb0NsRead (path : Path) (s : State) : Host.Outcome State Fault Refusal := fin (readAt path R.TIM_TB0_NS s)
def execTimTb3LoRead (path : Path) (s : State) : Host.Outcome State Fault Refusal := fin (readAt path R.TIM_TB3_LO s)
def execTb3Alarm (s : State) : Host.Outcome State Fault Refusal :=
  fin (if s.alarmDue then wakeSourceAt .alarm none (tb3Alarm s) else s)
def execTbReadvance (s : State) : Host.Outcome State Fault Refusal := fin (tbReadvance s)

end Sys2Proof.Machine
end

