-- ==== Sys2Proof/Machine/Cad.lean ====
section
/-! DEFINITION. The Cadence Link's commands (13_cadence_link.md R322 to R359): discovery, training, frames, synchronization. -/

namespace Sys2Proof.Machine

/-! ### The alternate mode (R322 to R329) -/

def execCadDiscoveryStart (p : DPort) (s : State) : Host.Outcome State Fault Refusal := fin (cadDiscover (dport p) s)
def execCadVdmResponse (p : DPort) (ans : VdmAnswer) (s : State) : Host.Outcome State Fault Refusal :=
  fin (cadResponse (dport p) ans s)
def execCadVdmTimeout (p : DPort) (s : State) : Host.Outcome State Fault Refusal := fin (cadNoResponse (dport p) s)
def execCadVdmBusyRetry (p : DPort) (s : State) : Host.Outcome State Fault Refusal := fin (cadBusyRetry (dport p) s)
def execCadDiscoverIdentityRx (s : State) : Host.Outcome State Fault Refusal := fin (cadIdentity s)
def execCadDiscoverSvidsRx (s : State) : Host.Outcome State Fault Refusal := fin (cadSvids s)
def execCadDiscoverModesRx (s : State) : Host.Outcome State Fault Refusal := fin (cadModes s)
def execCadEnterModeRx (vdo : Word) (s : State) : Host.Outcome State Fault Refusal := fin (cadEnterRx vdo s)
def execCadExitModeRx (p : PortId) (s : State) : Host.Outcome State Fault Refusal := fin (cadExitRx p s)
def execCadAttentionRx (p : DPort) (vdo : Word) (s : State) : Host.Outcome State Fault Refusal :=
  fin (cadAttentionRx (dport p) vdo s)
def execCadAttentionRepeat (s : State) : Host.Outcome State Fault Refusal := fin (cadAttentionAgain s)
def execCadExitModeTimeout (p : DPort) (s : State) : Host.Outcome State Fault Refusal := fin (cadExitTimeout (dport p) s)
/-- The write sets ENTER. -/
def execClCmdEnter (path : Path) (p : PortId) (v : Word) (s : State) : Host.Outcome State Fault Refusal :=
  fin (writeAt path (R.CL_CMD p) (setBit v 0) s)
/-- The write sets RETRAIN. -/
def execClCmdRetrain (path : Path) (p : PortId) (v : Word) (s : State) : Host.Outcome State Fault Refusal :=
  fin (writeAt path (R.CL_CMD p) (setBit v 1) s)

/-! ### Training (R346 to R349) -/

def execCadReceiverLock (p : PortId) (s : State) : Host.Outcome State Fault Refusal := fin (cadLock p s)
def execCadTrainAttemptFail (p : PortId) (s : State) : Host.Outcome State Fault Refusal := fin (cadAttemptFail p s)

/-- The UP frame, on a link of PU that is training. -/
def puLinkUp (s : State) : State :=
  let st := (s.port PU).cl.st
  if s.coreUp && (st == .train || st == .retrain) then cadUp PU s else s

def execCadUpFrameRx (s : State) : Host.Outcome State Fault Refusal := fin (puLinkUp s)
def execCadLossOfLock (p : PortId) (s : State) : Host.Outcome State Fault Refusal := fin (cadLostLock p s)
/-- The ordered set names version 1 or 2. -/
def execCadRetrainSetRx (ver : Fin 2) (s : State) : Host.Outcome State Fault Refusal :=
  fin (cadRetrainRx (if ver = 0 then 1 else 2) s)
def execCadRetrainTimeout (p : PortId) (s : State) : Host.Outcome State Fault Refusal := fin (cadRetrainFail p s)

/-! ### Frames (R331 to R345, R351 to R359) -/

def execCadFrameRx (p : PortId) (codeOk : Bool) (bytes : List Byte) (s : State) : Host.Outcome State Fault Refusal :=
  fin (cadRx p codeOk bytes s)
def execCadSyncRx (p : PortId) (bytes : List Byte) (s : State) : Host.Outcome State Fault Refusal :=
  fin (cadRxOf 1 p bytes s)
def execCadDelayReqRx (p : PortId) (bytes : List Byte) (s : State) : Host.Outcome State Fault Refusal :=
  fin (cadRxOf 2 p bytes s)
def execCadDelayRespRx (p : PortId) (bytes : List Byte) (s : State) : Host.Outcome State Fault Refusal :=
  fin (cadRxOf 3 p bytes s)
def execCadBellRx (p : PortId) (bytes : List Byte) (s : State) : Host.Outcome State Fault Refusal :=
  fin (cadRxOf 0x12 p bytes s)
def execCadEchoRx (p : PortId) (bytes : List Byte) (s : State) : Host.Outcome State Fault Refusal :=
  fin (cadRxOf 0x3F p bytes s)
def execCadFrameTxDone (p : PortId) (s : State) : Host.Outcome State Fault Refusal := fin (cadTxDone p s)
def execCadSyncDue (s : State) : Host.Outcome State Fault Refusal := fin (cadSyncDue s)
def execCadDelayReqDue (s : State) : Host.Outcome State Fault Refusal := fin (cadDelayDue s)
def execCadDelayRespMiss (s : State) : Host.Outcome State Fault Refusal := fin (cadDelayMiss s)
def execCadSyncAbsent (s : State) : Host.Outcome State Fault Refusal := fin (cadNoSync s)
def execPuClXsStatRead (path : Path) (s : State) : Host.Outcome State Fault Refusal := fin (readAt path R.CL_XS_STAT s)

end Sys2Proof.Machine
end

