-- ==== Sys2Proof/Machine/CadQ.lean ====
section
/-! DEFINITION. The launch and receive queues' commands (14_cadence_queues.md R364 to R378). -/

namespace Sys2Proof.Machine

/-- The TAIL and CMD registers of a launch queue; queue 17 is the broadcast queue. -/
def lqTailReg (q : Fin 18) : Nat := match qPort q with
  | some p => R.CL_LQ_TAIL p
  | none => R.CAD_BQ_TAIL
def lqCmdReg (q : Fin 18) : Nat := match qPort q with
  | some p => R.CL_LQ_CMD p
  | none => R.CAD_BQ_CMD

def execCadTailWrite (path : Path) (q : Fin 18) (v : Word) (s : State) : Host.Outcome State Fault Refusal :=
  fin (writeAt path (lqTailReg q) v s)
def execCadDescPrepared (q : Fin 18) (s : State) : Host.Outcome State Fault Refusal := fin (prepareDesc q s)
def execCadLaunchTime (q : Fin 18) (s : State) : Host.Outcome State Fault Refusal := fin (launchHead q s)
def execCadDescComplete (q : Fin 18) (s : State) : Host.Outcome State Fault Refusal := fin (descDone q s)
/-- The write sets RESUME. -/
def execCadQueueResume (path : Path) (q : Fin 18) (v : Word) (s : State) : Host.Outcome State Fault Refusal :=
  fin (writeAt path (lqCmdReg q) (setBit v 0) s)
/-- The write sets FLUSH. -/
def execCadQueueFlush (path : Path) (q : Fin 18) (v : Word) (s : State) : Host.Outcome State Fault Refusal :=
  fin (writeAt path (lqCmdReg q) (setBit v 1) s)
def execCadRxRdWrite (path : Path) (p : PortId) (v : Word) (s : State) : Host.Outcome State Fault Refusal :=
  fin (writeAt path (R.CL_RX_RD p) v s)
def execCadEp2Request (s : State) : Host.Outcome State Fault Refusal := fin (ep2Request s)
def execCadEpRecordAck (ep3 : Bool) (s : State) : Host.Outcome State Fault Refusal :=
  fin (bulkInAck (if ep3 then 5 else 4) s)

end Sys2Proof.Machine
end

