-- ==== Sys2Proof/Machine/Power.lean ====
section
/-! DEFINITION. The power states' commands (15_power_states.md R381 to R403) and the end of the store fill (R26), after which
held accesses go on. -/

namespace Sys2Proof.Machine

/-- Accesses that were held go on, where what they need is there (R278, R386, R428). -/
def resume (s : State) : State := efnResume (i2cResume s)

def execStoreFillDone (s : State) : Host.Outcome State Fault Refusal := fin (resume (fillDone s))
def execIdleEnter (s : State) : Host.Outcome State Fault Refusal := fin (idleEnter s)
def execAutoSleepDue (s : State) : Host.Outcome State Fault Refusal := fin (autoSleep s)
def execAutoDeepDue (s : State) : Host.Outcome State Fault Refusal := fin (autoDeep s)
/-- The write sets DEEP. -/
def execPwrCmdDeep (path : Path) (v : Word) (s : State) : Host.Outcome State Fault Refusal :=
  fin (writeAt path R.PWR_CMD (setBit v 0) s)
/-- The write sets OFF. -/
def execPwrCmdOff (path : Path) (v : Word) (s : State) : Host.Outcome State Fault Refusal :=
  fin (writeAt path R.PWR_CMD (setBit v 1) s)
def execPwrCmdBlocked (s : State) : Host.Outcome State Fault Refusal := fin (cmdBlocked s)
def execPowerEntryDone (s : State) : Host.Outcome State Fault Refusal := fin (resume (entryDone s))

/-- A wake source. A hub whose start has failed three times answers WAKE_N and an I²C match alone (R401). -/
def wakeAny (w : WakeSrc) (p : Option PortId) (s : State) : State :=
  if s.glb.phase == .x24 && s.pwr.st == .wakeFail then
    match w with
    | .wakeN | .i2c => ladderRetry s
    | _ => s
  else wakeSourceAt w p s

def execWakeSource (src : WakeSrc) (port : Option PortId) (s : State) : Host.Outcome State Fault Refusal :=
  fin (wakeAny src port s)
def execWakeDone (badBanks : BitVec 4) (s : State) : Host.Outcome State Fault Refusal := fin (resume (wakeDone badBanks s))
def execWakeAttemptFail (cause : WakeFailCause) (s : State) : Host.Outcome State Fault Refusal := fin (attemptFail cause s)
def execWakeRetryDue (s : State) : Host.Outcome State Fault Refusal :=
  fin (if s.glb.phase == .x24 && s.pwr.retryDue then ladderRetry s else retryDue s)
def execSentinelMessage (p : PortId) (msg : List Byte) (s : State) : Host.Outcome State Fault Refusal :=
  fin (sentinelRx p msg s)
/-- EPR_KeepAlive in SLEEP is answered by the sentinel, without a wake and without a trace in the hub's state (R387). -/
def execSentinelKeepalive (_p : PortId) (s : State) : Host.Outcome State Fault Refusal := fin s
def execI2cAddressMatch (addr : BitVec 7) (s : State) : Host.Outcome State Fault Refusal :=
  fin (if addr.toNat = s.i2cAddr && s.aonUp then i2cMatched s else s)
def execDphyPowerDown (b : Bool) (s : State) : Host.Outcome State Fault Refusal := fin (dphyDown b s)
def execDphyPowerUp (b : Bool) (s : State) : Host.Outcome State Fault Refusal := fin (dphyUp b s)
/-- WAKE_N low for 1 µs in OFF: a cold start with cause OFF_EXIT (R403). -/
def execWakeNOffExit (s : State) : Host.Outcome State Fault Refusal :=
  fin (if s.glb.phase == .off then coldReset 6 s else s)

end Sys2Proof.Machine
end

