-- ==== Sys2Proof/Machine/Fault.lean ====
section
/-! DEFINITION. The fault collector's commands (16_faults.md R404 to R412). -/

namespace Sys2Proof.Machine

/-- FLT_TEMP, in °C (R404). -/
def dieTemp (c : Int) (s : State) : State := s.wr F.FLT_TEMP_TEMP (BitVec.ofInt 8 c).toNat

/-- The die reaches 150 °C; a condition that is present is not raised again. -/
def tempCritAt (c : Int) (s : State) : State :=
  if c < 150 || !s.aonUp then s
  else if s.flt.tempCrit then dieTemp c s
  else raiseAt .tempCrit none ((dieTemp c s).modFlt fun f => { f with tempCrit := true })

/-- The die reaches 135 °C. -/
def tempHighAt (c : Int) (s : State) : State :=
  if c < 135 || !s.aonUp then s
  else if s.flt.tempHigh then dieTemp c s
  else raiseAt .tempHigh none ((dieTemp c s).modFlt fun f => { f with tempHigh := true })

def execTempCrit (celsius : Int) (s : State) : Host.Outcome State Fault Refusal := fin (tempCritAt celsius s)
def execTempHigh (celsius : Int) (s : State) : Host.Outcome State Fault Refusal := fin (tempHighAt celsius s)

/-- A lasting condition ends (R408); once no class A condition is present, a READY feed is selected (R88). -/
def conditionEnd (c : FaultCond) (s : State) : State :=
  feedSelect (s.modFlt fun f => match c with
    | .tempCrit => { f with tempCrit := false }
    | .tempHigh => { f with tempHigh := false }
    | .vinOv => { f with vinOv := false }
    | .x24Stop => { f with x24Stop := false })

def execFaultConditionEnd (c : FaultCond) (s : State) : Host.Outcome State Fault Refusal := fin (conditionEnd c s)
def execFaultNPulseEnd (s : State) : Host.Outcome State Fault Refusal := fin (s.modFlt fun f => { f with pulse := false })
/-- 10 min without a reaction reset: code 5 acts again (R407). -/
def execResetLoopWindowExpire (s : State) : Host.Outcome State Fault Refusal :=
  fin (s.modFlt fun f => { f with resets := [], demoted := false })
/-- REC_HOLD has passed without a class A condition and a feed is ACTIVE (R411). -/
def execRecoveryAutoEnd (s : State) : Host.Outcome State Fault Refusal :=
  fin (if s.flt.recovery && !s.flt.releasing && !s.classA && s.activeFeed.isSome then recoveryEnd s else s)
/-- The write sets END_RECOVERY. -/
def execFltCmdEndRecovery (path : Path) (v : Word) (s : State) : Host.Outcome State Fault Refusal :=
  fin (writeAt path R.FLT_CMD (setBit v 0) s)
def execRecoveryReleaseDue (s : State) : Host.Outcome State Fault Refusal :=
  fin (if s.flt.releasing then releaseNext s else s)
/-- The write sets VALID. -/
def execFltCapClear (path : Path) (v : Word) (s : State) : Host.Outcome State Fault Refusal :=
  fin (writeAt path R.FLT_CAP_INFO (setBit v 31) s)

end Sys2Proof.Machine
end

