-- ==== Sys2Proof/Machine/Regs.lean ====
section
/-! DEFINITION. Register writes of no row of their own, commits, the lockring and the management I²C bus (00_scope.md R7, R8;
17_register_access.md R422 to R439). -/

namespace Sys2Proof.Machine

/-! ### Writes and commits (R7, R432 to R438) -/

/-- Every access is of a whole word at a multiple of 4 (R422). -/
def wordAt (addr : BitVec 24) : Nat := addr.toNat / 4 * 4

def execRegisterWrite (path : Path) (addr : BitVec 24) (v : Word) (s : State) : Host.Outcome State Fault Refusal :=
  fin (writeAt path (wordAt addr) v s)
def execW1cWrite (path : Path) (addr : BitVec 24) (v : Word) (s : State) : Host.Outcome State Fault Refusal :=
  fin (writeAt path (wordAt addr) v s)
def execGlbCommit (path : Path) (v : Word) (s : State) : Host.Outcome State Fault Refusal :=
  fin (writeAt path R.GLB_COMMIT v s)
def execGlbDiscard (path : Path) (v : Word) (s : State) : Host.Outcome State Fault Refusal :=
  fin (writeAt path R.GLB_DISCARD v s)
/-- The write sets ARM and not CANCEL. -/
def execGlbCommitAtArm (path : Path) (v : Word) (s : State) : Host.Outcome State Fault Refusal :=
  fin (writeAt path R.GLB_COMMIT_AT (putBits v 30 2 2) s)
/-- The write sets CANCEL. -/
def execGlbCommitAtCancel (path : Path) (v : Word) (s : State) : Host.Outcome State Fault Refusal :=
  fin (writeAt path R.GLB_COMMIT_AT (setBit v 30) s)
def execCommitAtFired (s : State) : Host.Outcome State Fault Refusal :=
  fin (if s.coreUp && s.commitDue then commitFire s else s)
def execGlbLockringWrite (path : Path) (v : Word) (s : State) : Host.Outcome State Fault Refusal :=
  fin (writeAt path R.GLB_LOCKRING v s)
def execLockringExpire (path : Path) (s : State) : Host.Outcome State Fault Refusal :=
  fin (s.modPath path fun x => { x with lockOpen := false })

/-! ### Management I²C (R424 to R429) -/

def execI2cWriteTransaction (addr : BitVec 7) (bytes : List Byte) (stopped : Bool)
    (s : State) : Host.Outcome State Fault Refusal :=
  fin (i2cWrite addr bytes stopped s)
def execI2cReadTransaction (addr : BitVec 7) (bytes : List Byte) (nread : Nat)
    (s : State) : Host.Outcome State Fault Refusal :=
  fin (i2cRead addr bytes nread s)
def execI2cStretchTimeout (s : State) : Host.Outcome State Fault Refusal := fin (i2cTimeout s)
def execI2cAbandon (s : State) : Host.Outcome State Fault Refusal := fin (i2cAbandon s)

end Sys2Proof.Machine
end

