-- ==== Sys2Proof/Machine/Dispatch.lean ====
section
/-! DEFINITION. One arm per command: each is one direct call of the command's meaning. -/

namespace Sys2Proof.Machine

def exec (i : Instr) (s : State) : Host.Outcome State Fault Refusal :=
  match i with
  | .supplyGoodEval vin puVbus vtan puRp straps => Sys2Proof.Machine.execSupplyGoodEval vin puVbus vtan puRp straps s
  | .resetNLow => Sys2Proof.Machine.execResetNLow s
  | .vaux5Brownout => Sys2Proof.Machine.execVaux5Brownout s
  | .glbResetCold path v => Sys2Proof.Machine.execGlbResetCold path v s
  | .glbResetWarm path v => Sys2Proof.Machine.execGlbResetWarm path v s
  | .x24Ready => Sys2Proof.Machine.execX24Ready s
  | .x24Stop => Sys2Proof.Machine.execX24Stop s
  | .x32CrystalFail => Sys2Proof.Machine.execX32CrystalFail s
  | .vddcTurnOnDone r => Sys2Proof.Machine.execVddcTurnOnDone r s
  | .storeFillDone => Sys2Proof.Machine.execStoreFillDone s
  | .flashHeadersRead jedec content => Sys2Proof.Machine.execFlashHeadersRead jedec content s
  | .slotValidated => Sys2Proof.Machine.execSlotValidated s
  | .signatureVerified => Sys2Proof.Machine.execSignatureVerified s
  | .ladderConvertersOff => Sys2Proof.Machine.execLadderConvertersOff s
  | .levelUpTo2 => Sys2Proof.Machine.execLevelUpTo2 s
  | .upstreamConnect => Sys2Proof.Machine.execUpstreamConnect s
  | .hubConnectWrite path v => Sys2Proof.Machine.execHubConnectWrite path v s
  | .hubConnectDisconnect path v => Sys2Proof.Machine.execHubConnectDisconnect path v s
  | .connectReevaluate => Sys2Proof.Machine.execConnectReevaluate s
  | .bridgeModeEnd => Sys2Proof.Machine.execBridgeModeEnd s
  | .dynNoEpr => Sys2Proof.Machine.execDynNoEpr s
  | .causeRecordProgrammed => Sys2Proof.Machine.execCauseRecordProgrammed s
  | .causeAreaEraseStart => Sys2Proof.Machine.execCauseAreaEraseStart s
  | .causeAreaEraseDone => Sys2Proof.Machine.execCauseAreaEraseDone s
  | .nvmRead path v => Sys2Proof.Machine.execNvmRead path v s
  | .nvmProgram path v => Sys2Proof.Machine.execNvmProgram path v s
  | .nvmErase4k path v => Sys2Proof.Machine.execNvmErase4k path v s
  | .nvmErase64k path v => Sys2Proof.Machine.execNvmErase64k path v s
  | .nvmVerifySlot path v => Sys2Proof.Machine.execNvmVerifySlot path v s
  | .nvmReadId path v => Sys2Proof.Machine.execNvmReadId path v s
  | .nvmOtpProgram path v => Sys2Proof.Machine.execNvmOtpProgram path v s
  | .nvmBadOp path v => Sys2Proof.Machine.execNvmBadOp path v s
  | .nvmOpDone jedec stuckLow => Sys2Proof.Machine.execNvmOpDone jedec stuckLow s
  | .nvmOpTimeout => Sys2Proof.Machine.execNvmOpTimeout s
  | .feedWindowEnter f => Sys2Proof.Machine.execFeedWindowEnter f s
  | .feedWindowExit f => Sys2Proof.Machine.execFeedWindowExit f s
  | .feedQualified f => Sys2Proof.Machine.execFeedQualified f s
  | .feedRevertExpire f => Sys2Proof.Machine.execFeedRevertExpire f s
  | .vinUvlo vin => Sys2Proof.Machine.execVinUvlo vin s
  | .feedReverseCurrent => Sys2Proof.Machine.execFeedReverseCurrent s
  | .vinBrownoutHoldExpire => Sys2Proof.Machine.execVinBrownoutHoldExpire s
  | .switchoverOldOff => Sys2Proof.Machine.execSwitchoverOldOff s
  | .switchoverConfirmTimeout oldPresent => Sys2Proof.Machine.execSwitchoverConfirmTimeout oldPresent s
  | .feedPairConducts f => Sys2Proof.Machine.execFeedPairConducts f s
  | .feedPairFullyOn f => Sys2Proof.Machine.execFeedPairFullyOn f s
  | .feedLiveTurnonTimeout f => Sys2Proof.Machine.execFeedLiveTurnonTimeout f s
  | .feedRampEnd f => Sys2Proof.Machine.execFeedRampEnd f s
  | .feedGateCheckFail f => Sys2Proof.Machine.execFeedGateCheckFail f s
  | .feedShortedPass f => Sys2Proof.Machine.execFeedShortedPass f s
  | .feedTrip f cause => Sys2Proof.Machine.execFeedTrip f cause s
  | .feedCooldownExpire f => Sys2Proof.Machine.execFeedCooldownExpire f s
  | .feedUnlock path v => Sys2Proof.Machine.execFeedUnlock path v s
  | .vinOvervoltage vin => Sys2Proof.Machine.execVinOvervoltage vin s
  | .bellRing vin => Sys2Proof.Machine.execBellRing vin s
  | .bellClear vin durUs => Sys2Proof.Machine.execBellClear vin durUs s
  | .degradedSet => Sys2Proof.Machine.execDegradedSet s
  | .degradedClear => Sys2Proof.Machine.execDegradedClear s
  | .tandemEnter vtan => Sys2Proof.Machine.execTandemEnter vtan s
  | .ftPresentChange vtan => Sys2Proof.Machine.execFtPresentChange vtan s
  | .axOffVsnsCheck a vsns => Sys2Proof.Machine.execAxOffVsnsCheck a vsns s
  | .axPgoodRelease a => Sys2Proof.Machine.execAxPgoodRelease a s
  | .pathRampStart x vsns => Sys2Proof.Machine.execPathRampStart x vsns s
  | .pathRampDone x => Sys2Proof.Machine.execPathRampDone x s
  | .pathFastTrip x => Sys2Proof.Machine.execPathFastTrip x s
  | .brakeTimerExpire x k => Sys2Proof.Machine.execBrakeTimerExpire x k s
  | .soaBudgetExhausted x => Sys2Proof.Machine.execSoaBudgetExhausted x s
  | .rampTimeout p => Sys2Proof.Machine.execRampTimeout p s
  | .rampOvershoot p => Sys2Proof.Machine.execRampOvershoot p s
  | .pathLimitEnter x => Sys2Proof.Machine.execPathLimitEnter x s
  | .pathLimitExit x => Sys2Proof.Machine.execPathLimitExit x s
  | .pathDischarged x => Sys2Proof.Machine.execPathDischarged x s
  | .backoffExpire x => Sys2Proof.Machine.execBackoffExpire x s
  | .retryCountReset x => Sys2Proof.Machine.execRetryCountReset x s
  | .gateCheckFail p => Sys2Proof.Machine.execGateCheckFail p s
  | .outputPresentFail p => Sys2Proof.Machine.execOutputPresentFail p s
  | .ppUnlock path p v => Sys2Proof.Machine.execPpUnlock path p v s
  | .snapshotTaken => Sys2Proof.Machine.execSnapshotTaken s
  | .mtELoRead path m => Sys2Proof.Machine.execMtELoRead path m s
  | .meterTick => Sys2Proof.Machine.execMeterTick s
  | .tcCcChange p cc1 cc2 => Sys2Proof.Machine.execTcCcChange p cc1 cc2 s
  | .tcDrpToggle p => Sys2Proof.Machine.execTcDrpToggle p s
  | .tcCcDebounceExpire p vbus => Sys2Proof.Machine.execTcCcDebounceExpire p vbus s
  | .tcDrpTryExpire p => Sys2Proof.Machine.execTcDrpTryExpire p s
  | .tcTryTimeout p => Sys2Proof.Machine.execTcTryTimeout p s
  | .tcDrpTryWaitExpire p => Sys2Proof.Machine.execTcDrpTryWaitExpire p s
  | .tcDetach p => Sys2Proof.Machine.execTcDetach p s
  | .vbusLate p => Sys2Proof.Machine.execVbusLate p s
  | .tcErrorRecoveryExpire p => Sys2Proof.Machine.execTcErrorRecoveryExpire p s
  | .tcCmdErrRecovery path p v => Sys2Proof.Machine.execTcCmdErrRecovery path p v s
  | .tcCmdMoistTest path p v => Sys2Proof.Machine.execTcCmdMoistTest path p v s
  | .vconnOc p => Sys2Proof.Machine.execVconnOc p s
  | .vconnTotalOc => Sys2Proof.Machine.execVconnTotalOc s
  | .ccOvp p mv => Sys2Proof.Machine.execCcOvp p mv s
  | .ccOvpClear p => Sys2Proof.Machine.execCcOvpClear p s
  | .sbuOvp p mv => Sys2Proof.Machine.execSbuOvp p mv s
  | .sbuOvpClear p => Sys2Proof.Machine.execSbuOvpClear p s
  | .moistTestDue p => Sys2Proof.Machine.execMoistTestDue p s
  | .moistTestDone p cc1 cc2 sbu1 sbu2 => Sys2Proof.Machine.execMoistTestDone p cc1 cc2 sbu1 sbu2 s
  | .massWetClear => Sys2Proof.Machine.execMassWetClear s
  | .deepCcPoll p cc1 cc2 => Sys2Proof.Machine.execDeepCcPoll p cc1 cc2 s
  | .pdSourceCapsRx p rev2 epr pdos => Sys2Proof.Machine.execPdSourceCapsRx p rev2 epr pdos s
  | .pdRequestRx p rev2 rdo => Sys2Proof.Machine.execPdRequestRx p rev2 rdo s
  | .pdEprRequestRx p rdo pdo => Sys2Proof.Machine.execPdEprRequestRx p rdo pdo s
  | .pdAcceptRx p => Sys2Proof.Machine.execPdAcceptRx p s
  | .pdRejectRx p => Sys2Proof.Machine.execPdRejectRx p s
  | .pdWaitRx p => Sys2Proof.Machine.execPdWaitRx p s
  | .pdPsRdyRx p => Sys2Proof.Machine.execPdPsRdyRx p s
  | .pdSoftResetRx p => Sys2Proof.Machine.execPdSoftResetRx p s
  | .pdHardResetRx p => Sys2Proof.Machine.execPdHardResetRx p s
  | .pdGetSourceCapRx p epr => Sys2Proof.Machine.execPdGetSourceCapRx p epr s
  | .pdGetSinkCapRx p epr => Sys2Proof.Machine.execPdGetSinkCapRx p epr s
  | .pdSinkCapsRx p pdo1 => Sys2Proof.Machine.execPdSinkCapsRx p pdo1 s
  | .pdPrSwapRx p => Sys2Proof.Machine.execPdPrSwapRx p s
  | .pdVconnSwapRx p => Sys2Proof.Machine.execPdVconnSwapRx p s
  | .pdDrSwapRx p => Sys2Proof.Machine.execPdDrSwapRx p s
  | .pdFrSwapRx p => Sys2Proof.Machine.execPdFrSwapRx p s
  | .pdEprModeEnterRx p => Sys2Proof.Machine.execPdEprModeEnterRx p s
  | .pdEprModeExitRx p => Sys2Proof.Machine.execPdEprModeExitRx p s
  | .pdEprKeepaliveRx p => Sys2Proof.Machine.execPdEprKeepaliveRx p s
  | .pdAlertRx p ado => Sys2Proof.Machine.execPdAlertRx p ado s
  | .pdGetStatusRx p => Sys2Proof.Machine.execPdGetStatusRx p s
  | .pdGetSourceInfoRx p => Sys2Proof.Machine.execPdGetSourceInfoRx p s
  | .pdGetRevisionRx p => Sys2Proof.Machine.execPdGetRevisionRx p s
  | .pdGetSrcCapExtRx p => Sys2Proof.Machine.execPdGetSrcCapExtRx p s
  | .pdGetSnkCapExtRx p => Sys2Proof.Machine.execPdGetSnkCapExtRx p s
  | .pdBistRx p carrier => Sys2Proof.Machine.execPdBistRx p carrier s
  | .pdUnsupportedRx p => Sys2Proof.Machine.execPdUnsupportedRx p s
  | .pdUnchunkedExtRx p => Sys2Proof.Machine.execPdUnchunkedExtRx p s
  | .pdSop2Rx p => Sys2Proof.Machine.execPdSop2Rx p s
  | .pdIgnoredRx p => Sys2Proof.Machine.execPdIgnoredRx p s
  | .pdSvdmRx p header => Sys2Proof.Machine.execPdSvdmRx p header s
  | .pdGoodcrcRx p => Sys2Proof.Machine.execPdGoodcrcRx p s
  | .pdSenderResponseTimeout p => Sys2Proof.Machine.execPdSenderResponseTimeout p s
  | .pdCableDiscoverRetry p => Sys2Proof.Machine.execPdCableDiscoverRetry p s
  | .pdSendSourceCapRepeat p => Sys2Proof.Machine.execPdSendSourceCapRepeat p s
  | .pdSrcTransitionExpire p => Sys2Proof.Machine.execPdSrcTransitionExpire p s
  | .pdTransitionSettled p => Sys2Proof.Machine.execPdTransitionSettled p s
  | .pdTransitionWindowExpire p => Sys2Proof.Machine.execPdTransitionWindowExpire p s
  | .pdPsHardResetExpire p => Sys2Proof.Machine.execPdPsHardResetExpire p s
  | .pdSrcRecoverExpire p => Sys2Proof.Machine.execPdSrcRecoverExpire p s
  | .pdEprKeepaliveExpire p => Sys2Proof.Machine.execPdEprKeepaliveExpire p s
  | .pdPuKeepaliveDue => Sys2Proof.Machine.execPdPuKeepaliveDue s
  | .pdSinkTxExpire p => Sys2Proof.Machine.execPdSinkTxExpire p s
  | .pdSinkRequestExpire => Sys2Proof.Machine.execPdSinkRequestExpire s
  | .pdPsSourceTimeout p => Sys2Proof.Machine.execPdPsSourceTimeout p s
  | .pdFrsNomsg p => Sys2Proof.Machine.execPdFrsNomsg p s
  | .pdHrstWithheld => Sys2Proof.Machine.execPdHrstWithheld s
  | .pdEprExitTimeout p => Sys2Proof.Machine.execPdEprExitTimeout p s
  | .pdCmdSoftReset path p v => Sys2Proof.Machine.execPdCmdSoftReset path p v s
  | .pdCmdHardReset path p v => Sys2Proof.Machine.execPdCmdHardReset path p v s
  | .pdCmdPrSwap path p v => Sys2Proof.Machine.execPdCmdPrSwap path p v s
  | .pdCmdVconnSwap path p v => Sys2Proof.Machine.execPdCmdVconnSwap path p v s
  | .pdCmdSendCaps path p v => Sys2Proof.Machine.execPdCmdSendCaps path p v s
  | .pdCmdGetSinkCap path p v => Sys2Proof.Machine.execPdCmdGetSinkCap path p v s
  | .pdCmdEprExit path p v => Sys2Proof.Machine.execPdCmdEprExit path p v s
  | .bmRecompute vinAvg => Sys2Proof.Machine.execBmRecompute vinAvg s
  | .renegTimeout p => Sys2Proof.Machine.execRenegTimeout p s
  | .bmRaiseDelayExpire => Sys2Proof.Machine.execBmRaiseDelayExpire s
  | .pmbTransactionDone ack data => Sys2Proof.Machine.execPmbTransactionDone ack data s
  | .pmbRetryDue => Sys2Proof.Machine.execPmbRetryDue s
  | .pmbVoutRetryDue => Sys2Proof.Machine.execPmbVoutRetryDue s
  | .pmbTonMaxExpire => Sys2Proof.Machine.execPmbTonMaxExpire s
  | .pmbOffConfirmTimeout => Sys2Proof.Machine.execPmbOffConfirmTimeout s
  | .pmbStretchTimeout => Sys2Proof.Machine.execPmbStretchTimeout s
  | .pmbVerifyWrite path v => Sys2Proof.Machine.execPmbVerifyWrite path v s
  | .pmbAlert addr pecOk ack status => Sys2Proof.Machine.execPmbAlert addr pecOk ack status s
  | .pmbAlertRepeat stillLow => Sys2Proof.Machine.execPmbAlertRepeat stillLow s
  | .pmbAlertStormExpire addr => Sys2Proof.Machine.execPmbAlertStormExpire addr s
  | .pmbBusStuck => Sys2Proof.Machine.execPmbBusStuck s
  | .pmbBusRecoveryDue => Sys2Proof.Machine.execPmbBusRecoveryDue s
  | .pmbStuckClear => Sys2Proof.Machine.execPmbStuckClear s
  | .pmbSwGo path v => Sys2Proof.Machine.execPmbSwGo path v s
  | .usbGetDescriptor dtype index len => Sys2Proof.Machine.execUsbGetDescriptor dtype index len s
  | .usbSetAddress addr => Sys2Proof.Machine.execUsbSetAddress addr s
  | .usbSetConfiguration cfg => Sys2Proof.Machine.execUsbSetConfiguration cfg s
  | .usbSetInterface alt => Sys2Proof.Machine.execUsbSetInterface alt s
  | .usbGetStatus => Sys2Proof.Machine.execUsbGetStatus s
  | .usbDeviceFeature set => Sys2Proof.Machine.execUsbDeviceFeature set s
  | .hubGetHubStatus => Sys2Proof.Machine.execHubGetHubStatus s
  | .hubGetPortStatus port => Sys2Proof.Machine.execHubGetPortStatus port s
  | .hubHubFeature set feature => Sys2Proof.Machine.execHubHubFeature set feature s
  | .hubClassStall request => Sys2Proof.Machine.execHubClassStall request s
  | .portResetRequest port => Sys2Proof.Machine.execPortResetRequest port s
  | .portResetDone port speed => Sys2Proof.Machine.execPortResetDone port speed s
  | .portSuspendRequest port => Sys2Proof.Machine.execPortSuspendRequest port s
  | .portResumeRequest port => Sys2Proof.Machine.execPortResumeRequest port s
  | .portResumeDone port => Sys2Proof.Machine.execPortResumeDone port s
  | .portPowerFeature set port => Sys2Proof.Machine.execPortPowerFeature set port s
  | .portEnableClear port => Sys2Proof.Machine.execPortEnableClear port s
  | .portTestRequest port selector => Sys2Proof.Machine.execPortTestRequest port selector s
  | .portFeatureStall port feature => Sys2Proof.Machine.execPortFeatureStall port feature s
  | .portChangeClear port feature => Sys2Proof.Machine.execPortChangeClear port feature s
  | .portL1Request port besl rwe dev ans => Sys2Proof.Machine.execPortL1Request port besl rwe dev ans s
  | .portL1Clear port => Sys2Proof.Machine.execPortL1Clear port s
  | .portConnectDetect p speed => Sys2Proof.Machine.execPortConnectDetect p speed s
  | .portDisconnectDetect p => Sys2Proof.Machine.execPortDisconnectDetect p s
  | .portBabble p => Sys2Proof.Machine.execPortBabble p s
  | .upstreamBusReset hs => Sys2Proof.Machine.execUpstreamBusReset hs s
  | .upstreamDetach => Sys2Proof.Machine.execUpstreamDetach s
  | .globalSuspend => Sys2Proof.Machine.execGlobalSuspend s
  | .hostResume => Sys2Proof.Machine.execHostResume s
  | .remoteWakeK p => Sys2Proof.Machine.execRemoteWakeK p s
  | .remoteWakeEvent => Sys2Proof.Machine.execRemoteWakeEvent s
  | .lpmToken linkState rwe => Sys2Proof.Machine.execLpmToken linkState rwe s
  | .l1Resume => Sys2Proof.Machine.execL1Resume s
  | .l1RemoteWake => Sys2Proof.Machine.execL1RemoteWake s
  | .portL1DeviceExit p => Sys2Proof.Machine.execPortL1DeviceExit p s
  | .sofReceived frame => Sys2Proof.Machine.execSofReceived frame s
  | .sofMissed => Sys2Proof.Machine.execSofMissed s
  | .ttStartSplit p ty dirIn addr ep data crcOk => Sys2Proof.Machine.execTtStartSplit p ty dirIn addr ep data crcOk s
  | .ttCompleteSplit p ty dirIn addr ep => Sys2Proof.Machine.execTtCompleteSplit p ty dirIn addr ep s
  | .ttPeriodicStartSplit p iso dirIn addr ep data => Sys2Proof.Machine.execTtPeriodicStartSplit p iso dirIn addr ep data s
  | .ttPeriodicCompleteSplit p dirIn addr ep last => Sys2Proof.Machine.execTtPeriodicCompleteSplit p dirIn addr ep last s
  | .ttFrameStart p => Sys2Proof.Machine.execTtFrameStart p s
  | .ttTransactionEnd p r data1 data => Sys2Proof.Machine.execTtTransactionEnd p r data1 data s
  | .ttRecordExpire p k => Sys2Proof.Machine.execTtRecordExpire p k s
  | .ttStale p k => Sys2Proof.Machine.execTtStale p k s
  | .ttClearTtBuffer ttPort wValue => Sys2Proof.Machine.execTtClearTtBuffer ttPort wValue s
  | .ttResetTt ttPort => Sys2Proof.Machine.execTtResetTt ttPort s
  | .ttStopTt ttPort => Sys2Proof.Machine.execTtStopTt ttPort s
  | .ttGetTtState ttPort len => Sys2Proof.Machine.execTtGetTtState ttPort len s
  | .hpTtCmdReset path p v => Sys2Proof.Machine.execHpTtCmdReset path p v s
  | .hpTtCmdClearNp path p v => Sys2Proof.Machine.execHpTtCmdClearNp path p v s
  | .efnVendorRead wValue wIndex len => Sys2Proof.Machine.execEfnVendorRead wValue wIndex len s
  | .efnVendorWrite wValue wIndex len data => Sys2Proof.Machine.execEfnVendorWrite wValue wIndex len data s
  | .efnVendorEvqRead wValue wIndex len => Sys2Proof.Machine.execEfnVendorEvqRead wValue wIndex len s
  | .efnVendorKeyedWrite wValue wIndex len data => Sys2Proof.Machine.execEfnVendorKeyedWrite wValue wIndex len data s
  | .efnAccessHoldTimeout => Sys2Proof.Machine.execEfnAccessHoldTimeout s
  | .efnStandardRequest bmRequestType bRequest wValue wIndex len => Sys2Proof.Machine.execEfnStandardRequest bmRequestType bRequest wValue wIndex len s
  | .efnSetHalt e => Sys2Proof.Machine.execEfnSetHalt e s
  | .efnClearHalt e => Sys2Proof.Machine.execEfnClearHalt e s
  | .efnBulkOut e data => Sys2Proof.Machine.execEfnBulkOut e data s
  | .efnPing e => Sys2Proof.Machine.execEfnPing e s
  | .efnBulkIn e => Sys2Proof.Machine.execEfnBulkIn e s
  | .efnBulkInAck e => Sys2Proof.Machine.execEfnBulkInAck e s
  | .efnPortReset lost => Sys2Proof.Machine.execEfnPortReset lost s
  | .batchReceived => Sys2Proof.Machine.execBatchReceived s
  | .batchAbort => Sys2Proof.Machine.execBatchAbort s
  | .batchRead => Sys2Proof.Machine.execBatchRead s
  | .batchWrite => Sys2Proof.Machine.execBatchWrite s
  | .batchWriteN => Sys2Proof.Machine.execBatchWriteN s
  | .batchRmw => Sys2Proof.Machine.execBatchRmw s
  | .batchPoll timedOut => Sys2Proof.Machine.execBatchPoll timedOut s
  | .batchKeyedWrite => Sys2Proof.Machine.execBatchKeyedWrite s
  | .batchDelay => Sys2Proof.Machine.execBatchDelay s
  | .batchEvqPop timedOut => Sys2Proof.Machine.execBatchEvqPop timedOut s
  | .batchDone => Sys2Proof.Machine.execBatchDone s
  | .evqPushMessage => Sys2Proof.Machine.execEvqPushMessage s
  | .efnCarveApply path v => Sys2Proof.Machine.execEfnCarveApply path v s
  | .storeWindowRead path addr => Sys2Proof.Machine.execStoreWindowRead path addr s
  | .storeWindowWrite path addr v => Sys2Proof.Machine.execStoreWindowWrite path addr v s
  | .scrubSlot => Sys2Proof.Machine.execScrubSlot s
  | .stoCmdClrLog path v => Sys2Proof.Machine.execStoCmdClrLog path v s
  | .stoCmdClrCnt path v => Sys2Proof.Machine.execStoCmdClrCnt path v s
  | .stoEcclogClear path k v => Sys2Proof.Machine.execStoEcclogClear path k v s
  | .stoFlipArm path v => Sys2Proof.Machine.execStoFlipArm path v s
  | .stoRetireWrite path k v => Sys2Proof.Machine.execStoRetireWrite path k v s
  | .holdoverExpire => Sys2Proof.Machine.execHoldoverExpire s
  | .tpulseFire => Sys2Proof.Machine.execTpulseFire s
  | .tpulseEnd => Sys2Proof.Machine.execTpulseEnd s
  | .tpulseInputEdge rising => Sys2Proof.Machine.execTpulseInputEdge rising s
  | .timSwCap path v => Sys2Proof.Machine.execTimSwCap path v s
  | .timCapStatRead path u => Sys2Proof.Machine.execTimCapStatRead path u s
  | .timTb0NsRead path => Sys2Proof.Machine.execTimTb0NsRead path s
  | .timTb3LoRead path => Sys2Proof.Machine.execTimTb3LoRead path s
  | .tb3Alarm => Sys2Proof.Machine.execTb3Alarm s
  | .tbReadvance => Sys2Proof.Machine.execTbReadvance s
  | .cadDiscoveryStart p => Sys2Proof.Machine.execCadDiscoveryStart p s
  | .cadVdmResponse p ans => Sys2Proof.Machine.execCadVdmResponse p ans s
  | .cadVdmTimeout p => Sys2Proof.Machine.execCadVdmTimeout p s
  | .cadVdmBusyRetry p => Sys2Proof.Machine.execCadVdmBusyRetry p s
  | .cadDiscoverIdentityRx => Sys2Proof.Machine.execCadDiscoverIdentityRx s
  | .cadDiscoverSvidsRx => Sys2Proof.Machine.execCadDiscoverSvidsRx s
  | .cadDiscoverModesRx => Sys2Proof.Machine.execCadDiscoverModesRx s
  | .cadEnterModeRx vdo => Sys2Proof.Machine.execCadEnterModeRx vdo s
  | .cadExitModeRx p => Sys2Proof.Machine.execCadExitModeRx p s
  | .cadAttentionRx p vdo => Sys2Proof.Machine.execCadAttentionRx p vdo s
  | .cadAttentionRepeat => Sys2Proof.Machine.execCadAttentionRepeat s
  | .cadExitModeTimeout p => Sys2Proof.Machine.execCadExitModeTimeout p s
  | .clCmdEnter path p v => Sys2Proof.Machine.execClCmdEnter path p v s
  | .clCmdRetrain path p v => Sys2Proof.Machine.execClCmdRetrain path p v s
  | .cadReceiverLock p => Sys2Proof.Machine.execCadReceiverLock p s
  | .cadTrainAttemptFail p => Sys2Proof.Machine.execCadTrainAttemptFail p s
  | .cadUpFrameRx => Sys2Proof.Machine.execCadUpFrameRx s
  | .cadLossOfLock p => Sys2Proof.Machine.execCadLossOfLock p s
  | .cadRetrainSetRx ver => Sys2Proof.Machine.execCadRetrainSetRx ver s
  | .cadRetrainTimeout p => Sys2Proof.Machine.execCadRetrainTimeout p s
  | .cadFrameRx p codeOk bytes => Sys2Proof.Machine.execCadFrameRx p codeOk bytes s
  | .cadSyncRx p bytes => Sys2Proof.Machine.execCadSyncRx p bytes s
  | .cadDelayReqRx p bytes => Sys2Proof.Machine.execCadDelayReqRx p bytes s
  | .cadDelayRespRx p bytes => Sys2Proof.Machine.execCadDelayRespRx p bytes s
  | .cadBellRx p bytes => Sys2Proof.Machine.execCadBellRx p bytes s
  | .cadEchoRx p bytes => Sys2Proof.Machine.execCadEchoRx p bytes s
  | .cadFrameTxDone p => Sys2Proof.Machine.execCadFrameTxDone p s
  | .cadSyncDue => Sys2Proof.Machine.execCadSyncDue s
  | .cadDelayReqDue => Sys2Proof.Machine.execCadDelayReqDue s
  | .cadDelayRespMiss => Sys2Proof.Machine.execCadDelayRespMiss s
  | .cadSyncAbsent => Sys2Proof.Machine.execCadSyncAbsent s
  | .cadTailWrite path q v => Sys2Proof.Machine.execCadTailWrite path q v s
  | .cadDescPrepared q => Sys2Proof.Machine.execCadDescPrepared q s
  | .cadLaunchTime q => Sys2Proof.Machine.execCadLaunchTime q s
  | .cadDescComplete q => Sys2Proof.Machine.execCadDescComplete q s
  | .cadQueueResume path q v => Sys2Proof.Machine.execCadQueueResume path q v s
  | .cadQueueFlush path q v => Sys2Proof.Machine.execCadQueueFlush path q v s
  | .cadRxRdWrite path p v => Sys2Proof.Machine.execCadRxRdWrite path p v s
  | .cadEp2Request => Sys2Proof.Machine.execCadEp2Request s
  | .cadEpRecordAck ep3 => Sys2Proof.Machine.execCadEpRecordAck ep3 s
  | .idleEnter => Sys2Proof.Machine.execIdleEnter s
  | .autoSleepDue => Sys2Proof.Machine.execAutoSleepDue s
  | .autoDeepDue => Sys2Proof.Machine.execAutoDeepDue s
  | .pwrCmdDeep path v => Sys2Proof.Machine.execPwrCmdDeep path v s
  | .pwrCmdOff path v => Sys2Proof.Machine.execPwrCmdOff path v s
  | .pwrCmdBlocked => Sys2Proof.Machine.execPwrCmdBlocked s
  | .powerEntryDone => Sys2Proof.Machine.execPowerEntryDone s
  | .wakeSource src port => Sys2Proof.Machine.execWakeSource src port s
  | .wakeDone badBanks => Sys2Proof.Machine.execWakeDone badBanks s
  | .wakeAttemptFail cause => Sys2Proof.Machine.execWakeAttemptFail cause s
  | .wakeRetryDue => Sys2Proof.Machine.execWakeRetryDue s
  | .sentinelMessage p msg => Sys2Proof.Machine.execSentinelMessage p msg s
  | .sentinelKeepalive p => Sys2Proof.Machine.execSentinelKeepalive p s
  | .i2cAddressMatch addr => Sys2Proof.Machine.execI2cAddressMatch addr s
  | .dphyPowerDown b => Sys2Proof.Machine.execDphyPowerDown b s
  | .dphyPowerUp b => Sys2Proof.Machine.execDphyPowerUp b s
  | .retentionReloadDone bank => Sys2Proof.Machine.execRetentionReloadDone bank s
  | .wakeNOffExit => Sys2Proof.Machine.execWakeNOffExit s
  | .tempCrit celsius => Sys2Proof.Machine.execTempCrit celsius s
  | .tempHigh celsius => Sys2Proof.Machine.execTempHigh celsius s
  | .faultNPulseEnd => Sys2Proof.Machine.execFaultNPulseEnd s
  | .resetLoopWindowExpire => Sys2Proof.Machine.execResetLoopWindowExpire s
  | .recoveryAutoEnd => Sys2Proof.Machine.execRecoveryAutoEnd s
  | .fltCmdEndRecovery path v => Sys2Proof.Machine.execFltCmdEndRecovery path v s
  | .recoveryReleaseDue => Sys2Proof.Machine.execRecoveryReleaseDue s
  | .fltCapClear path v => Sys2Proof.Machine.execFltCapClear path v s
  | .evqPop path => Sys2Proof.Machine.execEvqPop path s
  | .evqPopBlockTimeout path => Sys2Proof.Machine.execEvqPopBlockTimeout path s
  | .evqCmdFlush path v => Sys2Proof.Machine.execEvqCmdFlush path v s
  | .i2cWriteTransaction addr bytes stopped => Sys2Proof.Machine.execI2cWriteTransaction addr bytes stopped s
  | .i2cReadTransaction addr bytes nread => Sys2Proof.Machine.execI2cReadTransaction addr bytes nread s
  | .i2cStretchTimeout => Sys2Proof.Machine.execI2cStretchTimeout s
  | .i2cAbandon => Sys2Proof.Machine.execI2cAbandon s
  | .registerWrite path addr v => Sys2Proof.Machine.execRegisterWrite path addr v s
  | .w1cWrite path addr v => Sys2Proof.Machine.execW1cWrite path addr v s
  | .glbCommit path v => Sys2Proof.Machine.execGlbCommit path v s
  | .glbDiscard path v => Sys2Proof.Machine.execGlbDiscard path v s
  | .glbCommitAtArm path v => Sys2Proof.Machine.execGlbCommitAtArm path v s
  | .glbCommitAtCancel path v => Sys2Proof.Machine.execGlbCommitAtCancel path v s
  | .commitAtFired => Sys2Proof.Machine.execCommitAtFired s
  | .glbLockringWrite path v => Sys2Proof.Machine.execGlbLockringWrite path v s
  | .lockringExpire path => Sys2Proof.Machine.execLockringExpire path s
  | .puClXsStatRead path => Sys2Proof.Machine.execPuClXsStatRead path s
  | .internalLdosReady => Sys2Proof.Machine.execInternalLdosReady s
  | .vbusThresholdCross p l => Sys2Proof.Machine.execVbusThresholdCross p l s
  | .vin36vCrossing rising vin => Sys2Proof.Machine.execVin36vCrossing rising vin s
  | .meterSample v c => Sys2Proof.Machine.execMeterSample v c s
  | .faultConditionEnd c => Sys2Proof.Machine.execFaultConditionEnd c s
  | .pdNoGoodcrc p => Sys2Proof.Machine.execPdNoGoodcrc p s
  | .pdCableIdentityRx p vdos => Sys2Proof.Machine.execPdCableIdentityRx p vdos s
  | .pdResponseRx p r => Sys2Proof.Machine.execPdResponseRx p r s

end Sys2Proof.Machine
end

