-- ==== Sys2Proof/Safety.lean ====
section
/-! DEFINITION. What a well-formed state of the hub is and what completing a command means, in the terms the
statements use. -/

namespace Sys2Proof.Machine

/-- The canonical form of every sparse map the state holds: registers, store, flash and OTP. -/
def State.canonical (s : State) : Bool :=
  s.regs.wf regReset && s.sto.mem.wf cellDefault && s.nvm.flash.wf flashReset && s.nvm.otp.wf otpReset

/-- The command completes, and `P` holds of the state its effect reaches; the next state is that one with the faults the
effect raised collected, held writes and requests taken up, and wake sources acted on (`settled`). -/
def Does (c : Instr) (s : State) (P : State → Prop) : Prop := ∃ u, exec c s = .next (settled u) ∧ P u

/-- The word `w` stored with the listed bits of its 39 flipped: 0 to 31 of the data, 32 to 38 of the check bits (R294). -/
def flipped (w : Word) (l : List (Fin 39)) : StoCell :=
  let d := BitVec.ofNat 32 ((l.filter (·.val < 32)).map fun i => 2 ^ i.val).sum
  let c := BitVec.ofNat 7 ((l.filter (32 ≤ ·.val)).map fun i => 2 ^ (i.val - 32)).sum
  { data := w ^^^ d, dErr := d, cErr := c }

/-- TB0 in units of 2^-24 ns (R304, R305). -/
def Tb0.units (t : Tb0) : Nat := (t.sec.toNat * 1000000000 + t.ns.toNat) * 2 ^ 24 + t.frac.toNat

end Sys2Proof.Machine
end

