-- ==== Sys2Proof/Certificates/Slice0/Obligations.lean ====
section
/-! DEFINITION. The statements for the provers. Where a statement names an operation of the model (`written`, `settled`,
`cadRx`, ...), the operation is applied to what the command's meaning applies it to, so the statement says which state is
reached and with it what stays. `settled` collects the faults the effect raised; `Does c s P` says that `c` completes and `P`
holds of the state its effect reaches. -/

open Sys2Proof Sys2Proof.Machine

/-- O1, tier 1. The block's own form of "a step runs the decoded instruction": a step takes the command at the front of the queue and
runs it with the queue's rest. On an empty queue a tick of 5 ns passes (the model's choice, log entry 1). -/
def Obligations.StepRunsTheFrontCommand : Prop := ∀ (c : Instr) (rest : List Instr) (s : State),
  step { s with pending := c :: rest } = exec c { s with pending := rest } ∧
  (s.pending = [] → step s = .next (tick s))

/-- O2, tier 1. The state after reset has every sparse map in canonical form, an empty queue, and no domain powered. -/
def Obligations.ResetIsCanonicalAndIdle : Prop :=
  State.reset.canonical = true ∧ State.reset.pending = [] ∧ State.reset.glb.phase = .unpowered ∧
    State.reset.aonUp = false ∧ ∀ a, State.reset.reg a = regReset a

/-- O3, tier 3. Every step keeps the canonical form of the registers, the store, the flash and the OTP words, from every state that has
it. -/
def Obligations.StepKeepsTheStateCanonical : Prop := ∀ s t : State,
  s.canonical = true → step s = .next t → t.canonical = true

/-- O4, tier 2. No command is refused; every command completes in every state but those whose voltage lies beyond the table of R459,
which are faults; and no command touches the queue of those that wait. -/
def Obligations.CommandsCompleteAndLeaveTheQueue : Prop := ∀ (c : Instr) (s : State),
  ((∃ t, exec c s = .next t ∧ (s.canonical = true → t.pending = s.pending)) ∨ exec c s = .fault .stressBeyondRating) ∧
  (exec c s = .fault .stressBeyondRating ↔ (∃ mv, c = .vinOvervoltage mv ∧ 100000 < mv) ∨
    (∃ p mv, (c = .ccOvp p mv ∨ c = .sbuOvp p mv) ∧ 58000 < mv))

/-- O5, tier 2. R294: one flipped bit among the 39 is corrected, two are uncorrectable, none is clean. -/
def Obligations.EccCorrectsOneBitAndDetectsTwo : Prop := ∀ (w : Word) (req k : Nat) (s : State),
  (∀ i, s.cell k = flipped w [i] → (storeRead req k s).1 = (w, false) ∧ eccClass (s.cell k) = .corrected) ∧
  (∀ i j, i ≠ j → s.cell k = flipped w [i, j] → (storeRead req k s).1.2 = true ∧ eccClass (s.cell k) = .uncorrectable) ∧
  (s.cell k = flipped w [] → storeRead req k s = ((w, false), s))

/-- O6, tier 2. R290: a full-word write stores fresh check bits whatever the word held; a shorter write reads, merges and stores the
word again, poisoned when its read was uncorrectable. -/
def Obligations.WritesStoreFreshCheckBitsOrMerge : Prop := ∀ (s : State) (k req : Nat) (w mask : Word),
  s.canonical = true →
  (storeWrite k w false s).cell k = cleanCell w ∧ eccClass (cleanCell w) = .clean ∧
  (∀ j, j ≠ k → (storeWrite k w false s).cell j = s.cell j) ∧
  (∀ c, s.cell k = c → eccClass c = .clean →
    (storeMerge req k mask w s).cell k = cleanCell ((c.data &&& ~~~mask) ||| (w &&& mask))) ∧
  (∀ c, s.cell k = c → eccClass c = .corrected →
    (storeMerge req k mask w s).cell k = cleanCell ((eccFixed c &&& ~~~mask) ||| (w &&& mask))) ∧
  (∀ c, s.cell k = c → eccClass c = .uncorrectable →
    (storeMerge req k mask w s).cell k = poisonCell ((c.data &&& ~~~mask) ||| (w &&& mask)))

/-- O7, tier 2. R305: the advance of TB0 on a tick, with its carry into the seconds, and the range of the increment. -/
def Obligations.TickAdvancesTb0ByTheIncrement : Prop :=
  (∀ (t : Tb0) (inc : Nat), t.ns.toNat < 1000000000 → t.sec.toNat + 1 < 2 ^ 48 → inc ≤ 0x05800000 →
    (t.add inc).units = t.units + inc ∧ (t.add inc).ns.toNat < 1000000000) ∧
  (∀ s : State, s.pending = [] → s.aonUp = true → s.timeUp = true → s.tim.discOk = true → ∃ t, step s = .next t ∧
    t.tim.tb0 = s.tim.tb0.add (s.reg R.TIM_TB0_INC).toNat ∧ t.tim.tb1 = s.tim.tb1 + 5) ∧
  (regReset R.TIM_TB0_INC = 0x05000000) ∧
  (∀ s : State, s.canonical = true → s.tim.discOk = true →
    ((timIncMoved s).reg R.TIM_TB0_INC).toNat = min 0x05800000 (max 0x04800000 (s.reg R.TIM_TB0_INC).toNat))

/-- O8, tier 2. R320: a read of TIM_TB0_NS samples TB0 and TB1, and the next reads on the same path return what it latched. -/
def Obligations.TimeReadsLatchForTheirPath : Prop := ∀ (s : State) (path : Path) (t : State), leaveIdle s = t →
  (t.path path).latch.wf (fun _ => 0) = true →
  (s.reaches path R.TIM_TB0_NS = true → (regRead path R.TIM_TB0_NS s).1 = some (t.tim.tb0.ns, false) ∧
    Does (.timTb0NsRead path) s fun u =>
      u.readValue path R.TIM_TB0_SHI = BitVec.ofNat 32 (t.tim.tb0.sec.toNat / 2 ^ 32) ∧
      u.readValue path R.TIM_TB0_SLO = BitVec.ofNat 32 t.tim.tb0.sec.toNat ∧
      u.readValue path R.TIM_TB0_FRAC = BitVec.ofNat 32 t.tim.tb0.frac.toNat ∧
      u.readValue path R.TIM_TB1_LO = BitVec.ofNat 32 t.tim.tb1.toNat ∧
      u.readValue path R.TIM_TB1_HI = BitVec.ofNat 32 (t.tim.tb1.toNat / 2 ^ 32)) ∧
  (s.reaches path R.TIM_TB3_LO = true →
    (regRead path R.TIM_TB3_LO s).1 = some (BitVec.ofNat 32 t.tim.tb3.toNat, false) ∧
    Does (.timTb3LoRead path) s fun u => u.readValue path R.TIM_TB3_HI = BitVec.ofNat 32 (t.tim.tb3.toNat / 2 ^ 32))

/-- O9, tier 2. R326, R328: the version a link is entered and retrained at, and the VDOs that name it. -/
def Obligations.VersionsFollowPartnerAndAllowance : Prop := ∀ (s : State) (d : DPort), s.canonical = true →
  (s.glb.level = 1 ∨ s.rd F.CAD_MODE_MAX_VER = 1 → s.maxVer = 1) ∧
  (s.glb.level ≠ 1 → s.rd F.CAD_MODE_MAX_VER ≠ 1 → s.maxVer = 2) ∧
  (∀ v, 1 ≤ v → (s.selVer (dport d) v).val = if bitOf (s.reg (R.CL_PARTNER (dport d))) 17 = true ∧ s.maxVer = 2 ∧ 2 ≤ v
    then 2 else 1) ∧
  (∀ w rest, s.coreUp = true → (s.port (dport d)).cl.exiting = false → (s.port (dport d)).cl.st = .discover →
    (s.port (dport d)).cl.disc = .modes → modeVdoOk w = true → ∃ (u : State) (x : Word),
      exec (.cadVdmResponse d (.ack (w :: rest))) s = .next (settled (startVdm (dport d) s.cadSvid 1 4 [x] u)) ∧
      bitsOf x 24 8 = 0xCD ∧ bitsOf x 16 2 = (u.selVer (dport d) 2).val ∧ x &&& 0x00FCFFFF = 0 ∧
      u.reg (R.CL_PARTNER (dport d)) = w ∧ u.maxVer = s.maxVer) ∧
  (s.coreUp = true → (s.port (dport d)).cl.exiting = false → (s.port (dport d)).cl.st = .discover →
    exec (.cadVdmResponse d .nak) s = .next (settled
      (s.modCl (dport d) fun l => { l with st := .noMode, cause := .nak }))) ∧
  (∀ v : Fin 4, bitsOf (attentionVdo v) 24 8 = 0xCD ∧ bitsOf (attentionVdo v) 16 2 = v.val ∧
    bitOf (attentionVdo v) 8 = true ∧ attentionVdo v &&& 0x00FCFEFF = 0) ∧
  (∀ w t, s.pdUp (dport d) = true → pdIn (dport d) false s = t → (t.port (dport d)).cl.st = .up →
    bitsOf w 24 8 = 0xCD → bitOf w 8 = true → exec (.cadAttentionRx d w) s = .next (settled (cadRetrain (dport d)
      (if bitsOf w 16 2 = 1 ∨ bitsOf w 16 2 = 2 then t.selVer (dport d) (bitsOf w 16 2) else (t.port (dport d)).cl.ver) t)))

/-- O10, tier 2. R344, R352: the answers to an ECHO that asks for one and to a DELAY_REQ. -/
def Obligations.EchoAndDelayRequestsAreAnswered : Prop := ∀ (s : State) (t : TbTime) (rx1 : BitVec 64) (l : List Byte),
  frLen l = (frPayload l).length → frLen l ≤ 64 →
  (frType l = 0x3F → frFlag l 2 = true →
    (routeMode (frRoute l) = 0 → ∀ p, ∃ r, upRx p t rx1 l s = cadSendOn p 0 r s ∧ frType r = 0x3F ∧ frSeq r = frSeq l ∧
      frLen r = frLen l ∧ frPayload r = frPayload l ∧ frFlag r 2 = false ∧ routeMode (frRoute r) = 0) ∧
    (routeMode (frRoute l) = 0 → ∃ r, puEnds t l s = cadSendOn PU 0 r s ∧ frType r = 0x3F ∧ frSeq r = frSeq l ∧
      frLen r = frLen l ∧ frPayload r = frPayload l ∧ frFlag r 2 = false ∧ routeMode (frRoute r) = 0) ∧
    (routeMode (frRoute l) ≠ 0 → ∃ r, puEnds t l s = cadSendOn PU 0 r s ∧ frType r = 0x3F ∧ frSeq r = frSeq l ∧
      frPayload r = frPayload l ∧ frFlag r 2 = false ∧ frRoute r = s.upRoute % 2 ^ 24) ∧
    (routeMode (frRoute l) ≠ 0 → upAccepted s.tier (routeMode (frRoute l)) = true → s.cadRoot = true → ∀ p, ∃ r,
      upRx p t rx1 l s = cadSendOn p 0 r s ∧ frType r = 0x3F ∧ frSeq r = frSeq l ∧ frPayload r = frPayload l ∧
      frFlag r 2 = false ∧ frRoute r = upFinish p s.tier (frRoute l) % 2 ^ 24)) ∧
  (frType l = 2 → routeMode (frRoute l) ≠ 0 → upAccepted s.tier (routeMode (frRoute l)) = true →
    s.cadTransparent = false → t.sec < 2 ^ 48 → t.ns < 2 ^ 32 → ∀ p, ∃ r, upRx p t rx1 l s =
      cadSendOn p 0 r (s.modCad fun c => { c with seqResp := c.seqResp + 1 }) ∧ frType r = 3 ∧
      beAt (frPayload r) 0 6 = t.sec ∧ beAt (frPayload r) 6 4 = t.ns ∧ beAt (frPayload r) 10 2 = frSeq l ∧
      frCorr r = frCorr l ∧ frRoute r = upFinish p s.tier (frRoute l) % 2 ^ 24 ∧ frHop r = s.tier + 1 ∧
      frFlag r 3 = false)

/-- O11, tier 2. R407: after three reaction resets within ten minutes a reaction of code 5 takes effect as 4. -/
def Obligations.ReactionResetsAreBounded : Prop := ∀ (s : State) (d : FaultDue),
  (s.recentResets.length < 3 → reactWarm d s = warmReset 9 (s.modFlt fun f => { f with resets := s.tb3 :: s.recentResets })) ∧
  (3 ≤ s.recentResets.length → reactWarm d s = safeStateAll (pushEvent 0x02 0xFF0B (BitVec.ofNat 32 d.src.code)
    (s.modFlt fun f => { f with demoted := true }))) ∧
  (∀ t, t ∈ s.recentResets ↔ t ∈ s.flt.resets ∧ s.tb3 - t ≤ 600 * 32768) ∧
  (exec .resetLoopWindowExpire s = .next (settled { s with flt := { s.flt with resets := [], demoted := false } })) ∧
  (∀ c, (warmReset c s).flt.resets = s.flt.resets ∧ (coldReset c s).flt.resets = [])

/-- O12, tier 2. R267: the check of a carving passes exactly when every rule holds; at Level 0 only buffers 0 to 2 are checked. -/
def Obligations.CarvingRulesAreChecked : Prop :=
  (∀ (pages : Nat) (retired : Nat → Bool) (c : Carving), 1 ≤ c.length → (carveCheck pages retired c = none ↔
    (2 ≤ (c.getD 0 (0, 0)).2 ∧ (c.getD 0 (0, 0)).2 ≤ 16) ∧
    (∀ e, 1 ≤ e → e < c.length → 8 ≤ (c.getD e (0, 0)).2 ∧ (c.getD e (0, 0)).2 ≤ 256) ∧
    (∀ e f, e < f → f < c.length → ∀ u, ¬ ((c.getD e (0, 0)).1 ≤ u ∧ u < (c.getD e (0, 0)).1 + (c.getD e (0, 0)).2 ∧
      (c.getD f (0, 0)).1 ≤ u ∧ u < (c.getD f (0, 0)).1 + (c.getD f (0, 0)).2)) ∧
    (∀ e, e < c.length → (c.getD e (0, 0)).1 + (c.getD e (0, 0)).2 ≤ pages * 16) ∧
    (∀ e u, e < c.length → (c.getD e (0, 0)).1 ≤ u → u < (c.getD e (0, 0)).1 + (c.getD e (0, 0)).2 →
      retired (u / 16) = false))) ∧
  (∀ (s : State) (path : Path) (v : Word) (u : State), s.reaches path R.EFN_CARVE = true →
    written path R.EFN_CARVE (setBit v 0) s = u → u.efn.st ≠ .configured → u.glb.level = 0 →
    carveCheck (u.rgnCount 0) u.retired (u.staged.take 3) = none →
      exec (.efnCarveApply path v) s = .next (settled (carveResult 0 0 (forEach epList carveTake u)))) ∧
  (∀ (s : State) (path : Path) (v : Word) (u : State) (r e : Nat), s.reaches path R.EFN_CARVE = true →
    written path R.EFN_CARVE (setBit v 0) s = u → u.efn.st ≠ .configured → u.glb.level ≠ 0 →
    carveCheck (u.rgnCount 0) u.retired u.staged = some (r, e) →
      exec (.efnCarveApply path v) s = .next (settled (carveResult r e u)))

/-- O13, tier 2. R7, R8, R423, R432, R438, R439: what a write stores in a register, field by field; what it leaves alone; a write that
meets no register; the lockring. -/
def Obligations.WritesStoreByFieldType : Prop := ∀ (s : State) (path : Path) (a : Nat) (v : Word), s.canonical = true →
  (∀ r, ownStore a = false → r.clamp = [] → regRow a = some r → (plainWrite a r v s).reg a =
    ((s.reg a &&& ~~~(v &&& r.w1c)) &&& ~~~r.rw) ||| (v &&& r.rw)) ∧
  (∀ r b, b ≠ a → (plainWrite a r v s).reg b = s.reg b) ∧
  (regRow a = none → inWindow a = false → regWrite path a v s = rearmed path a s) ∧
  (∀ b, (rearmed path a s).reg b = s.reg b) ∧
  ((rearmed path a s).path path).lockOpen = false ∧
  (∀ q, q ≠ path → ((rearmed path a s).path q).lockOpen = (s.path q).lockOpen) ∧
  (∀ r, ((v ^^^ s.currentFor path a) &&& (r.rwk ||| rwkcMask a r)) ≠ 0 → rowStored path false a r v s =
    pendWrite path { addr := a, mask := r.rwc, val := v } (plainWrite a r v (keyRefused path a s))) ∧
  (∀ q e, q ≠ path → ((pendWrite path e s).path q).pend = (s.path q).pend) ∧
  (∀ w, s.reaches path R.GLB_LOCKRING = true → Does (.glbLockringWrite path w) s fun u =>
    (u.path path).lockOpen = decide (bitsOf w 0 16 = 0x6B1C))

/-- O14, tier 2. R415 to R418: an event sets its bit and joins the queue behind the entries held; under policy 0 an ordinary entry is
accepted only while two slots are free, else a LOST entry takes the last slot; nothing else of the hub changes. -/
def Obligations.EventsJoinTheQueueInOrder : Prop := ∀ (s : State) (src : Byte) (code : BitVec 16) (det : Word),
  s.canonical = true →
  (∀ p, s.evqUp = true → s.evq.lostNext = 0 → s.rdB F.EVQ_CTRL_POLICY = false → s.evq.held.length + 2 ≤ s.evqCap →
    s.evq.wr % 64 ≠ 0 → s.evq.pages[s.evq.wr / 64]? = some p → s.i2cP.popWait = false → s.usbP.popWait = false →
    (pushEvent src code det s).evq.held = s.evq.held ++ [⟨p * 1024 + s.evq.wr % 64 * 16, none⟩]) ∧
  (∀ p rest m, s.evqUp = true → s.evq.lostNext = 0 → s.rdB F.EVQ_CTRL_POLICY = false →
    s.evq.held.length + 1 = s.evqCap → s.evq.held = rest ++ [m] → m.lost = none →
    s.evq.wr % 64 ≠ 0 → s.evq.pages[s.evq.wr / 64]? = some p → s.i2cP.popWait = false → s.usbP.popWait = false →
    (pushEvent src code det s).evq.held = s.evq.held ++ [⟨p * 1024 + s.evq.wr % 64 * 16, some 1⟩]) ∧
  (s.evqUp = false → s.evq.aonBuf.length < 16 → (pushEvent src code det s).evq =
    { s.evq with aonBuf := s.evq.aonBuf ++ [{ source := src, code := code, detail := det, at_ := s.tb0 }] }) ∧
  (∀ u, pushEvent src code det s = u → u.glb = s.glb ∧ u.pwr = s.pwr ∧ u.flt = s.flt ∧ u.nvm = s.nvm ∧ u.feed = s.feed ∧
    u.pmb = s.pmb ∧ u.tim = s.tim ∧ u.cad = s.cad ∧ u.mt = s.mt ∧ u.ports = s.ports ∧ u.pending = s.pending ∧
    ∀ b, b ≠ R.EVQ_LOST → u.reg b = s.reg b) ∧
  (∀ a k, a ≠ R.EVQ_LOST → (raiseEvt a k det s).reg a = setBit (s.reg a) k)

/-- O15, tier 2. R201, R333, R335, R427: a checksum checks itself. A message with its PEC has PEC 0; a frame as sent passes the
receiver's checks, and with POISON it is found poisoned. -/
def Obligations.ChecksumsCheckThemselves : Prop :=
  (∀ l : List Byte, pec (l ++ [pec l]) = 0) ∧
  (∀ l : List Byte, l.length = 18 + frLen l → frLen l ≤ 64 → frFlag l 0 = false → rxCheck true (sealFrame false l) = .good) ∧
  (∀ l : List Byte, l.length = 18 + frLen l → frLen l ≤ 64 → rxCheck true (sealFrame true l) = .poison)

/-- O16, tier 1. R40, R41, R43, R25: the first supply found good starts the ladder with its cause; RESET_N low and a brown-out of VAUX5
restart it with theirs. -/
def Obligations.SuppliesAndResetsStartTheLadder : Prop := ∀ s : State, s.canonical = true →
  (∀ (vin puVbus vtan : Nat) (rp : CcTerm) (straps : BitVec 3) (c : Nat) (v : VauxSource), s.glb.phase = .unpowered →
    (33000 ≤ vin ∧ c = 1 ∧ v = .buck ∨
      vin < 33000 ∧ 4400 ≤ puVbus ∧ (rp = .rp15 ∨ rp = .rp30) ∧ c = 2 ∧ v = .puVbus ∨
      vin < 33000 ∧ ¬(4400 ≤ puVbus ∧ (rp = .rp15 ∨ rp = .rp30)) ∧ 4400 ≤ vtan ∧ c = 3 ∧ v = .vtan) →
    Does (.supplyGoodEval vin puVbus vtan rp straps) s fun u => u.glb.phase = .ldos ∧ u.glb.straps = straps ∧
      u.pwr.vaux = v ∧ u.rd F.GLB_RST_CAUSE_CAUSE = (if s.rd F.GLB_RST_CAUSE_CAUSE = 5 then 5 else c) ∧
      u.ports = s.ports ∧ u.sto = s.sto ∧ u.nvm = s.nvm) ∧
  (s.aonUp = true → Does .resetNLow s fun u => u.glb.phase = .ldos ∧ u.rd F.GLB_RST_CAUSE_CAUSE = 4 ∧
    u.rd F.GLB_RST_CAUSE_PORT = 0xFF ∧ u.pwr.vaux = s.supplyNow ∧ u.sto = {} ∧ (∀ p, u.port p = {}) ∧
    u.nvm.flash = s.nvm.flash ∧ u.nvm.otp = s.nvm.otp) ∧
  (s.aonUp = true → s.supplyNow ≠ .none → Does .vaux5Brownout s fun u => u.glb.phase = .ldos ∧
    u.rd F.GLB_RST_CAUSE_CAUSE = 5 ∧ u.pwr.vaux = s.supplyNow ∧ u.sto = {} ∧ (∀ p, u.port p = {})) ∧
  (s.aonUp = true → s.supplyNow = .none → s.feed.tandem = false → Does .vaux5Brownout s fun u =>
    u.glb.phase = .unpowered ∧ u.rd F.GLB_RST_CAUSE_CAUSE = 5 ∧ (∀ p, u.port p = {}) ∧ u.nvm.flash = s.nvm.flash)

/-- O17, tier 1. R25, R40, R439: GLB_RESET, written with the lockring open, begins the cold reset, cause 7, or the warm reset, cause 8; COLD goes before WARM. -/
def Obligations.ResetRegisterStartsTheResets : Prop := ∀ (s : State) (path : Path) (v : Word),
  s.reaches path R.GLB_RESET = true → (s.path path).lockOpen = true →
  exec (.glbResetCold path v) s = .next (settled (coldReset 7 (written path R.GLB_RESET (setBit v 1) s))) ∧
  (bitOf v 1 = false → exec (.glbResetWarm path v) s =
    .next (settled (warmReset 8 (written path R.GLB_RESET (setBit v 0) s))))

/-- O18, tier 1. R20 to R23, R26, R210, R401: the start ladder goes from the LDOs to X24, VDDC, the fill and the loader. -/
def Obligations.LadderPhasesFollowInOrder : Prop := ∀ s : State,
  (s.glb.phase = .ldos → exec .internalLdosReady s = .next (settled { s with
    glb := { s.glb with phase := .x24 },
    pwr := { s.pwr with ldosOk := true, x24Run := true, rc8Run := true, afeOn := s.pwr.vaux != .vtan } })) ∧
  (s.pwr.x24Run = true → s.pwr.x24Ready = false → s.glb.phase = .x24 → exec .x24Ready s = .next (settled { s with
    glb := { s.glb with phase := .vddc }, pwr := { s.pwr with x24Ready := true, pmbCtrl := true } })) ∧
  (s.coreUp = true → s.pwr.x24Run = true → Does .x24Stop s fun u => u.flt.x24Stop = true ∧ u.pwr.x24Ready = false ∧
    (∃ d ∈ u.flt.due, d.src = .x24Stop) ∧ u.regs = s.regs ∧ u.sto = s.sto ∧ u.ports = s.ports) ∧
  (s.aonUp = true → s.tim.x32Rc = false → Does .x32CrystalFail s fun u => u.tim.x32Rc = true ∧ u.tim.tb3 = s.tim.tb3 ∧
    (∃ d ∈ u.flt.due, d.src = .x32Rc) ∧ u.ports = s.ports) ∧
  (s.glb.phase = .vddc → s.pwr.pmbCtrl = true → s.flt.wakeHold = false → exec (.vddcTurnOnDone .ok) s =
    .next (settled { s with glb := { s.glb with phase := .fill }, pwr := { s.pwr with vddcOn := true } })) ∧
  (∀ (r : VddcResult) (c : WakeFailCause), s.glb.phase = .vddc → s.pwr.pmbCtrl = true → vddcCause r = some c →
    s.canonical = true → Does (.vddcTurnOnDone r) s fun u => u.glb.phase = .x24 ∧ u.pwr.pmbCtrl = false ∧
      u.pwr.x24Run = false ∧ u.rd F.PWR_WAKE_REC_FAIL_CAUSE = WakeFailCode c ∧ u.sto = s.sto ∧ u.ports = s.ports) ∧
  (s.glb.phase = .fill → Does .storeFillDone s fun u => u.glb.phase = .loader ∧ u.glb.loading = true ∧
    u.pwr.dphyA = true ∧ u.pwr.dphyB = true ∧ u.sto.fillDone = true)

/-- O19, tier 1. R44, R46, R50, R52, R59, R60: the loader reads the headers, judges the candidates, and the hub reaches its service
level. -/
def Obligations.LoaderAndServiceLevelFollowTheImage : Prop := ∀ s : State,
  (∀ jedec content, s.glb.phase = .loader → s.glb.causeDone = false → jedec ≠ 0 → jedec ≠ 0xFFFFFF →
    Does (.flashHeadersRead jedec content) s fun u => u.nvm.jedec = jedec ∧ u.glb.causeDone = true ∧ u.glb.phase = .loader) ∧
  (∀ jedec content, s.glb.phase = .loader → s.glb.causeDone = false → (jedec = 0 ∨ jedec = 0xFFFFFF) →
    Does (.flashHeadersRead jedec content) s fun u => u.nvm.jedec = jedec ∧ u.nvm.order = [] ∧ u.glb.phase = .converters ∧
      u.glb.loading = false) ∧
  (∀ x rest, s.glb.phase = .loader → s.nvm.order = x :: rest → slotCheck1 s x = 0 → s.signedMode = true →
    exec .slotValidated s = .next (settled { s with glb := { s.glb with phase := .signature } })) ∧
  (∀ x rest, s.glb.phase = .loader → s.nvm.order = x :: rest → slotCheck1 s x ≠ 0 → rest ≠ [] → s.canonical = true →
    Does .slotValidated s fun u => u.nvm.order = rest ∧ u.glb.phase = .loader ∧
      u.rd (if x = .a then F.NVM_LOAD_A_RESULT else F.NVM_LOAD_B_RESULT) = slotCheck1 s x % 16) ∧
  (∀ x rest, s.glb.phase = .loader → s.nvm.order = x :: rest → slotCheck1 s x = 0 → s.signedMode = false →
    slotCheck3 s x = 0 → Does .slotValidated s fun u => u.glb.phase = .converters ∧ u.glb.loading = false) ∧
  (∀ x rest, s.glb.phase = .signature → s.nvm.order = x :: rest → slotCheck2 s x ≠ 0 → rest ≠ [] → s.canonical = true →
    Does .signatureVerified s fun u => u.nvm.order = rest ∧ u.glb.phase = .loader ∧
      u.rd (if x = .a then F.NVM_LOAD_A_RESULT else F.NVM_LOAD_B_RESULT) = slotCheck2 s x % 16) ∧
  (∀ x rest, s.glb.phase = .signature → s.nvm.order = x :: rest → slotCheck2 s x = 0 → slotCheck3 s x = 0 →
    Does .signatureVerified s fun u => u.glb.phase = .converters ∧ u.glb.loading = false) ∧
  (s.glb.phase = .converters → s.offsPending = false → exec .ladderConvertersOff s =
    .next (settled (portsStart (setLevel (if s.img.applied then 1 else 0) { s with glb := { s.glb with phase := .up } })))) ∧
  (s.level2Ok = true → exec .levelUpTo2 s = .next (settled (forEach (setLevel 2 s).feed.formerTandem
    (fun p => pdPrSwapStart (dport p)) ((setLevel 2 s).modFeed fun x => { x with formerTandem := [] })))) ∧
  (s.dyn.bridge = true → exec .bridgeModeEnd s = .next (settled { s with
    dyn := { s.dyn with bridge := false }, pwr := { s.pwr with vaux := .buck } })) ∧
  (s.dynRuns = true → exec .dynNoEpr s = .next (settled (pushEvent 0x20 0xFF07 0 (ppOff PU (dynEnd 2 s)))))

/-- O20, tier 1. R54, R55, R56, R72, R73, R487: a keyed write of NVM_CMD starts the operation it names, and the operation's end has its
effect. That an operation ended by TIMEOUT leaves the flash as it was is the model's choice
(log entry 49). -/
def Obligations.FlashOperationsStartAndEnd : Prop := ∀ s : State,
  (∀ (path : Path) (v : Word), s.reaches path R.NVM_CMD = true → (s.path path).lockOpen = true →
    (∀ x ∈ [(Instr.nvmRead path v, 1), (.nvmProgram path v, 2), (.nvmErase4k path v, 3), (.nvmErase64k path v, 4),
      (.nvmVerifySlot path v, 5), (.nvmReadId path v, 6), (.nvmOtpProgram path v, 7)], exec x.1 s =
        .next (settled (nvmCmd (putBits v 0 4 x.2) (written path R.NVM_CMD (putBits v 0 4 x.2) s)))) ∧
    exec (.nvmBadOp path v) s = .next (settled (nvmCmd (setBit v 3) (written path R.NVM_CMD (setBit v 3) s)))) ∧
  (∀ j st a l, s.nvm.op = some (.program a l) → exec (.nvmOpDone j st) s = .next (settled (nvmResult 0 { s with
    nvm := { s.nvm with op := none, flash := flashProgram a l s.nvm.flash } }))) ∧
  (∀ j st a n, s.nvm.op = some (.erase a n) → exec (.nvmOpDone j st) s = .next (settled (nvmResult 0 { s with
    nvm := { s.nvm with op := none, flash := flashErase a n s.nvm.flash } }))) ∧
  (∀ j st k d, s.nvm.op = some (.otpProgram k d) → exec (.nvmOpDone j st) s = .next (settled (nvmResult
    (if d &&& ~~~ (s.otpWord k ||| (d &&& ~~~ st)) = 0 then 0 else 3) { s with
      nvm := { s.nvm with op := none, otp := s.nvm.otp.set otpReset k (s.otpWord k ||| (d &&& ~~~ st)) } }))) ∧
  (∀ j st x, s.nvm.op = some (.verifySlot x) → s.canonical = true → Does (.nvmOpDone j st) s fun u => u.nvm.op = none ∧
    u.rd F.NVM_STATUS_RESULT = (if slotResult s x = 0 then 0 else 3) ∧
    u.rd F.NVM_STATUS_VERDICT = slotResult s x % 16 ∧ u.nvm.flash = s.nvm.flash) ∧
  (∀ j st, s.nvm.op = some .readId → Does (.nvmOpDone j st) s fun u => u.nvm.op = none ∧ u.nvm.jedec = j ∧
    u.nvm.flash = s.nvm.flash ∧ u.sto = s.sto) ∧
  (∀ j st a n, s.nvm.op = some (.read a n) → Does (.nvmOpDone j st) s fun u => u.nvm.op = none ∧
    u.nvm.flash = s.nvm.flash ∧ u.sto = s.sto) ∧
  (∀ op, s.nvm.op = some op → op.timed = true → exec .nvmOpTimeout s =
    .next (settled (nvmResult 2 { s with nvm := { s.nvm with op := none } }))) ∧
  (∀ p k, s.nvm.op = none → s.nvm.causeErase = false → s.nvm.causePend = some p → s.causeBlank = some k →
    exec .causeRecordProgrammed s = .next (settled { s with nvm := { s.nvm with
      flash := flashProgram (causeBase + 16 * k) (causeBytes p s.tb0.sec) s.nvm.flash, causePend := none } })) ∧
  (s.causeEraseDue = true → exec .causeAreaEraseStart s =
    .next (settled { s with nvm := { s.nvm with causeErase := true } })) ∧
  (s.nvm.causeErase = true → exec .causeAreaEraseDone s = .next (settled { s with
    nvm := { s.nvm with flash := flashErase causeBase 4096 s.nvm.flash, causeErase := false } })) ∧
  (∀ b l, s.pwr.reload.getLsbD b.val = true → s.coreUp = true → s.reloadSlot = some l → exec (.retentionReloadDone b) s =
    .next (settled (forEach (bankPorts b.val) portApplyDisable ((commit .loader 0x7FF (forEach (s.bankOps b l) opRun s)).modPwr
      fun x => { x with reload := x.reload &&& ~~~ BitVec.ofNat 4 (2 ^ b.val) }))))

/-- O21, tier 1. R56, R69, R72, R73: what a keyed write of NVM_CMD starts or why it is refused. -/
def Obligations.FlashCommandsRefuseOrBegin : Prop := ∀ (s : State) (v : Word), s.canonical = true →
  (s.nvmRefuses = true → (nvmCmd v s).rd F.NVM_STATUS_RESULT = 4 ∧ (nvmCmd v s).nvm = s.nvm) ∧
  (s.nvmRefuses = false → bitsOf v 0 4 = 1 → 1 ≤ s.rd F.NVM_LEN_LEN → s.rd F.NVM_LEN_LEN ≤ 256 →
    (nvmCmd v s).nvm.op = some (.read (s.rd F.NVM_ADDR_ADDR) (s.rd F.NVM_LEN_LEN)) ∧
      (nvmCmd v s).rd F.NVM_STATUS_RESULT = 0) ∧
  (s.nvmRefuses = false → s.feed.tandem = false → bitsOf v 0 4 = 3 →
    s.inActive (s.rd F.NVM_ADDR_ADDR / 4096 * 4096) 4096 = false →
    (nvmCmd v s).nvm.op = some (.erase (s.rd F.NVM_ADDR_ADDR / 4096 * 4096) 4096)) ∧
  (s.nvmRefuses = false → s.feed.tandem = false → bitsOf v 0 4 = 3 →
    s.inActive (s.rd F.NVM_ADDR_ADDR / 4096 * 4096) 4096 = true →
    (nvmCmd v s).nvm.op = s.nvm.op ∧ (nvmCmd v s).rd F.NVM_STATUS_RESULT = 1) ∧
  (s.nvmRefuses = false → bitsOf v 0 4 = 5 →
    (nvmCmd v s).nvm.op = some (.verifySlot (if bitOf v 8 then .b else .a))) ∧
  (s.nvmRefuses = false → bitsOf v 0 4 = 6 → (nvmCmd v s).nvm.op = some .readId) ∧
  (s.nvmRefuses = false → s.feed.tandem = true → bitsOf v 0 4 = 2 → (nvmCmd v s).nvm.op = s.nvm.op ∧
    (nvmCmd v s).rd F.NVM_STATUS_RESULT = 7) ∧
  (s.nvmRefuses = false → 8 ≤ bitsOf v 0 4 → (nvmCmd v s).nvm.op = s.nvm.op ∧
    (nvmCmd v s).rd F.NVM_STATUS_RESULT = 5)

/-- O22, tier 1. R75, R76, R78, R79, R82, R92: windows, qualification and the triggers that break or lose the ACTIVE feed. -/
def Obligations.FeedWindowsAndLossMoveTheFeeds : Prop := ∀ s : State,
  (∀ f, s.aonUp = true → (s.line f).st = .absent → s.mayQualify f = true → Does (.feedWindowEnter f) s fun u =>
    (u.line f).st = .qualifying ∧ (u.line f).inWindow = true ∧ u.ports = s.ports ∧ u.regs = s.regs ∧ u.sto = s.sto ∧
      ∀ g, g ≠ f → u.line g = s.line g) ∧
  (∀ f, (s.line f).st = .qualifying ∨ (s.line f).st = .ready → Does (.feedWindowExit f) s fun u =>
    (u.line f).st = .absent ∧ (u.line f).inWindow = false ∧ u.ports = s.ports ∧ u.regs = s.regs ∧ u.sto = s.sto ∧
      ∀ g, g ≠ f → u.line g = s.line g) ∧
  (∀ f, (s.line f).st = .active → Does (.feedWindowExit f) s fun u =>
    (u.line f).st = .active ∧ (u.line f).inWindow = false ∧ u.ports = s.ports) ∧
  (∀ f, (s.line f).st = .qualifying → (s.line f).inWindow = true →
    exec (.feedQualified f) s = .next (settled (feedReady f s))) ∧
  (∀ f g, s.activeFeed = some g → (s.line f).st = .ready → s.feedRank f < s.feedRank g → s.feed.switching = false →
    s.rd F.FEED_CTRL_REVERT ≠ 0 → exec (.feedRevertExpire f) s = .next (settled (feedBreak g .ready s))) ∧
  (∀ vin f, vin < 31000 → s.aonUp = true → s.activeFeed = some f → exec (.vinUvlo vin) s =
    .next (settled (feedBreak f .absent (vauxFall { s with feed := { s.feed with vin := vin, below36 := true } })))) ∧
  (∀ vin, vin < 31000 → s.aonUp = true → s.activeFeed = none → s.feed.failed = none → s.feed.switching = false →
    s.feed.totalLoss = false → exec (.vinUvlo vin) s =
      .next (settled (totalLossNow (vauxFall { s with feed := { s.feed with vin := vin, below36 := true } })))) ∧
  (∀ f, s.activeFeed = some f → exec .feedReverseCurrent s = .next (settled (feedBreak f .absent s))) ∧
  (∀ f g, s.feed.below36 = true → (levelDown (rdTrack (s.modFeed fun x => { x with below36Held := true }))).activeFeed = some f →
    (levelDown (rdTrack (s.modFeed fun x => { x with below36Held := true }))).feedPick = some g →
    exec .vinBrownoutHoldExpire s = .next (settled (feedBreak f .absent
      (levelDown (rdTrack (s.modFeed fun x => { x with below36Held := true })))))) ∧
  (∀ vin, 36000 ≤ vin → s.aonUp = true → exec (.vin36vCrossing true vin) s = .next (settled (rdTrack { s with
    feed := { s.feed with vin := vin, below36 := false, below36Held := false }, pwr := { s.pwr with vaux := .buck } }))) ∧
  (∀ vin, vin < 36000 → exec (.vin36vCrossing false vin) s =
    .next (settled { s with feed := { s.feed with vin := vin, below36 := true } })) ∧
  (∀ f, (s.line f).st = .tripped ∨ (s.line f).st = .cooldown → exec (.feedCooldownExpire f) s = .next (settled
    (s.modLine f fun l => { l with st := if s.feedEn (feedCode f) then .absent else .disabled }))) ∧
  (∀ path v, s.reaches path R.FEED_UNLOCK = true → (s.path path).lockOpen = true → exec (.feedUnlock path v) s =
    .next (settled (feedUnlock v (written path R.FEED_UNLOCK v s))))

/-- O23, tier 1. R80 to R85: a switchover breaks before it makes, a pair that conducts takes over the bus, and a pair that fails trips or
locks its feed. -/
def Obligations.SwitchoversBreakBeforeMake : Prop := ∀ s : State,
  (∀ f, s.feed.switching = true → s.feed.old = some f → exec .switchoverOldOff s = .next (settled (rdTrack (feedChoose
    ((s.line f).st != .active) (feedSettleOld f s.feed.oldNext
      { s with feed := { s.feed with sel := none, old := none } }))))) ∧
  (∀ f, s.feed.switching = true → s.feed.old = some f → exec (.switchoverConfirmTimeout true) s = .next (settled
    (feedLockNow f .shortedPass
      { s with feed := { s.feed with switching := false, old := none, new_ := none, failed := some f } }))) ∧
  (∀ f, s.feed.switching = true → s.feed.old = some f → exec (.switchoverConfirmTimeout false) s = .next (settled
    (totalLossNow (feedLockNow f .shortedPass
      { s with feed := { s.feed with switching := false, old := none, new_ := none, failed := none } })))) ∧
  (∀ f, (s.line f).st = .active → (s.line f).gate = .charging → s.breaking = false → exec (.feedPairConducts f) s =
    .next (settled (feedConducts f (if (s.line f).live then { s with pwr := { s.pwr with vaux := .buck } } else s)))) ∧
  (∀ f, (s.line f).st = .active → (s.line f).gate = .conducting → s.breaking = false → Does (.feedPairFullyOn f) s fun u =>
    (u.line f).gate = .full ∧ u.feed.switching = false ∧ u.regs = s.regs ∧ u.sto = s.sto ∧
      ∀ p, p ≠ PU → u.port p = s.port p) ∧
  (∀ f, (s.line f).st = .active → (s.line f).live = true → (s.line f).gate ≠ .full → s.breaking = false →
    exec (.feedLiveTurnonTimeout f) s = .next (settled (feedTripNow f .gate s))) ∧
  (∀ f, (s.line f).st = .active → (s.line f).live = false → (s.line f).rampEnded = false → s.breaking = false →
    (s.line f).gate = .charging → exec (.feedRampEnd f) s = .next (settled (feedConducts f
      ((s.modLine f fun l => { l with rampEnded := true }).modPwr fun x => { x with vaux := .buck })))) ∧
  (∀ f, (s.line f).st = .active → (s.line f).live = false → (s.line f).gate ≠ .full → s.breaking = false →
    exec (.feedGateCheckFail f) s = .next (settled (feedBreak f .locked (s.modLine f fun l => { l with cause := .gate })))) ∧
  (∀ f g, (s.line f).st ≠ .active → (s.line f).st ≠ .locked → s.activeFeed = some g → exec (.feedShortedPass f) s =
    .next (settled (feedLockNow f .shortedPass s))) ∧
  (∀ f c, f ≠ .fc → (s.line f).st = .active → s.breaking = false → exec (.feedTrip f c) s =
    .next (settled (feedTripNow f (feedTripCause c) s))) ∧
  (∀ c, exec (.feedTrip .fc c) s = .next (settled (pathTrip PU (puTripCause c) s)))

/-- O24, tier 1. R15, R88 to R95, R98 to R100, R140: overvoltage, the bell, DEGRADED, the tandem state and the aux outputs. -/
def Obligations.BellTandemAndAuxOutputsFollowTheSupply : Prop := ∀ s : State,
  (∀ vin, 78000 < vin → vin ≤ 100000 → s.aonUp = true → s.flt.vinOv = false → Does (.vinOvervoltage vin) s fun u =>
    u.feed.vin = vin ∧ u.flt.vinOv = true ∧ (∃ d ∈ u.flt.due, d.src = .vinOv) ∧ u.ports = s.ports ∧ u.regs = s.regs) ∧
  (∀ vin, 100000 < vin → exec (.vinOvervoltage vin) s = .fault .stressBeyondRating) ∧
  (∀ vin, vin < s.warnMv → s.aonUp = true → exec (.bellRing vin) s =
    .next (settled (bellNow { s with feed := { s.feed with vin := vin } }))) ∧
  (∀ vin dur, s.feed.bell = true → s.warnMv + 1000 < vin → exec (.bellClear vin dur) s = .next (settled
    (raiseEvt R.FEED_EVT 1 (BitVec.ofNat 32 dur) ((sendBells true
      { s with feed := { s.feed with vin := vin, bell := false } }).setReg R.FEED_BELL_DUR (BitVec.ofNat 32 dur))))) ∧
  (s.feed.bell = true → s.feed.degraded = false → exec .degradedSet s = .next (settled
    (bmRecompute (feedEvt 9 { s with feed := { s.feed with degraded := true } })))) ∧
  (s.feed.degraded = true → s.feed.bell = false → exec .degradedClear s = .next (settled
    (bmRecompute { s with feed := { s.feed with degraded := false } }))) ∧
  (∀ vtan, s.feed.totalLoss = true → s.feed.tandem = false → 4400 ≤ vtan → s.feedEn 3 = true → s.puHolds = false →
    exec (.tandemEnter vtan) s = .next (settled (rdTrack (feedEvt 4 (levelDown { s with
      feed := { s.feed with vtan := vtan, ftPresent := true, tandem := true },
      pwr := { s.pwr with vaux := .vtan, afeOn := false } }))))) ∧
  (∀ vtan, s.aonUp = true → Does (.ftPresentChange vtan) s fun u => u.feed.vtan = vtan ∧
    u.feed.ftPresent = (decide (4400 ≤ vtan) && s.feedEn 3) ∧ u.regs = s.regs ∧ u.ports = s.ports ∧ u.sto = s.sto) ∧
  (∀ a vsns, (s.ax a).offCheck = true → 3000 ≤ vsns → s.feed.tandem = false → exec (.axOffVsnsCheck a vsns) s =
    .next (settled (axLock a .shortedPass (feedEvt 7 (s.modAx a fun x => { x with offCheck := false }))))) ∧
  (∀ a vsns, (s.ax a).offCheck = true → (vsns < 3000 ∨ s.feed.tandem = true) → exec (.axOffVsnsCheck a vsns) s =
    .next (settled (s.modAx a fun x => { x with offCheck := false }))) ∧
  (∀ a, (s.ax a).st = .on ∨ (s.ax a).st = .limit → exec (.axPgoodRelease a) s =
    .next (settled (s.modAx a fun x => { x with pgood := x.pgood || x.gateFull })))

/-- O25, tier 1. R98, R103, R106, R108, R110, R112: a path goes through RAMP, ON and LIMIT. -/
def Obligations.PathsRampConductAndLimit : Prop := ∀ s : State,
  (∀ p v, p ≠ PU → s.rampReady p v = true → Does (.pathRampStart (.port p) v) s fun u => (u.port p).pp.st = .ramp ∧
    (u.port p).pp.rampRef = v ∧ (u.port p).pp.brk = 0 ∧ (u.port p).pp.soa = 0 ∧
    (u.port p).pp.retries = (s.port p).pp.retries ∧ u.regs = s.regs ∧ u.sto = s.sto ∧ ∀ q, q ≠ p → u.port q = s.port q) ∧
  (∀ v, s.rampReady PU v = true → Does (.pathRampStart (.port PU) v) s fun u => (u.port PU).pp.st = .ramp ∧
    (u.port PU).pp.rampRef = 0 ∧ u.regs = s.regs ∧ ∀ q, q ≠ PU → u.port q = s.port q) ∧
  (∀ a v, s.axRampReady a = true → exec (.pathRampStart (.ax a) v) s =
    .next (settled (s.modAx a fun x => { x with st := .ramp, backoffDone := false, offCheck := false }))) ∧
  (∀ p, p ≠ PU → (s.port p).pp.st = .ramp → exec (.pathRampDone (.port p)) s = .next (settled (portOn p s))) ∧
  ((s.port PU).pp.st = .ramp → s.dyn.step ≠ .ramp → exec (.pathRampDone (.port PU)) s =
    .next (settled (s.modPp PU fun x => { x with st := .on }))) ∧
  (∀ a, (s.ax a).st = .ramp → exec (.pathRampDone (.ax a)) s =
    .next (settled (s.modAx a fun x => { x with st := .on, gateFull := true }))) ∧
  (∀ p, (s.port p).pp.st = .on → exec (.pathLimitEnter (.port p)) s =
    .next (settled (ppEvt p 2 (s.modPp p fun x => { x with st := .limit })))) ∧
  (∀ a, (s.ax a).st = .on → exec (.pathLimitEnter (.ax a)) s =
    .next (settled (notice .prot none (s.modAx a fun x => { x with st := .limit, gateFull := false })))) ∧
  (∀ p, (s.port p).pp.st = .limit → exec (.pathLimitExit (.port p)) s =
    .next (settled (s.modPp p fun x => { x with st := .on }))) ∧
  (∀ a, (s.ax a).st = .limit → exec (.pathLimitExit (.ax a)) s =
    .next (settled (s.modAx a fun x => { x with st := .on, gateFull := true }))) ∧
  (∀ p, (s.port p).pp.st = .on → exec (.retryCountReset (.port p)) s =
    .next (settled (s.modPp p fun x => { x with retries := 0 }))) ∧
  (∀ a, (s.ax a).st = .on → exec (.retryCountReset (.ax a)) s =
    .next (settled (s.modAx a fun x => { x with retries := 0 }))) ∧
  (∀ p, (s.port p).pp.st = .cooldown → exec (.backoffExpire (.port p)) s =
    .next (settled (s.modPp p fun x => { x with backoffDone := true }))) ∧
  (∀ a, (s.ax a).st = .cooldown → exec (.backoffExpire (.ax a)) s =
    .next (settled (s.modAx a fun x => { x with backoffDone := true })))

/-- O26, tier 1. R103, R109, R111, R114, R118, R121 to R127: what trips a path, what locks it, and what follows. -/
def Obligations.PathsTripCoolAndLock : Prop := ∀ s : State,
  (∀ p, exec (.pathFastTrip (.port p)) s = .next (settled (pathTrip p .fastTrip s))) ∧
  (∀ a, (s.ax a).st.conducting = true → exec (.pathFastTrip (.ax a)) s = .next (settled (feedEvt 8 (s.modAx a fun x =>
    { x with st := .tripped, cause := .fastTrip, counted := true, pgood := false, gateFull := false, offCheck := true })))) ∧
  (∀ p k, s.brkTh (.port p) k ≠ 0 → exec (.brakeTimerExpire (.port p) k) s =
    .next (settled (pathTrip p .brakeCurve s))) ∧
  (∀ p k, s.brkTh (.port p) k = 0 → exec (.brakeTimerExpire (.port p) k) s = .next (settled s)) ∧
  (∀ p, (s.port p).pp.st = .ramp ∨ (s.port p).pp.st = .limit → exec (.soaBudgetExhausted (.port p)) s =
    .next (settled (pathTrip p .soaBudget
      (s.modPp p fun x => { x with soa := s.rd (F.PP_BRKCFG_SOA_MJ p) * 4000000000 })))) ∧
  (∀ p, p ≠ PU → (s.port p).pp.st = .ramp → exec (.rampTimeout p) s = .next (settled (pathTrip p .rampTimeout s))) ∧
  (∀ p c, (s.port p).pp.st.conducting = true → pathTrip p c s =
    ocTrack p (pdPathTrip p (pdEndContract p (ppTripState p c s)))) ∧
  (∀ p, p ≠ PU → (s.port p).pp.st = .ramp → exec (.rampOvershoot p) s =
    .next (settled (ppShortedOff p (ppEvt p 5 (pathLock p .shortedPass s))))) ∧
  (∀ p, p ≠ PU → (s.port p).pp.st = .on → (s.port p).pp.gateCheck = true → exec (.gateCheckFail p) s =
    .next (settled (pathLock p .gate (ppEvt p 4 s)))) ∧
  (∀ p, (s.port p).pp.check = true → s.ppSuppress p = false → (s.port p).pp.st = .off → exec (.outputPresentFail p) s =
    .next (settled (ppShortedOff p (ppEvt p 5 (pathLock p .shortedPass (s.modPp p fun x => { x with check := false })))))) ∧
  (∀ p, (s.port p).pp.st = .tripped → (s.port p).pp.counted = true →
    s.rd (F.PP_CTRL_RETRY_CNT p) ≤ (s.port p).pp.retries.val → exec (.pathDischarged (.port p)) s =
      .next (settled (pathLock p (s.port p).pp.cause s))) ∧
  (∀ p, (s.port p).pp.st = .tripped → (s.port p).pp.counted = false → (s.port p).pp.offPend = false → s.conv p = none →
    exec (.pathDischarged (.port p)) s =
      .next (settled (s.modPp p fun x => { x with st := .cooldown, backoffDone := false }))) ∧
  (∀ a, (s.ax a).st = .tripped → exec (.pathDischarged (.ax a)) s = .next (settled (axCool a s))) ∧
  (∀ path p v, s.reaches path (R.PP_UNLOCK p) = true → (s.path path).lockOpen = true → exec (.ppUnlock path p v) s =
    .next (settled (ppUnlock p (written path (R.PP_UNLOCK p) (setBit v 0) s)))) ∧
  (∀ p, (s.port p).pp.st = .locked → (ppUnlock p s).ports[p].pp.st = .off)

/-- O27, tier 1. R128 to R132, R288: a sample, a snapshot, a read of an energy counter and a tick of the stream. -/
def Obligations.MetersSampleSnapAndLatch : Prop := ∀ s : State,
  (∀ v i, s.pwr.afeOn = true → s.aonUp = true → Does (.meterSample v i) s fun u => u.regs = s.regs ∧ u.sto = s.sto ∧
    (∀ k : Fin 21, u.mt.m[k] = Meter.take s.mt.m[k] (unitMv k) (v.getD k.val 0) (i.getD k.val 0)) ∧
    ∀ p, (u.port p).pp.st = (s.port p).pp.st) ∧
  (∀ v i, s.pwr.afeOn = false → exec (.meterSample v i) s = .next (settled s)) ∧
  (0 < s.mt.snapPend → s.pwr.afeOn = true → exec .snapshotTaken s = .next (settled (snapshot s))) ∧
  (∀ path m, s.reaches path (mtBase m + 0x18) = true → exec (.mtELoRead path m) s = .next (settled
    (latchSeq path (mtBase m + 0x1C) [BitVec.ofNat 32 (s.mt.m[m].energy.toNat / 2 ^ 32)] (leaveIdle s)))) ∧
  (s.rdB F.EFN_MTR_CTRL_EN = true → s.rd F.EFN_MTR_CTRL_TICK ≠ 0 → s.coreUp = true → exec .meterTick s = .next (settled
    (streamPut false ((s.bumpWrap F.EFN_MTR_STAT_TICKSEQ).rd F.EFN_MTR_STAT_TICKSEQ) s.tb0
      (s.bumpWrap F.EFN_MTR_STAT_TICKSEQ))))

/-- O28, tier 1. R135 to R151, R158: attach, the Try sequences, detach and error recovery of a port. -/
def Obligations.AttachAndDetachFollowTheTerminations : Prop := ∀ s : State,
  (∀ p st, ((tcEnter p st s).port p).tc.st = st ∧
    ((tcEnter p st s).port p).tc.rp = if st.presentsRp then s.rpAdv p else 0) ∧
  (∀ p c1 c2, s.tcUp = true → (s.port p).tc.st = .unattachedSnk → (ccIsRp c1 != ccIsRp c2) = true →
    exec (.tcCcChange p c1 c2) s =
      .next (settled (tcEnter p .attachWaitSnk (s.modTc p fun t => { t with cc1 := c1, cc2 := c2 })))) ∧
  (∀ p c1 c2, s.tcUp = true → (s.port p).tc.st = .trySrc → ((c1 == .rd) != (c2 == .rd)) = true →
    exec (.tcCcChange p c1 c2) s =
      .next (settled (attachSrc p (s.modTc p fun t => { t with cc1 := c1, cc2 := c2 })))) ∧
  (∀ p c1 c2, s.tcUp = true → (s.port p).tc.st = .disabled → Does (.tcCcChange p c1 c2) s fun u =>
    (u.port p).tc.st = .disabled ∧ (u.port p).tc.cc1 = c1 ∧ (u.port p).tc.cc2 = c2) ∧
  (∀ p, (s.port p).tc.st = .unattachedSnk → s.tcUp = true → s.rdAlone p = false → exec (.tcDrpToggle p) s =
    .next (settled (tcEnter p .unattachedSrc (s.modTc p fun t =>
      { t with cc1 := .open, cc2 := .open, accSeen := false })))) ∧
  (∀ p, (s.port p).tc.st = .unattachedSrc → s.tcUp = true → exec (.tcDrpToggle p) s =
    .next (settled (tcEnter p .unattachedSnk (s.modTc p fun t =>
      { t with cc1 := .open, cc2 := .open, accSeen := false })))) ∧
  (∀ p vbus, p ≠ PU → s.tcUp = true → (s.port p).tc.st = .attachWaitSrc → sinkSeen (s.port p).tc = true → vbus < 800 →
    exec (.tcCcDebounceExpire p vbus) s = .next (settled (attachSrc p s))) ∧
  (∀ p vbus, s.tcUp = true → (s.port p).tc.st = .attachWaitSnk → sourceSeen (s.port p).tc = true → 4000 ≤ vbus →
    (p = PU ∨ s.tries p = false ∨ s.rdAlone p = true) →
    exec (.tcCcDebounceExpire p vbus) s = .next (settled (attachSnk p s))) ∧
  (∀ p vbus, p ≠ PU → s.tcUp = true → (s.port p).tc.st = .attachWaitSnk → sourceSeen (s.port p).tc = true → 4000 ≤ vbus →
    s.tries p = true → s.rdAlone p = false → exec (.tcCcDebounceExpire p vbus) s =
      .next (settled (tcEnter p .trySrc (s.modTc p fun t => { t with cc1 := .open, cc2 := .open })))) ∧
  (∀ p, (s.port p).tc.st = .trySrc → exec (.tcDrpTryExpire p) s =
    .next (settled (tcEnter p .tryWaitSnk (s.modTc p fun t => { t with cc1 := .open, cc2 := .open })))) ∧
  (∀ p, (s.port p).tc.st = .trySnk → exec (.tcTryTimeout p) s =
    .next (settled (tcEnter p .tryWaitSrc (s.modTc p fun t => { t with cc1 := .open, cc2 := .open })))) ∧
  (∀ p, (s.port p).tc.st = .tryWaitSnk ∨ (s.port p).tc.st = .tryWaitSrc → exec (.tcDrpTryWaitExpire p) s =
    .next (settled (tcUnattach p .unattachedSnk s))) ∧
  (∀ p, s.tcUp = true → (s.port p).tc.st.isAttached = true → exec (.tcDetach p) s = .next (settled (portDetach p s))) ∧
  (∀ p, (s.port p).tc.st = .attachedSrc → (s.port p).tc.vbusCount = true → exec (.vbusLate p) s =
    .next (settled (portErrRecovery p (tcEvt p 9 s)))) ∧
  (∀ p, (s.port p).tc.st = .errorRecovery → exec (.tcErrorRecoveryExpire p) s =
    .next (settled (tcUnattach p .unattachedSnk s))) ∧
  (∀ path p v, s.reaches path (R.TC_CMD p) = true → exec (.tcCmdErrRecovery path p v) s =
    .next (settled (tcCmd p (setBit v 0) (written path (R.TC_CMD p) (setBit v 0) s)))) ∧
  (∀ p c1 c2, exec (.deepCcPoll p c1 c2) s = .next (settled (deepPoll (dport p) ((c1 == .rd) != (c2 == .rd)) s)))

/-- O29, tier 1. R148, R149, R152 to R157, R459: over-current, over-voltage and moisture of a port. -/
def Obligations.PortProtectionsAct : Prop := ∀ s : State,
  (∀ p, (s.port p).tc.vconn = true → exec (.vconnOc p) s = .next (settled (vconnCut p s))) ∧
  (∀ p, s.vconnLatest = some p → exec .vconnTotalOc s = .next (settled (vconnCut p s))) ∧
  (∀ p, s.canonical = true → ∃ t, vconnCut p s = pdTableChanged p (eprCheck t) ∧ (t.port p).tc.vconn = false ∧
    (t.port p).tc.vconnLost = true ∧ (∃ d ∈ t.flt.due, d.src = .vconnOc ∧ d.port = some p) ∧
    t.rd (F.TC_CABLE_I_5A p) = 0 ∧ t.rd (F.TC_CABLE_V_50 p) = 0) ∧
  (∀ p mv, p ≠ PU → 6000 < mv → mv ≤ 58000 → s.tcUp = true → (s.port p).tc.st ≠ .ccFault → exec (.ccOvp p mv) s =
    .next (settled (raiseAt .ccOvp (some p) (tcEvt p 5
      ((tcLeave p .detach .ccFault s).modCl p fun l => { l with sbuOff := true }))))) ∧
  (∀ p mv, 58000 < mv → exec (.ccOvp p mv) s = .fault .stressBeyondRating) ∧
  (∀ p, (s.port p).tc.st = .ccFault → exec (.ccOvpClear p) s =
    .next (settled (tcRecoverNow p (s.modCl p fun l => { l with sbuOff := false })))) ∧
  (∀ p mv, 6000 < mv → mv ≤ 58000 → s.tcUp = true → (s.port p).cl.sbuOff = false → exec (.sbuOvp p mv) s =
    .next (settled (raiseAt .sbuOvp (some p) (tcEvt p 6
      ((linkDown p .sbuOvp .off s).modCl p fun l => { l with sbuOff := true }))))) ∧
  (∀ p mv, 58000 < mv → exec (.sbuOvp p mv) s = .fault .stressBeyondRating) ∧
  (∀ p, (s.port p).tc.st ≠ .ccFault → exec (.sbuOvpClear p) s =
    .next (settled (cadReturn p (s.modCl p fun l => { l with sbuOff := false })))) ∧
  (∀ p, s.tcUp = true → s.glb.levelSet = true → s.rdB (F.TC_CTRL_MOIST_EN p) = true →
    ((s.port p).tc.st = .unattachedSnk ∨ (s.port p).tc.st = .unattachedSrc) →
    exec (.moistTestDue p) s = .next (settled (tcEnter p .moistTest s))) ∧
  (∀ path p v, s.reaches path (R.TC_CMD p) = true → exec (.tcCmdMoistTest path p v) s =
    .next (settled (tcCmd p (setBit v 1) (written path (R.TC_CMD p) (setBit v 1) s)))) ∧
  (∀ p a b c d w, (s.port p).tc.st = .moistTest → moistWet a b c d = w → exec (.moistTestDone p a b c d) s =
    .next (settled ((if w then moistReadWet p else moistReadDry p) (s.setReg (R.TC_MOIST p) (atBits 24 8 (moistCode d) |||
      atBits 16 8 (moistCode c) ||| atBits 8 8 (moistCode b) ||| atBits 0 8 (moistCode a)))))) ∧
  (∀ p t, (s.port p).tc.mstate = .wet → (s.port p).tc.dryCnt = t → 2 ≤ t.val → moistReadDry p s =
    let s := tcEvt p 3 (s.modTc p fun t => { t with mstate := .dry, dryCnt := 3 })
    tcEnter p (s.tcRest p) s) ∧
  (s.massClearDue = true → ∃ t, exec .massWetClear s = .next (settled (pushEvent 0x20 0xFF09 0 t)) ∧
    t.mass.active = false)

/-- O30, tier 1. R159, R162, R165, R171, R177, R195 to R198: what a received message makes the engine do. `pdIn` is the engine as the
message finds it. -/
def Obligations.ReceivedMessagesAreAnswered : Prop := ∀ (s : State) (p : PortId) (t : State), s.pdUp p = true →
  pdIn p false s = t →
  ((t.port p).pd.rev = 0 → False) ∧
  (∀ m, t.glb.level ≠ 0 → (m.needs3 = false ∨ (t.port p).pd.rev ≠ 1) → pdSend p m t =
    t.modPd p fun x => { x with tx := x.tx.filter (fun m => !m.isSignal) ++ [m] }) ∧
  (∀ epr, (t.port p).pd.source = true → exec (.pdGetSourceCapRx p epr) s =
    .next (settled (pdSendCapsAs p (epr && (t.port p).pd.rev == 2) t))) ∧
  (∀ epr, exec (.pdGetSinkCapRx p epr) s = .next (settled
    (pdSend p (.sinkCaps (if p = PU then t.puSinkPdos epr else [pnSinkPdo])) t))) ∧
  (∀ pdo1, p ≠ PU → exec (.pdSinkCapsRx p pdo1) s = .next (settled ((pdSettled p t).modPd p fun x =>
    { x with snkCapValid := true, frsCur := BitVec.ofNat 2 (bitsOf pdo1 23 2) }))) ∧
  (exec (.pdDrSwapRx p) s = .next (settled (pdSend p .reject t))) ∧
  (exec (.pdEprKeepaliveRx p) s = .next (settled (pdSend p .eprKeepAliveAck t))) ∧
  (∀ ado, p ≠ PU → exec (.pdAlertRx p ado) s = .next (settled (t.modPd p fun x => { x with lastAlert := ado }))) ∧
  (∀ ado, p = PU → exec (.pdAlertRx p ado) s = .next (settled (pdStart p .getStatus
    (t.modPd p fun x => { x with lastAlert := ado })))) ∧
  ((t.port p).pd.rev = 2 → exec (.pdGetStatusRx p) s = .next (settled
    ((pdSend p (.status (t.pdStatusBytes p)) t).modPd p fun x => { x with evFlags := 0 }))) ∧
  ((t.port p).pd.source = true → exec (.pdGetSourceInfoRx p) s = .next (settled (pdSend p (.sourceInfo
    (atBits 16 8 (t.maxMw p / 1000) ||| atBits 8 8 (t.share p / 1000) ||| atBits 0 8 ((t.port p).pd.grant / 1000))) t))) ∧
  (exec (.pdGetRevisionRx p) s = .next (settled (pdSend p .revision t))) ∧
  (exec (.pdGetSrcCapExtRx p) s = .next (settled (pdSend p (if p = PU then .notSupported else .srcCapsExt) t))) ∧
  (exec (.pdGetSnkCapExtRx p) s = .next (settled (pdSend p .snkCapsExt t))) ∧
  (∀ c, (t.port p).pd.nowMv = 5000 → (t.port p).pd.trans = none → exec (.pdBistRx p c) s = .next (settled
    (pdSend p (.bistMode c) (t.modPd p fun x => { x with bist := some c })))) ∧
  (exec (.pdUnsupportedRx p) s = .next (settled (pdSend p .notSupported t))) ∧
  (exec (.pdUnchunkedExtRx p) s = .next (settled (pdSend p .notSupported t))) ∧
  (exec (.pdIgnoredRx p) s = .next (settled t)) ∧
  (exec (.pdSop2Rx p) s = .next (settled s)) ∧
  (∀ h, bitsOf h 16 16 ≠ 0xFF00 → s.img.svid = none → bitOf h 15 = true → bitsOf h 6 2 = 0 → exec (.pdSvdmRx p h) s =
    .next (settled (sendVdm p (bitsOf h 16 16) (bitsOf h 8 3) 2 (bitsOf h 0 5) [] t))) ∧
  ((t.port p).pd.await = some .eprEnter → exec (.pdResponseRx p .eprEnterSucceeded) s = .next (settled
    (pdEvt p 9 ((pdSettled p t).modPd p fun x => { x with epr := true })))) ∧
  (∀ c, exec (.pdResponseRx p (.revision c)) s = .next (settled (pdSettled p t))) ∧
  (exec (.pdResponseRx p .notSupported) s = .next (settled (pdRefused p t)))

/-- O31, tier 1. R165, R171, R173 to R177, R181, R191 to R196: requests, contracts, swaps, EPR mode and resets. -/
def Obligations.ContractsSwapsAndResetsFollowTheMessages : Prop := ∀ (s : State) (p : PortId) (t : State),
  s.pdUp p = true → pdIn p false s = t →
  (∀ rdo, t.pdAsked p = true → exec (.pdRequestRx p false rdo) s = .next (settled (pdRequest p rdo t))) ∧
  (∀ rdo, requestedContract (t.port p).pd rdo = none → pdRequest p rdo t = pdSend p .reject (pdSettled p t)) ∧
  (∀ rdo c, requestedContract (t.port p).pd rdo = some c → powerMw c.mv c.ma10 ≤ (t.port p).pd.grant →
    pdRequest p rdo t = pdAccept p c (pdSettled p t)) ∧
  (∀ rdo pdo, t.pdAsked p = true → (t.port p).pd.rev = 2 → ((t.port p).pd.adv.toList).getD (rdoPos rdo - 1) 0 ≠ pdo →
    exec (.pdEprRequestRx p rdo pdo) s = .next (settled (pdSend p .reject (pdSettled p t)))) ∧
  (∀ rdo pdo, t.pdAsked p = true → (t.port p).pd.rev = 2 → ((t.port p).pd.adv.toList).getD (rdoPos rdo - 1) 0 = pdo →
    exec (.pdEprRequestRx p rdo pdo) s = .next (settled (pdRequest p rdo t))) ∧
  (∀ rdo, (t.port p).pd.await = some (.request rdo) → exec (.pdAcceptRx p) s = .next (settled ((pdSettled p t).modPd p
    fun x => { x with st := .transition, trans := x.trans.map fun t => { t with commanded := true } }))) ∧
  (∀ rdo, (t.port p).pd.await = some (.request rdo) → exec (.pdRejectRx p) s = .next (settled
    (pdRest p ((pdSettled p t).modPd p fun x => { x with trans := none })))) ∧
  (∀ rdo, p = PU → (t.port p).pd.await = some (.request rdo) → exec (.pdWaitRx p) s = .next (settled
    ((pdRefused p t).modPd p fun x => { x with lastReq := some (.request rdo), trans := (t.port p).pd.trans }))) ∧
  (∀ c, (t.port p).pd.swap = .none → (t.port p).pd.trans = some c → (t.port p).pd.source = false → c.commanded = true →
    p ≠ PU → exec (.pdPsRdyRx p) s = .next (settled (pdTakeContract p c.new t))) ∧
  ((t.port p).pd.swap = .sentVconn → exec (.pdPsRdyRx p) s = .next (settled (vconnGive p t))) ∧
  ((t.port p).pd.swap = .none → (t.port p).pd.trans = none → (t.port p).pd.source = false → exec (.pdSoftResetRx p) s =
    .next (settled (pdSend p .accept (pdRest p (pdEvt p 4 (t.modPd p fun x =>
      { x with tx := [], await := none, sinkTxPend := [], sinkTxNG := false, trans := none })))))) ∧
  ((t.port p).pd.swap ≠ .none → exec (.pdSoftResetRx p) s = .next (settled (hardReset p t))) ∧
  (s.feed.tandem = false → ∃ w : State, exec (.pdHardResetRx p) s = .next (settled (hardResetCommon p w))) ∧
  (s.feed.tandem = true → exec (.pdHardResetRx p) s = .next (settled (causeRaise p (pdHardResetRxCore p s)))) ∧
  (p = PU → exec (.pdPrSwapRx p) s = .next (settled (pdSend p .reject t))) ∧
  (p ≠ PU → (t.port p).pd.swap = .none → (t.port p).pd.st = .ready → (t.port p).pd.source = true →
    t.rdB (F.PD_CTRL_PRS_ACCEPT p) = true → t.img.tandemCap.getLsbD p.val = true → exec (.pdPrSwapRx p) s = .next (settled
      (pdSend p .accept (t.modPd p fun x => { x with st := .swap, swap := .oldWaitAccept })))) ∧
  (p ≠ PU → (t.port p).pd.vconnSrc = true → exec (.pdVconnSwapRx p) s =
    .next (settled (vconnSwapGo p (pdSend p .accept t)))) ∧
  (p ≠ PU → (t.port p).pd.swap = .frsSignal → exec (.pdFrSwapRx p) s = .next (settled
    (pdSend p .accept (t.modPd p fun x => { x with swap := .frsAccepted, tx := [] })))) ∧
  (p = PU → exec (.pdFrSwapRx p) s = .next (settled (pdSend p .notSupported t))) ∧
  (∀ c, (t.port p).pd.rev = 2 → (t.port p).pd.source = true → (t.port p).pd.contract = some c → (t.port p).pd.epr = false →
    t.rdB (F.TC_CABLE_EPR_OK p) = true → (t.port p).pd.vconnSrc = true → rdoEprCap c.rdo = true →
    bitOf ((t.port p).pd.adv.toList.headD 0) 23 = true → t.eprPermitted p = true → ∃ w : State, exec (.pdEprModeEnterRx p) s =
      .next (settled (pdSendCapsAs p true (pdEvt p 9 (w.modPd p fun x => { x with epr := true }))))) ∧
  ((t.port p).pd.epr = true → (t.port p).pd.source = false → exec (.pdEprModeExitRx p) s = .next (settled
    (pdEvt p 10 (t.modPd p fun x => { x with epr := false, eprExiting := false })))) ∧
  (∀ pdos, p ≠ PU → (t.port p).pd.source = false → exec (.pdSourceCapsRx p false false pdos) s = .next (settled
    (sinkAsk p 1 5000 30 ((pdSettled p t).modPd p fun x => { x with srcCaps := pdos })))) ∧
  (∀ pdos, p = PU → (t.port p).pd.source = false → exec (.pdSourceCapsRx p false false pdos) s = .next (settled
    (puRequest ((pdSettled p t).modPd p fun x => { x with srcCaps := pdos }))))

/-- O32, tier 1. R160, R164 to R167, R173 to R175, R178, R179, R181, R193 to R196: what GoodCRC, its absence, and the engine's timers
do. -/
def Obligations.PdTimersAndAcknowledgementsAct : Prop := ∀ (s : State) (p : PortId),
  (∀ m rest, (s.port p).pd.tx = m :: rest → m.isSignal = false → (m ≠ .accept ∨ (s.port p).pd.swap ≠ .oldWaitAccept) →
    exec (.pdGoodcrcRx p) s = .next (settled (cadSent p (some m) (s.modPd p fun x =>
      { x with tx := rest, await := if m.awaits then some m else x.await })))) ∧
  (∀ rest, (s.port p).pd.tx = .discoverCable :: rest → exec (.pdNoGoodcrc p) s =
    .next (settled (s.modPd p fun x => { x with tx := rest }))) ∧
  (∀ rest, (s.port p).pd.tx = .accept :: rest → exec (.pdNoGoodcrc p) s =
    .next (settled (pdEscalate p (s.modPd p fun x => { x with tx := rest })))) ∧
  (∀ m, s.coreUp = true → (s.port p).pd.eprExitRx = false → (s.port p).pd.await = some m → m ≠ .vconnSwap →
    exec (.pdSenderResponseTimeout p) s = .next (settled (pdEscalate p (s.modPd p fun x =>
      { x with trans := if x.source then x.trans else none })))) ∧
  ((s.port p).pd.discCount ≠ 0 → (s.port p).pd.discDone = false → (s.port p).pd.discCount < 4 →
    exec (.pdCableDiscoverRetry p) s = .next (settled (pdSend p .discoverCable (s.modPd p fun x =>
      { x with discCount := x.discCount + 1, tx := x.tx.filter (· ≠ .discoverCable) })))) ∧
  ((s.port p).pd.discCount ≠ 0 → (s.port p).pd.discDone = false → ¬(s.port p).pd.discCount < 4 →
    exec (.pdCableDiscoverRetry p) s = .next (settled (cableEnd p s))) ∧
  (∀ d vdos, p = dport d → s.coreUp = true → (s.port p).pd.discCount ≠ 0 → (s.port p).pd.discDone = false →
    exec (.pdCableIdentityRx d vdos) s = .next (settled (cableEnd p (cableIdentity p vdos s)))) ∧
  (∀ vdos, s.canonical = true → (cableIdentity p vdos s).rd (F.TC_CABLE_I_5A p) = b2n (bitsOf (vdos.getD 3 0) 5 2 == 2) ∧
    (cableIdentity p vdos s).rd (F.TC_CABLE_V_50 p) = b2n (bitsOf (vdos.getD 3 0) 9 2 == 3) ∧
    (cableIdentity p vdos s).rd (F.TC_CABLE_EMARKED p) = 1 ∧ (cableIdentity p vdos s).ports = s.ports) ∧
  (∀ c rest, (s.port p).pd.source = true → (s.port p).pd.contract = none → (s.port p).pd.tx = .sourceCaps c :: rest →
    (s.port p).pd.capsCount < 50 → exec (.pdSendSourceCapRepeat p) s = .next (settled (pdSendCapsAs p false
      (s.modPd p fun x => { x with capsCount := x.capsCount + 1, tx := [] })))) ∧
  (∀ c rest, (s.port p).pd.source = true → (s.port p).pd.contract = none → (s.port p).pd.tx = .sourceCaps c :: rest →
    ¬(s.port p).pd.capsCount < 50 → exec (.pdSendSourceCapRepeat p) s =
      .next (settled (s.modPd p fun x => { x with tx := [], st := .implicit }))) ∧
  (∀ c, (s.port p).pd.trans = some c → (s.port p).pd.source = true → c.sent = false →
    (s.port p).pd.tx.contains .accept = false → c.new.mv = (s.port p).pd.nowMv → exec (.pdSrcTransitionExpire p) s =
      .next (settled (s.modPd p fun x => { x with trans := some { c with sent := true, commanded := true } }))) ∧
  (∀ c i, (s.port p).pd.trans = some c → (s.port p).pd.source = true → c.sent = false →
    (s.port p).pd.tx.contains .accept = false → c.new.mv ≠ (s.port p).pd.nowMv → s.conv p = some i →
    exec (.pdSrcTransitionExpire p) s = .next (settled (pmbVout i c.new.mv .pdChange
      (s.modPd p fun x => { x with trans := some { c with sent := true, commanded := false } })))) ∧
  (∀ c, (s.port p).pd.trans = some c → (s.port p).pd.source = true → c.commanded = true →
    exec (.pdTransitionSettled p) s = .next (settled (pdAfterChange p (pdAskSinkCap p (!(s.port p).pd.firstContract)
      (pdTakeContract p c.new (pdSend p .psRdy s)))))) ∧
  (∀ c i, (s.port p).pd.trans = some c → (s.port p).pd.source = true → c.commanded = true →
    (hardReset p (pdEvt p 1 s)).conv p = some i → exec (.pdTransitionWindowExpire p) s = .next (settled
      (pmbRaise { cls := 3, tgt := i, cmd := .statusWord, why := .transFail } (hardReset p (pdEvt p 1 s))))) ∧
  ((s.port p).pd.hrst = .psHardReset → exec (.pdPsHardResetExpire p) s = .next (settled (ppOff p
    ((s.modPp p fun x => { x with call := false }).modPd p fun x => { x with hrst := .discharge })))) ∧
  ((s.port p).pd.hrst = .recover → exec (.pdSrcRecoverExpire p) s = .next (settled (ppKick p
    ((s.modPp p fun x => { x with call := true }).modPd p fun x => { x with hrst := .none })))) ∧
  (s.coreUp = true → (s.port p).pd.source = true → (s.port p).pd.epr = true → exec (.pdEprKeepaliveExpire p) s =
    .next (settled (hardReset p (pdEvt p 11 s)))) ∧
  (s.coreUp = true → (s.port PU).pd.epr = true → (s.port PU).pd.source = false → (s.port PU).pd.tx = [] →
    exec .pdPuKeepaliveDue s = .next (settled (pdSend PU .eprKeepAlive s))) ∧
  ((s.port p).pd.sinkTxNG = true → exec (.pdSinkTxExpire p) s = .next (settled ((s.port p).pd.sinkTxPend.foldl
    (fun s m => pdSend p m s) (s.modPd p fun x => { x with sinkTxNG := false, sinkTxPend := [] })))) ∧
  (∀ m, (s.port PU).pd.lastReq = some m → exec .pdSinkRequestExpire s =
    .next (settled (pdSend PU m (s.modPd PU fun x => { x with lastReq := none })))) ∧
  ((s.port p).pd.swap = .oldWaitPsRdy ∨ (s.port p).pd.swap = .newWaitPsRdy → exec (.pdPsSourceTimeout p) s =
    .next (settled (hardReset p s))) ∧
  ((s.port p).pd.swap = .frsSignal → exec (.pdFrsNomsg p) s =
    .next (settled (pdEvt p 8 (s.modPd p fun x => { x with swap := .none, st := .implicit, tx := [] })))) ∧
  (s.puSole = true → (s.port PU).pd.st = .softReset → exec .pdHrstWithheld s = .next (settled (hardReset PU s))) ∧
  ((s.port p).pd.eprExiting = true → exec (.pdEprExitTimeout p) s = .next (settled (hardReset p s))) ∧
  (exec (.vbusThresholdCross p .below3) s = .next (settled (ppKick p (s.modPp p fun x => { x with check := false })))) ∧
  ((s.port p).pd.hrst = .discharge → (s.port p).pd.swap = .none → exec (.vbusThresholdCross p .below08) s =
    .next (settled (ppKick p ((s.modPp p fun x => { x with check := false }).modPd p fun x => { x with hrst := .recover })))) ∧
  ((s.port p).pd.swap = .frsAccepted → exec (.vbusThresholdCross p .belowSafe5V) s =
    .next (settled (ppKick p (frsDown p s))))

/-- O33, tier 1. R165, R166, R184, R189 to R192, R199: the commands of PD_CMD, and the budget manager's timers. -/
def Obligations.PdCommandsAndBudgetAct : Prop := ∀ (s : State) (p : PortId),
  (∀ path v, s.reaches path (R.PD_CMD p) = true → ∀ x ∈ [(Instr.pdCmdSoftReset path p v, 0), (.pdCmdHardReset path p v, 1),
    (.pdCmdPrSwap path p v, 2), (.pdCmdVconnSwap path p v, 3), (.pdCmdSendCaps path p v, 4), (.pdCmdGetSinkCap path p v, 5),
    (.pdCmdEprExit path p v, 6)], exec x.1 s =
      .next (settled (pdCmd p (setBit v x.2) (written path (R.PD_CMD p) (setBit v x.2) s)))) ∧
  (pdCmd p 0x01 s = pdCmdSoftReset p s ∧ pdCmd p 0x02 s = pdCmdHardReset p s ∧ pdCmd p 0x04 s = pdCmdPrSwap p s ∧
    pdCmd p 0x08 s = pdCmdVconnSwap p s ∧ pdCmd p 0x10 s = pdCmdSendCaps p s ∧ pdCmd p 0x20 s = pdCmdGetSinkCap p s ∧
    pdCmd p 0x40 s = pdCmdEprExit p s) ∧
  ((s.port p).pd.st = .ready → s.pdUp p = true → pdCmdSoftReset p s = pdSoftReset p s) ∧
  (s.feed.tandem = true → pdCmdHardReset p s = pdEvt p 13 s) ∧
  (p = PU → s.puSole = true → pdCmdHardReset p s = pdEvt p 13 s) ∧
  (s.pdUp p = false → pdCmdPrSwap p s = pdEvt p 13 s ∧ pdCmdVconnSwap p s = pdEvt p 13 s ∧
    pdCmdSendCaps p s = pdEvt p 13 s ∧ pdCmdGetSinkCap p s = pdEvt p 13 s ∧ pdCmdEprExit p s = pdEvt p 13 s) ∧
  (s.pdFree p = true → (s.port p).pd.source = true → pdCmdPrSwap p s =
    pdStart p .prSwap (s.modPd p fun x => { x with swap := .sentPr })) ∧
  (∀ vin, s.coreUp = true → exec (.bmRecompute vin) s = .next (settled (bmRecompute { s with
    bm := { s.bm with vinAvg := vin } }))) ∧
  (∀ t, (s.port p).pd.target = some t → t < (s.port p).pd.grant → (s.port p).pd.bmLimited = false →
    exec (.renegTimeout p) s = .next (settled (bmSettle (bmHardLimit p s)))) ∧
  (exec .bmRaiseDelayExpire s = .next (settled (bmRaise s)))

/-- O34, tier 1. R200, R203, R204, R205, R211, R213, R214: what the end of a PMBus transaction, the time limits, an alert and the stuck bus
do. -/
def Obligations.PmbusTransactionsEndAsTheRulesSay : Prop := ∀ s : State,
  (∀ t d, s.pmb.wire = some t → (∀ c r l x, t.cmd ≠ .soft c r l x) → t.cut = false → t.phase = .send → t.cmd.isRead = false →
    exec (.pmbTransactionDone .ok d) s = .next (settled (pmbIssue { t with phase := .confirm, since := s.tb3, late := false }
      { s with pmb := { s.pmb with wire := none } }))) ∧
  (∀ t d, s.pmb.wire = some t → (∀ c r l x, t.cmd ≠ .soft c r l x) → t.cut = false → t.phase = .confirm →
    exec (.pmbTransactionDone .ok d) s = .next (settled (pmbJudge t d { s with pmb := { s.pmb with wire := none } }))) ∧
  (∀ t d, s.pmb.wire = some t → (∀ c r l x, t.cmd ≠ .soft c r l x) → t.cut = false → t.phase = .send → t.attempts < 3 →
    exec (.pmbTransactionDone .noAck d) s = .next (settled (pmbPump
      ((({ s with pmb := { s.pmb with wire := none } } : State).bump F.PMB_ERRCNT_NAK).modPmb fun p =>
        { p with delayed := p.delayed ++ [{ t with attempts := t.attempts + 1, phase := .send, late := false }] })))) ∧
  (∀ t, s.pmb.wire = some t → (∀ c r l x, t.cmd ≠ .soft c r l x) → t.cut = false → t.phase = .send → 3 ≤ t.attempts →
    exec .pmbStretchTimeout s = .next (settled (pmbFail t .timeout
      (({ s with pmb := { s.pmb with wire := none } } : State).bump F.PMB_ERRCNT_NAK)))) ∧
  (∀ t, s.pmb.delayed.find? (fun t => !t.readsVout) = some t → exec .pmbRetryDue s =
    .next (settled (pmbIssue t { s with pmb := { s.pmb with delayed := s.pmb.delayed.erase t } }))) ∧
  (∀ t, s.pmb.delayed.find? Txn.readsVout = some t → exec .pmbVoutRetryDue s =
    .next (settled (pmbIssue t { s with pmb := { s.pmb with delayed := s.pmb.delayed.erase t } }))) ∧
  (∀ t, pmbOldest ((s.pmb.delayed ++ s.pmb.queue ++ s.pmb.wire.toList).filter fun t => t.readsVout && !t.late) = some t →
    s.pmb.delayed.contains t = true → exec .pmbTonMaxExpire s =
      .next (settled (pmbFail t .vout { s with pmb := { s.pmb with delayed := s.pmb.delayed.erase t } }))) ∧
  (∀ t, pmbOldest ((s.pmb.delayed ++ s.pmb.queue ++ s.pmb.wire.toList).filter fun t => t.readsOff && !t.late) = some t →
    s.pmb.delayed.contains t = true → exec .pmbOffConfirmTimeout s =
      .next (settled (pmbFail t .status { s with pmb := { s.pmb with delayed := s.pmb.delayed.erase t } }))) ∧
  (∀ path v, s.reaches path R.PMB_VERIFY = true → exec (.pmbVerifyWrite path v) s =
    .next (settled (pmbVerifyBits v (written path R.PMB_VERIFY v s)))) ∧
  (∀ path v, s.reaches path R.PMB_SW_CTRL = true → exec (.pmbSwGo path v) s =
    .next (settled (pmbSwGo (written path R.PMB_SW_CTRL (setBit v 20) s)))) ∧
  (∀ a ok ack st, s.alertOn = true → s.pmb.storms = [] → exec (.pmbAlert a ok ack st) s =
    .next (settled (alertServe a ok ack st { s with pmb := { s.pmb with alertLow := true } }))) ∧
  (∀ low, (low = false ∨ s.pmb.storms = []) → exec (.pmbAlertRepeat low) s =
    .next (settled { s with pmb := { s.pmb with alertLow := low } })) ∧
  (∀ a, s.pmb.storms.contains a = true → exec (.pmbAlertStormExpire a) s = .next (settled { s with pmb := { s.pmb with
    storms := s.pmb.storms.filter (· ≠ a), responders := s.pmb.responders.filter fun e => e.1 ≠ a } })) ∧
  (s.pmb.stuck = false → s.pmb.recovering = false → exec .pmbBusStuck s =
    .next (settled { s with pmb := { s.pmb with recovering := true } })) ∧
  (s.pmb.stuck = false → s.pmb.recovering = true → exec .pmbBusStuck s = .next (settled (raiseAt .pmbStuck none
    (forEach allPorts ppOff (pmbEvt 5 0 { s with pmb := { s.pmb with stuck := true } }))))) ∧
  (exec .pmbBusRecoveryDue s = .next (settled s)) ∧
  (exec .pmbStuckClear s = .next (settled (ppKickAll (pmbPump
    { s with pmb := { s.pmb with stuck := false, recovering := false } }))))

/-- O35, tier 1. R204, R205: a fault bit of STATUS_WORD makes a target faulty with cause STATUS; a converter that misses its acknowledgement
without a feed takes NO_FEED. -/
def Obligations.PmbusTargetsFailWithTheirCause : Prop := ∀ (s : State) (i : Nat) (t : Target), s.target? i = some t →
  (∀ c, (t.port?.isNone ∨ c.missing = false ∨ s.feedActive = true) →
    ((pmbMark i t c s).target? i).map (fun x => (x.st, x.cause, x.confirmed)) = some (.faulty, c, 0)) ∧
  (∀ c p, t.port? = some p → c.missing = true → s.feedActive = false →
    ((pmbMark i t c s).target? i).map (fun x => (x.st, x.cause, x.confirmed)) = some (.faulty, .noFeed, 0) ∧ (pmbMark i t c s).flt = s.flt) ∧
  (∀ x d, x.tgt = i → x.cmd = .opOff → x.why = .pathOff → statusFaults d ≠ 0 →
    pmbJudge x d s = pmbFail x .status (s.modTarget i fun y => { y with status := d }))

/-- O36, tier 2. R209, R212: transactions go onto the bus by class, first raised first within one class, and an off command removes the on,
voltage and verification commands that wait for its target. -/
def Obligations.PmbusQueueKeepsClassOrder : Prop :=
  (∀ (t : Txn) (l : List Txn), l.Pairwise (fun a b => a.cls ≤ b.cls) → (pmbInsert t l).Pairwise (fun a b => a.cls ≤ b.cls)) ∧
  (∀ (t : Txn) (l : List Txn) (k : Fin 7), l.Pairwise (fun a b => a.cls ≤ b.cls) →
    (pmbInsert t l).filter (fun x => x.cls = k) = l.filter (fun x => x.cls = k) ++ (if t.cls = k then [t] else [])) ∧
  (∀ (s : State) (t : Txn) (l : List Txn), s.pmb.wire = none → s.pmb.queue = t :: l → s.pmb.stuck = false →
    (pmbPump s).pmb.wire = some t ∧ (pmbPump s).pmb.queue = l) ∧
  (∀ (s : State) (i : Nat) (x : Txn), x ∈ (pmbCut i s).pmb.queue ↔ x ∈ s.pmb.queue ∧ ¬(x.tgt = i ∧ x.removable = true)) ∧
  (∀ (s : State) (i : Nat) (why : PmbWhy) (c : Fin 7) (x : Txn), x ∈ (pmbOff c i why s).pmb.queue → x.tgt = i →
    x.cmd = .opOff ∨ x.removable = false)

/-- O37, tier 1. R215 to R220, R224, R237, R243, R247: the hub's answers to device and hub class requests. -/
def Obligations.HubRequestsAreAnswered : Prop := ∀ s : State, s.usbUp = true →
  (∀ ty k len l, hubDescriptor ty.toNat k.toNat (leaveIdle s) = some l → exec (.usbGetDescriptor ty k len) s =
    .next (settled ((leaveIdle s).modHub fun h => { h with answer := .data (l.take len) true true }))) ∧
  (∀ ty k len, hubDescriptor ty.toNat k.toNat (leaveIdle s) = none → exec (.usbGetDescriptor ty k len) s =
    .next (settled ((leaveIdle s).modHub fun h => { h with answer := .stall }))) ∧
  (∀ a, s.hub.st ≠ .configured → exec (.usbSetAddress a) s = .next (settled ((leaveIdle s).modHub fun h =>
    { h with addr := a, st := if a = 0 then .default_ else .addressed, answer := .ack }))) ∧
  (s.hub.st = .addressed → ∃ u : State, exec (.usbSetConfiguration 1) s = .next (settled (answer .ack
      (hubEvt 2 (ttRunAll (p17Connect u))))) ∧ u.hub.st = .configured) ∧
  (s.hub.st = .addressed ∨ s.hub.st = .configured → exec (.usbSetConfiguration 2) s =
    .next (settled (answer .stall (leaveIdle s)))) ∧
  (s.hub.st = .configured → exec (.usbSetConfiguration 0) s = .next (settled (answer .ack
    (hubEvt 3 (hubUnconfigure ((leaveIdle s).modHub fun h => { h with st := .addressed })))))) ∧
  (s.configured = true → s.hub.speed = .high → exec (.usbSetInterface 1) s = .next (settled (answer .ack
    (ttResetAll ((leaveIdle s).modHub fun h => { h with alt := true }))))) ∧
  (s.configured = true → s.hub.speed ≠ .high → exec (.usbSetInterface 1) s =
    .next (settled (answer .stall (leaveIdle s)))) ∧
  (exec .usbGetStatus s = .next (settled (reply (leBytes 2 (b2n (s.feed.fa.st == .active || s.feed.fb.st == .active) +
    2 * b2n s.hub.rwakeEn)) 2 (leaveIdle s)))) ∧
  (∀ on, exec (.usbDeviceFeature on) s = .next (settled ((leaveIdle s).modHub fun h =>
    { h with rwakeEn := on, answer := .ack }))) ∧
  (s.configured = true → exec .hubGetHubStatus s = .next (settled (reply
    (leBytes 2 (b2n (leaveIdle s).localLost) ++ leBytes 2 (b2n s.hub.cLocal)) 4 (leaveIdle s)))) ∧
  (∀ n, s.configured = true → 1 ≤ n → n ≤ 17 → exec (.hubGetPortStatus n) s = .next (settled (reply
    (leBytes 2 ((leaveIdle s).pstat n) ++ leBytes 2 (s.uport n).chg.word) 4 (leaveIdle s)))) ∧
  (∀ n, s.configured = true → (n = 0 ∨ 17 < n) → exec (.hubGetPortStatus n) s =
    .next (settled (answer .stall (leaveIdle s)))) ∧
  (∀ on, s.configured = true → exec (.hubHubFeature on 0) s = .next (settled ((leaveIdle s).modHub fun h =>
    { h with cLocal := on, answer := .ack }))) ∧
  (∀ r, exec (.hubClassStall r) s = .next (settled (answer .stall (leaveIdle s)))) ∧
  (∀ n f, exec (.portFeatureStall n f) s = .next (settled (answer .stall (leaveIdle s)))) ∧
  (∀ link rwe, s.rdB F.HUB_CFG_U_L1_EN = false → exec (.lpmToken link rwe) s =
    .next (settled (answer .stall (leaveIdle s))))

/-- O38, tier 1. R220 to R223, R229 to R232, R235, R240, R241, R245: requests to a port, and what ends them. `t` is the hub as a request
to port n finds it, the request acknowledged. -/
def Obligations.PortRequestsMoveThePortStates : Prop := ∀ (s : State) (n : Nat) (t : State), s.usbUp = true →
  s.configured = true → 1 ≤ n → n ≤ 17 → answer .ack (leaveIdle s) = t →
  (n ≠ 17 → (s.uport n).ust = .enabled → (s.uport n).conn = true → exec (.portResetRequest n) s =
    .next (settled (modUport n (fun u => { u.awake with ust := .resetting, resumeL1 := false }) t))) ∧
  (n ≠ 17 → (s.uport n).ust = .enabled → exec (.portSuspendRequest n) s = .next (settled
    (uEvt n 4 (modUport n (fun u => { u with ust := .suspended, suspSel := true }) t)))) ∧
  ((s.uport n).ust = .suspended → exec (.portResumeRequest n) s = .next (settled
    (modUport n (fun u => { u with ust := .resuming }) t))) ∧
  (∀ p, portOf n = some p → t.coupled = true → exec (.portPowerFeature true n) s = .next (settled (ppKick p
    (t.modU p fun u => { u with power := true, ust := if u.ust == .poweredOff then .disconnected else u.ust })))) ∧
  (∀ p, portOf n = some p → t.coupled = true → exec (.portPowerFeature false n) s = .next (settled (ocTrack p (ppOff p
    ((uDisconnect p (t.modU p fun u => { u with power := false })).modU p fun u => { u with ust := .poweredOff }))))) ∧
  (∀ p on, portOf n = some p → t.coupled = false → exec (.portPowerFeature on n) s = .next (settled t)) ∧
  ((s.uport n).ust = .enabled → exec (.portEnableClear n) s = .next (settled (uDisable n t))) ∧
  (∀ k, n = 17 ∨ k = 0 ∨ 5 < k.toNat ∨ s.hub.testMode = true → exec (.portTestRequest n k) s =
    .next (settled (answer .stall t))) ∧
  (∀ k, n ≠ 17 → 1 ≤ k.toNat → k.toNat ≤ 5 → s.hub.testMode = false → (s.uport n).ust = .disabled →
    (∀ m, 1 ≤ m → m ≤ 17 → m ≠ n → m ≠ 17 → (s.uport m).ust = .disconnected) → exec (.portTestRequest n k) s =
      .next (settled (modUport n (fun u => { u with ust := .testing }) (t.modHub fun h => { h with testMode := true })))) ∧
  (exec (.portChangeClear n 16) s = .next (settled (modUport n (fun u =>
    { u with chg := { u.chg with connection := false } }) t))) ∧
  (exec (.portChangeClear n 20) s = .next (settled (modUport n (fun u => { u with chg := { u.chg with reset := false } }) t))) ∧
  (∀ besl rwe dev a, n = 17 → exec (.portL1Request n besl rwe dev a) s = .next (settled
    (l1Result n 3 besl.toNat rwe dev.toNat t))) ∧
  (∀ besl rwe dev p, portOf n = some p → t.rdB F.HUB_CFG_D_L1_EN = true → (s.uport n).speed ≠ .low →
    t.rdB (F.HP_CTRL_L1_EN p) = true → (s.uport n).ust = .enabled → exec (.portL1Request n besl rwe dev .ack) s =
      .next (settled (uEvt n 7 (l1Result n 1 besl.toNat rwe dev.toNat (modUport n (fun u => { u with ust := .l1 }) t))))) ∧
  ((s.uport n).ust = .l1 → exec (.portL1Clear n) s = .next (settled
    (modUport n (fun u => { u with ust := .resuming, resumeL1 := true }) t))) ∧
  (∀ p sp, portOf n = some p → (s.uport n).ust = .resetting → sp ≠ .none → s.hub.speed = .high →
    exec (.portResetDone n sp) s = .next (settled (hpEvt p 2 ((ttReset p false (s.modU p fun u =>
      { u with ust := .enabled, speed := sp, chg := { u.chg with reset := true } })).bump (F.HP_ERR_RESETS p))))) ∧
  ((s.uport n).ust = .resuming → exec (.portResumeDone n) s = .next (settled
    (uEvt n (if (s.uport n).resumeL1 then 8 else 5) (modUport n (fun u =>
      { u with ust := if u.suspPend then .suspended else .enabled, suspSel := u.suspPend, suspPend := false,
               resumeL1 := false,
               chg := if u.resumeL1 then { u.chg with l1 := true } else { u.chg with suspend := true } }) s))))

/-- O39, tier 1. R70, R228, R231, R233 to R239, R241, R242, R244, R314: events on the downstream ports and on the upstream bus. -/
def Obligations.UsbEventsMoveTheBusStates : Prop := ∀ s : State, s.coreUp = true →
  (∀ d sp, sp ≠ .none → s.gateOpen (dport d) = true → (s.port (dport d)).u.ust = .disconnected →
    (s.port (dport d)).u.conn = false → exec (.portConnectDetect d sp) s = .next (settled (hpEvt (dport d) 0
      (s.modU (dport d) fun u => { u with conn := true, chg := { u.chg with connection := true } })))) ∧
  (∀ d, (s.port (dport d)).u.ust = .enabled → (s.port (dport d)).u.conn = true → exec (.portDisconnectDetect d) s =
    .next (settled (ttDiscard (dport d) false (uDisconnect (dport d) s)))) ∧
  (∀ d, (s.port (dport d)).u.ust = .enabled → ∃ u : State, exec (.portBabble d) s = .next (settled (hpEvt (dport d) 3
    (u.bump (F.HP_ERR_DISABLES (dport d))))) ∧ (u.port (dport d)).u.ust = .disabled ∧
      (u.port (dport d)).u.chg.enable = true) ∧
  (∀ d, (s.port (dport d)).u.ust = .resuming → exec (.remoteWakeK d) s = .next (settled (hpEvt (dport d) 6
    (s.wr (F.HP_STATUS_RWAKE_SEEN (dport d)) 1)))) ∧
  (s.hub.suspended = true → s.hub.rwakeEn = true → s.hub.resuming = false → exec .remoteWakeEvent s =
    .next (settled (hubEvt 8 (s.modHub fun h => { h with resuming := true })))) ∧
  (∀ d, (s.port (dport d)).u.ust = .l1 → exec (.portL1DeviceExit d) s = .next (settled
    (s.modU (dport d) fun u => { u with ust := .resuming, resumeL1 := true }))) ∧
  (s.mayConnect = true → s.hub.st = .detached → exec .upstreamConnect s = .next (settled (hubEvt 0 (s.modHub fun h =>
    { h with st := .pullUp, recovery := s.glb.level == 0 }))) ∧ exec .connectReevaluate s = .next (settled
      (hubEvt 0 (s.modHub fun h => { h with st := .pullUp, recovery := s.glb.level == 0 })))) ∧
  (∀ path v, s.reaches path R.HUB_CONNECT = true → exec (.hubConnectWrite path v) s =
    .next (settled (hubConnectCmd v (written path R.HUB_CONNECT v s)))) ∧
  (∀ path v, s.reaches path R.HUB_CONNECT = true → exec (.hubConnectDisconnect path v) s =
    .next (settled (hubDetach (written path R.HUB_CONNECT (setBit v 1) s)))) ∧
  (∀ hs, s.hub.st ≠ .detached → exec (.upstreamBusReset hs) s = .next (settled (hubBusReset
    (if hs && !s.rdB F.HUB_CFG_FS_ONLY then .high else .full) (leaveIdle s)))) ∧
  (exec .upstreamDetach s = .next (settled (hubDetach s))) ∧
  (s.hub.st ≠ .detached → s.hub.suspended = false → s.hub.l1 = false → ∃ u : State, exec .globalSuspend s =
    .next (settled (hubEvt 4 (forEach downPorts ttIdle u))) ∧ u.hub.suspended = true ∧
      ∀ p : PortId, (s.port p).u.ust = .enabled → p ≠ PU → (u.port p).u.ust = .suspended) ∧
  (s.hub.suspended = true → ∃ u : State, exec .hostResume s = .next (settled (hubEvt 5 (ttRunAll u))) ∧
    u.hub.suspended = false ∧ u.hub.resuming = false) ∧
  (s.hub.l1 = true → exec .l1Resume s = .next (settled (hubEvt 7 (s.modHub fun h =>
    { h with l1 := false, resuming := false })))) ∧
  (s.hub.l1 = true → s.hub.l1Rwe = true → s.hub.resuming = false → exec .l1RemoteWake s =
    .next (settled (hubEvt 8 (s.modHub fun h => { h with resuming := true })))) ∧
  (∀ f, s.usbUp = true → s.hub.l1 = false → s.hub.speed = .high → s.tim.tb2.valid = true → s.tim.tb2.frame = f →
    s.tim.tb2.uframe ≠ 7 → exec (.sofReceived f) s = .next (settled ((leaveIdle s).modTim fun x => { x with
      tb2 := { valid := true, frame := f, uframe := s.tim.tb2.uframe + 1, pos := 0, agree := s.tim.tb2.agree + 1,
               missed := 0 } }))) ∧
  (s.usbUp = true → s.tim.tb2.valid = true → s.tim.tb2.missed < 2 → exec .sofMissed s = .next (settled (s.modTim fun x =>
    { x with tb2 := { s.tim.tb2 with frame := (s.tim.tb2.next (s.hub.speed == .high)).1,
                                     uframe := (s.tim.tb2.next (s.hub.speed == .high)).2, pos := 0, agree := 0,
                                     missed := s.tim.tb2.missed + 1 } })))

/-- O40, tier 2. R252 to R258: what a transaction translator does with splits and with its port's full-speed bus. `t` is the hub as a
split finds it. -/
def Obligations.SplitsFillBuffersAndRecords : Prop := ∀ (s : State) (d : DPort) (t : State), leaveIdle s = t →
  (s.usbUp = true → t.ttTakes (dport d) = true →
    (∀ ty io a e data k, (t.port (dport d)).tt.find io a e = none → (t.port (dport d)).tt.freeBuf = some k →
      data.length ≤ 64 → exec (.ttStartSplit d ty io a e data true) s =
        .next (settled (answer .ack (npTake (dport d) k ty io a e data t)))) ∧
    (∀ ty io a e data, (t.port (dport d)).tt.find io a e = none → (t.port (dport d)).tt.freeBuf = none →
      data.length ≤ 64 → Does (.ttStartSplit d ty io a e data true) s fun u =>
        u.hub.answer = .nak ∧ (a, e, io) ∈ (u.port (dport d)).tt.naked) ∧
    (∀ ty io a e data, exec (.ttStartSplit d ty io a e data false) s = .next (settled (answer .noHandshake t))) ∧
    (∀ ty a e data k, (t.port (dport d)).tt.find false a e = some k → (t.port (dport d)).tt.np[k].st = .queued →
      data.length ≤ 64 → exec (.ttStartSplit d ty false a e data true) s =
        .next (settled (answer .ack (npFill (dport d) k data t)))) ∧
    (∀ ty io a e k, (t.port (dport d)).tt.find io a e = some k → (t.port (dport d)).tt.np[k].st ≠ .done →
      exec (.ttCompleteSplit d ty io a e) s = .next (settled (answer .nyet t))) ∧
    (∀ ty io a e k r, (t.port (dport d)).tt.find io a e = some k → (t.port (dport d)).tt.np[k].st = .done →
      (t.port (dport d)).tt.np[k].res = some r → r ≠ .data → exec (.ttCompleteSplit d ty io a e) s =
        .next (settled (answer (resultAnswer r) (npFree (dport d) k t)))) ∧
    (∀ ty io a e, (t.port (dport d)).tt.find io a e = none → (a, e, io) ∈ (t.port (dport d)).tt.naked →
      exec (.ttCompleteSplit d ty io a e) s = .next (settled (answer .nyet t))) ∧
    (∀ iso a e k, (t.port (dport d)).tt.freeRec = some k → (t.port (dport d)).tt.ringRoom 0 = true →
      Does (.ttPeriodicStartSplit d iso true a e []) s fun u => u.hub.answer = .noHandshake ∧
        ∃ r ∈ (u.port (dport d)).tt.recs, r.slot = k ∧ r.iso = iso ∧ r.dirIn = true ∧ r.addr = a ∧ r.ep = e) ∧
    (∀ iso io a e data, (t.port (dport d)).tt.freeRec = none → exec (.ttPeriodicStartSplit d iso io a e data) s =
      .next (settled (raiseAt .ttOverrun (some (dport d)) (ttEvt (dport d) 1
        ((answer .noHandshake t).bump (F.HP_TT_ERR_OVERRUN (dport d))))))) ∧
    (∀ io a e last r, (t.port (dport d)).tt.recs.find? (fun r => !r.dropped && r.addr == a && r.ep == e && r.dirIn == io) =
      some r → exec (.ttPeriodicCompleteSplit d io a e last) s = .next (settled
        (if last then recFree (dport d) r.slot (if r.st == .ended then recAnswer (dport d) r t else answer .nyet t)
          else if r.st == .ended then recAnswer (dport d) r t else answer .nyet t)))) ∧
  (s.usbUp = true → t.ttTakes (dport d) = false →
    (∀ ty io a e data ok, exec (.ttStartSplit d ty io a e data ok) s = .next (settled (answer .noHandshake t))) ∧
    (∀ io a e last, exec (.ttPeriodicCompleteSplit d io a e last) s = .next (settled (answer .err t)))) ∧
  (s.ttTakes (dport d) = true → exec (.ttFrameStart d) s =
    .next (settled (ttNext (dport d) (s.modTt (dport d) fun t => { t with frame := s.tim.tb2.frame })))) ∧
  (∀ k r dt data, ((List.finRange 4).find? fun k => (s.port (dport d)).tt.np[k].st == .running) = some k →
    exec (.ttTransactionEnd d r dt data) s = .next (settled (ttNext (dport d) (npEnd (dport d) k r dt data s)))) ∧
  (∀ (k : Fin 16) r, s.coreUp = true → (s.port (dport d)).tt.record k = some r → r.st ≠ .running →
    exec (.ttRecordExpire d k) s = .next (settled (recFree (dport d) k s))) ∧
  (∀ k, s.coreUp = true → (s.port (dport d)).tt.np[k].st = .done → (s.port (dport d)).tt.np[k].stale = false →
    exec (.ttStale d k) s = .next (settled (ttEvt (dport d) 0
      (modNp (dport d) k (fun b => { b with stale := true }) s))))

/-- O41, tier 1. R247, R248, R261 to R263: the requests to a transaction translator, and the command register. -/
def Obligations.TranslatorRequestsAct : Prop := ∀ (s : State) (t : State), leaveIdle s = t →
  (s.usbUp = true → s.configured = true → t.configured = true →
    (∀ n p, t.hub.alt = true → n ≠ 17 → portOf n = some p →
      (∀ v, exec (.ttClearTtBuffer n v) s = .next (settled (answer .ack (ttClear v p t)))) ∧
      exec (.ttResetTt n) s = .next (settled (answer .ack (ttReset p false t))) ∧
      exec (.ttStopTt n) s = .next (settled (answer .ack (ttStop p t))) ∧
      (∀ len, (t.port p).tt.st = .stopped → exec (.ttGetTtState n len) s = .next (settled (reply (t.ttRecord n) len t))) ∧
      (∀ len, (t.port p).tt.st ≠ .stopped → exec (.ttGetTtState n len) s = .next (settled (answer .stall t)))) ∧
    (t.hub.alt = false →
      (∀ v, exec (.ttClearTtBuffer 1 v) s = .next (settled (answer .ack (forEach downPorts (ttClear v) t)))) ∧
      exec (.ttResetTt 1) s = .next (settled (answer .ack (forEach downPorts (ttReset · false) t))) ∧
      exec (.ttStopTt 1) s = .next (settled (answer .ack (forEach downPorts ttStop t)))) ∧
    (∀ n, (t.hub.alt = false ∧ n ≠ 1) ∨ (t.hub.alt = true ∧ n = 17) → exec (.ttStopTt n) s =
      .next (settled (answer .stall t)))) ∧
  (∀ path d v, s.reaches path (R.HP_TT_CMD (dport d)) = true →
    exec (.hpTtCmdReset path d v) s = .next (settled
      (let u := written path (R.HP_TT_CMD (dport d)) (setBit v 0) s
       ttReset (dport d) false (if bitOf v 1 then forEach (List.finRange 4) (npFree (dport d)) u else u))) ∧
    Does (.hpTtCmdClearNp path d v) s fun u => ∃ w : State,
      (bitOf v 0 = false → u = w) ∧ (bitOf v 0 = true → u = ttReset (dport d) false w) ∧
      ∀ k : Fin 4, (w.port (dport d)).tt.np[k].st = .free ∨ (w.port (dport d)).tt.np[k].dropped = true)

/-- O42, tier 1. R264 to R266, R273, R275 to R279, R284, R285: requests on EP0. `t` is the hub once the SETUP packet has ended what EP0
held. -/
def Obligations.FunctionRequestsAreAnswered : Prop := ∀ (s t : State), s.efnUp = true → leaveIdle (setup s) = t →
  (∀ v ix len a, vendorAddr v ix = some a → wordLen len = true → t.vendorHeld 0x40 a len = false →
    exec (.efnVendorRead v ix len) s = .next (settled (vendorRead a len t))) ∧
  (∀ v ix len data a, vendorAddr v ix = some a → wordLen len = true → data.length = len →
    t.vendorHeld 0x41 a len = false → exec (.efnVendorWrite v ix len data) s =
      .next (settled (vendorAck (writeRun a (bytesWords (len / 4) data) t)))) ∧
  (∀ v ix len, vendorAddr v ix = some R.EVQ_POP → wordLen len = true → len % 16 = 0 →
    t.vendorHeld 0x42 R.EVQ_POP len = false → exec (.efnVendorEvqRead v ix len) s = .next (settled (vendorPop len t))) ∧
  (∀ v ix a w, vendorAddr v ix = some a → t.vendorHeld 0x43 a 8 = false →
    exec (.efnVendorKeyedWrite v ix 8 (leBytes 4 0x6B1C ++ wordBytes w)) s =
      .next (settled (vendorAck (regKeyedWrite .usb a w t)))) ∧
  (∀ v ix data a k, vendorAddr v ix = some a → data.length = 8 → leAt data 0 4 = k → k ≠ 0x6B1C →
    exec (.efnVendorKeyedWrite v ix 8 data) s = .next (settled (vendorStall t))) ∧
  (∀ v ix len a, vendorAddr v ix = some a → wordLen len = true → t.vendorHeld 0x40 a len = true →
    exec (.efnVendorRead v ix len) s = .next (settled (vendorHold 0x40 a len [] t))) ∧
  (∀ v ix len, (vendorAddr v ix = none ∨ wordLen len = false) →
    exec (.efnVendorRead v ix len) s = .next (settled (vendorStall t))) ∧
  (∀ c a len data, s.efn.held = some (c, a, len, data) → s.usbP.popWait = false → s.batchOutOfReach = false →
    exec .efnAccessHoldTimeout s = .next (settled (raiseFault
      { src := .regTimeout, addr := a, req := 0, acc := if c = 0x41 ∨ c = 0x43 then 2 else 1 }
      (vendorStall (s.modEfn fun e => { e with held := none }))))) ∧
  (s.batchOutOfReach = true → exec .efnAccessHoldTimeout s = .next (settled (batchEnd 4 [] s))) ∧
  (∀ v ix len l, efnDescriptor (v.toNat / 256 % 256) (v.toNat % 256) t = some l →
    exec (.efnStandardRequest 0x80 6 v ix len) s = .next (settled (reply l len t))) ∧
  (∀ ix len, t.efn.st ≠ .default_ → exec (.efnStandardRequest 0 9 1 ix len) s = .next (settled (answer .ack
    (togglesReset (t.modEfn fun e => { e with st := .configured }))))) ∧
  (∀ v ix len, t.efn.st ≠ .configured → exec (.efnStandardRequest 0 5 v ix len) s = .next (settled (answer .ack
    (t.modEfn fun e => { e with addr := BitVec.ofNat 7 v.toNat, st := if v.toNat % 128 = 0 then .default_ else .addressed })))) ∧
  (∀ v ix len, exec (.efnStandardRequest 0x80 0 v ix len) s = .next (settled (reply [1, 0] len t))) ∧
  (∀ e, e ≠ 0 → s.epExists e = true → s.efn.st = .configured →
    exec (.efnSetHalt e) s = .next (settled (answer .ack
      (outPartial e ((setup s).modEp e fun b => { b with halted := true })))) ∧
    exec (.efnClearHalt e) s = .next (settled (answer .ack
      ((setup s).modEp e fun b => { b with halted := false, toggle := false })))) ∧
  (∀ lost, exec (.efnPortReset lost) s = .next (settled
    (efnDown (if lost then .detached else .default_) s.ep4Records s)))

/-- O43, tier 1. R271, R272, R273, R274, R378: bulk packets of the embedded function. -/
def Obligations.BulkPacketsAreAnswered : Prop := ∀ (s : State) (e : Fin 7), s.epUp e = true →
  (epIsOut e = true → (∀ data, data.length ≤ s.maxPacket → (e = 3 → s.cad.ep2Discard = false) →
      (s.ep e).halted = false → data.length ≤ s.epFree e → Does (.efnBulkOut e data) s fun u =>
        u.hub.answer = (if s.hub.speed == .high && decide (s.epFree e < data.length + 512) then .nyet else .ack) ∧
        (u.ep e).fill = (s.ep e).fill + data.length ∧ (u.ep e).xfers = (s.ep e).xfers ++ [data.length] ∧
        (u.ep e).toggle = !(s.ep e).toggle) ∧
    (∀ data, data.length ≤ s.maxPacket → (e = 3 → s.cad.ep2Discard = false) → (s.ep e).halted = false →
      s.epFree e < data.length → exec (.efnBulkOut e data) s = .next (settled (answer .nak s))) ∧
    (∀ data, data.length ≤ s.maxPacket → (s.ep e).halted = true →
      exec (.efnBulkOut e data) s = .next (settled (answer .stall s))) ∧
    (s.hub.speed = .high → (s.ep e).halted = false → exec (.efnPing e) s =
      .next (settled (answer (if 512 ≤ s.epFree e then .ack else .nak) s))) ∧
    (s.hub.speed = .high → (s.ep e).halted = true → exec (.efnPing e) s = .next (settled (answer .stall s)))) ∧
  (epIsIn e = true →
    (∀ t n, (s.ep e).halted = false → leaveIdle (epFill e s) = t → nextPacket e t = some n → epPoisonAt e n t = none →
      exec (.efnBulkIn e) s = .next (settled (answer (.data ((epPeek e 0 n t).1.1.take n) true
        ((((epPeek e 0 n t).2.modEp e fun b => { b with sent := some n }).ep e).toggle))
        (((epPeek e 0 n t).2.modEp e fun b => { b with sent := some n }).modEp e fun b => { b with poisonRun := 0 })))) ∧
    (∀ t, (s.ep e).halted = false → leaveIdle (epFill e s) = t → nextPacket e t = none →
      exec (.efnBulkIn e) s = .next (settled (answer .nak t))) ∧
    ((s.ep e).halted = true → exec (.efnBulkIn e) s = .next (settled (answer .stall s))) ∧
    (∀ n, (s.ep e).halted = false → (s.ep e).sent = some n → Does (.efnBulkInAck e) s fun u =>
      (u.ep e).sent = none ∧ (u.ep e).toggle = (!(s.ep e).toggle) ∧ (u.ep e).fill = (s.ep e).fill - n))

/-- O44, tier 1. R269, R280 to R285: the batches of EP1, one command at a time, the events message and the carving. -/
def Obligations.BatchesRunCommandByCommand : Prop := ∀ s : State,
  (∀ n, s.efn.batch = .receiving → 8 ≤ s.epFree 2 → (batchExtent s).1.1 = .whole n →
    (∀ b, epPeek 1 0 n (batchExtent s).2 = b → batchCheck b.1.1 (epTakeOut 1 n b.2).respRoom = none →
      exec .batchReceived s = .next (settled ((epTakeOut 1 n b.2).modEfn fun e =>
        { e with batch := .executing, bytes := b.1.1, index := 0, off := 8, resp := [], firstErr := 0xFF,
                 skipping := bitOf (BitVec.ofNat 32 (leAt b.1.1 3 1)) 0, executed := 0, discardResp := false }))) ∧
    (∀ b k, epPeek 1 0 n (batchExtent s).2 = b → batchCheck b.1.1 (epTakeOut 1 n b.2).respRoom = some k →
      exec .batchReceived s = .next (settled (efnResume (malformed (((batchExtent s).1.2 ++ [0, 0]).take 2) k
        (epTakeOut 1 n b.2)))))) ∧
  (s.efn.batch = .receiving → (batchExtent s).1.1 = .partly → exec .batchAbort s = .next (settled (efnResume
    (batchIdle (efnEvt 3 ((epEmpty 1 (batchExtent s).2).bump F.EFN_ERRCNT_MALFORMED)))))) ∧
  (s.batchAt 1 = true → exec .batchRead s = .next (settled (batchEnd (if (batchGets s.efn.arg s.efn.addr24 s).1.2 then 3 else 0)
    (batchGets s.efn.arg s.efn.addr24 s).1.1 (batchGets s.efn.arg s.efn.addr24 s).2))) ∧
  (s.batchAt 2 = true → exec .batchWrite s =
    .next (settled (batchEnd 0 [] (regWrite .usb s.efn.addr24 (BitVec.ofNat 32 s.efn.arg) s)))) ∧
  (s.batchAt 3 = true → exec .batchWriteN s =
    .next (settled (batchEnd 0 [] (writeRun s.efn.addr24 ((List.range s.efn.arg).map s.efn.extra) s)))) ∧
  (∀ w u, s.batchAt 4 = true → batchGet s.efn.addr24 s = ((w, false), u) → exec .batchRmw s =
    .next (settled (batchEnd 0 [] (regWrite .usb s.efn.addr24
      ((w &&& ~~~ BitVec.ofNat 32 s.efn.arg) ||| (s.efn.extra 0 &&& BitVec.ofNat 32 s.efn.arg)) u)))) ∧
  (∀ w u, s.batchAt 4 = true → batchGet s.efn.addr24 s = ((w, true), u) → exec .batchRmw s =
    .next (settled (batchEnd 3 [] u))) ∧
  (∀ w u out, s.batchAt 5 = true → batchGet s.efn.addr24 s = ((w, false), u) → w &&& s.efn.extra 0 = s.efn.extra 1 →
    exec (.batchPoll out) s = .next (settled (batchEnd 0 [w] u))) ∧
  (∀ w u, s.batchAt 5 = true → batchGet s.efn.addr24 s = ((w, false), u) → w &&& s.efn.extra 0 ≠ s.efn.extra 1 →
    exec (.batchPoll true) s = .next (settled (batchEnd 4 [w] u)) ∧ exec (.batchPoll false) s = .next (settled u)) ∧
  (s.batchAt 6 = true → s.efn.extra 0 = 0x6B1C → exec .batchKeyedWrite s =
    .next (settled (batchEnd 0 [] (regKeyedWrite .usb s.efn.addr24 (BitVec.ofNat 32 s.efn.arg) s)))) ∧
  (s.batchAt 6 = true → s.efn.extra 0 ≠ 0x6B1C → exec .batchKeyedWrite s = .next (settled (batchEnd 5 [] s))) ∧
  (s.batchAt 7 = true → exec .batchDelay s = .next (settled (batchEnd 0 [] s))) ∧
  (∀ out, s.batchAt 8 = true → s.evq.held ≠ [] → exec (.batchEvqPop out) s =
    .next (settled (batchEnd 0 (batchPops s.efn.arg [] s).1 (batchPops s.efn.arg [] s).2))) ∧
  (s.coreUp = true → s.efn.batch = .executing → s.efn.batchOver = true → s.efn.discardResp = false →
    8 + s.efn.resp.length ≤ s.epFree 2 → 2 ≤ s.efn.bytes.length → exec .batchDone s = .next (settled (efnResume
      ((epQueueIn 2 (ep1Head 1 (if s.efn.firstErr = 0xFF then 0 else 1) (s.efn.bytes.take 2) (8 + s.efn.resp.length)
        s.efn.executed s.efn.firstErr ++ s.efn.resp) s).2.modEfn fun e =>
          { e with batch := .responseUnread, bytes := [], resp := [] })))) ∧
  (s.epUp 2 = true → s.rdB F.EFN_CTRL_EVQ_PUSH = true → (s.ep 2).xfers = [] → s.evq.held ≠ [] → 24 ≤ s.epFree 2 →
    ∀ r, batchPops (min 31 ((s.epFree 2 - 8) / 16)) [] s = r → exec .evqPushMessage s = .next (settled
      (epQueueIn 2 (ep1Head 2 0 [0, 0] (8 + 16 * (r.1.length / 4)) (r.1.length / 4) 0xFF ++ wordsBytes r.1) r.2).2)) ∧
  (∀ path v, s.reaches path R.EFN_CARVE = true → exec (.efnCarveApply path v) s =
    .next (settled (carveApply (written path R.EFN_CARVE (setBit v 0) s))))

/-- O45, tier 2. R289, R290, R295 to R297, R301: a read of the store window corrects or reports its word, and a write stores fresh check bits
unless a flip is armed for its path. -/
def Obligations.StoreWindowReadsCorrectsAndPoisons : Prop := ∀ (s : State) (path : Path) (addr : BitVec 19) (t : State),
  leaveIdle s = t → s.reaches path (windowAt addr) = true →
  (eccClass (t.cell (addr.toNat / 4)) = .clean → exec (.storeWindowRead path addr) s = .next (settled t)) ∧
  (∀ c, t.cell (addr.toNat / 4) = c → eccClass c = .corrected → exec (.storeWindowRead path addr) s =
    .next (settled (eccCorrected (pathReq path) (addr.toNat / 4) (eccFixed c) t))) ∧
  (eccClass (t.cell (addr.toNat / 4)) = .uncorrectable → exec (.storeWindowRead path addr) s = .next (settled (raiseFault
    { src := poisonSrc path, addr := windowAt addr, req := pathReq path, acc := 1 }
    (eccUncorrectable (pathReq path) (addr.toNat / 4) t)))) ∧
  (∀ v, s.sto.armed ≠ some path → exec (.storeWindowWrite path addr v) s = .next (settled
    ((leaveIdle (s.modPath path fun x => { x with lockOpen := false })).setCell (addr.toNat / 4) (cleanCell v)))) ∧
  (∀ v, s.sto.armed = some path → exec (.storeWindowWrite path addr v) s = .next (settled
    (windowWrite path (addr.toNat / 4 * 4) v (leaveIdle (s.modPath path fun x => { x with lockOpen := false })))))

/-- O46, tier 1. R299 to R302: the patrol scrub, the log and the counters, the armed flip, page retirement. -/
def Obligations.ScrubLogFlipAndRetireAct : Prop := ∀ (s : State) (path : Path),
  (∀ k, s.scrubs = true → s.sto.scrubPos = k → k < 131071 → s.retired (k / 256) = false → exec .scrubSlot s =
    .next (settled ((storeRead 7 k s).2.modSto fun x => { x with scrubPos := k + 1 }))) ∧
  (∀ k, s.scrubs = true → s.sto.scrubPos = k → k < 131071 → s.retired (k / 256) = true → exec .scrubSlot s =
    .next (settled (s.modSto fun x => { x with scrubPos := k + 1 }))) ∧
  (s.scrubs = true → s.sto.scrubPos = 131071 → ∃ u : State, exec .scrubSlot s = .next (settled (raiseEvt0 R.STO_EVT 3
    ((u.bumpWrap F.STO_SCRUB_PASSES).modSto fun x => { x with scrubPos := 0 })))) ∧
  (∀ v, s.reaches path R.STO_CMD = true →
    exec (.stoCmdClrLog path v) s = .next (settled (stoCmd (setBit v 1) (written path R.STO_CMD (setBit v 1) s))) ∧
    exec (.stoCmdClrCnt path v) s = .next (settled (stoCmd (setBit v 0) (written path R.STO_CMD (setBit v 0) s)))) ∧
  (∀ (k : Fin 16) v, s.reaches path (R.STO_ECCLOG k) = true → exec (.stoEcclogClear path k v) s = .next (settled
    ((written path (R.STO_ECCLOG k) (setBit v 31) s).setReg (R.STO_ECCLOG k) 0))) ∧
  (∀ v, s.reaches path R.STO_FLIP_C = true → (s.path path).lockOpen = true →
    exec (.stoFlipArm path v) s = .next (settled (flipArm path v (written path R.STO_FLIP_C v s)))) ∧
  (∀ (k : Fin 16) v u, s.reaches path (R.STO_RETIRE k) = true → (s.path path).lockOpen = true →
    written path (R.STO_RETIRE k) v s = u → exec (.stoRetireWrite path k v) s =
      .next (settled (u.setReg (R.STO_RETIRE k) (u.reg (R.STO_RETIRE k) ||| v))))

/-- O47, tier 1. R297, R418, R419: a pop gives the oldest entry to the path's latch and drops it; FLUSH counts what it discards. -/
def Obligations.EventQueueRegistersPopAndFlush : Prop := ∀ (s : State) (path : Path) (t : State), leaveIdle s = t →
  (∀ m rest, s.reaches path R.EVQ_POP = true → t.evq.held = m :: rest → exec (.evqPop path) s =
    .next (settled (latchPop path (evqEntryWords m.addr t).1 (evqDropOldest (evqEntryWords m.addr t).2)))) ∧
  (s.reaches path R.EVQ_POP = true → t.evq.held = [] → t.popBlocks = false → exec (.evqPop path) s =
    .next (settled (latchPop path (noEntry false) t))) ∧
  (s.reaches path R.EVQ_POP = true → t.evq.held = [] → t.popBlocks = true → exec (.evqPop path) s =
    .next (settled (t.modPath path fun x => { x with popWait := true }))) ∧
  ((s.path path).popWait = true → exec (.evqPopBlockTimeout path) s = .next (settled (endPop path (noEntry true) s))) ∧
  (∀ v, s.reaches path R.EVQ_CMD = true → exec (.evqCmdFlush path v) s =
    .next (settled (evqFlush (written path R.EVQ_CMD (setBit v 0) s))))

/-- O48, tier 1. R310, R311, R315, R316, R318 to R321: holdover, TPULSE, captures, the latched reads, the alarm and the re-advance. -/
def Obligations.TimeBaseCommandsAct : Prop := ∀ (s : State) (path : Path) (t : State), leaveIdle s = t →
  (s.rdB F.TIM_CTRL_HOLDOVER = true → s.timeUp = true → s.tim.undisc = false → exec .holdoverExpire s =
    .next (settled (raiseEvt0 R.TIM_EVT 5 { s with tim := { s.tim with undisc := true } }))) ∧
  (s.timeUp = true → s.tpMode = 2 → s.tim.tpNext ≤ s.tb0.sec → exec .tpulseFire s =
    .next (settled { s with tim := { s.tim with tpPulse := true, tpNext := s.tb0.sec + 1 } })) ∧
  (s.timeUp = true → s.tpMode = 3 → s.rdB F.TIM_TP_AT_NS_ARM = true → tbLe s.tpAt s.tb0 = true → exec .tpulseFire s =
    .next (settled (({ s with tim := { s.tim with tpPulse := true, tpNext := s.tb0.sec + 1 } } : State).wr
      F.TIM_TP_AT_NS_ARM 0))) ∧
  (exec .tpulseEnd s = .next (settled { s with tim := { s.tim with tpPulse := false } })) ∧
  (∀ r, s.timeUp = true → s.tpMode = 1 → s.rdB F.TIM_CTRL_TP_POL = !r → exec (.tpulseInputEdge r) s =
    .next (settled (raiseEvt0 R.TIM_EVT 0 (timCapture 0 0 s)))) ∧
  (∀ v u, s.reaches path R.TIM_CMD = true → written path R.TIM_CMD (setBit v 0) s = u → u.timeUp = true →
    exec (.timSwCap path v) s = .next (settled (timCapture 2 (BitVec.ofNat 32 u.tb3) u))) ∧
  (∀ k : Fin 3, s.reaches path (R.TIM_CAP_STAT k) = true → exec (.timCapStatRead path k) s = .next (settled
    ((latchSeq path (R.TIM_CAP_SLO k) ((List.range 5).map fun j => t.reg (R.TIM_CAP_SLO k + 4 * j)) t).setReg
      (R.TIM_CAP_STAT k) (t.reg (R.TIM_CAP_STAT k) &&& ~~~ 3)))) ∧
  (s.reaches path R.TIM_TB0_NS = true → exec (.timTb0NsRead path) s = .next (settled (tb0Read path t).2)) ∧
  (s.reaches path R.TIM_TB3_LO = true → exec (.timTb3LoRead path) s = .next (settled
    (latchSeq path R.TIM_TB3_HI [BitVec.ofNat 32 (t.tb3 / 2 ^ 32)] t))) ∧
  (s.alarmDue = true → exec .tb3Alarm s = .next (settled (wakeSourceAt .alarm none (raiseEvt0 R.TIM_EVT 8
    (s.wr F.TIM_TB3_ALARM_HI_EN 0))))) ∧
  (s.tim.readvance = true → s.pwr.x24Run = true → Does .tbReadvance s fun u =>
    u.tim.readvance = false ∧ u.tim.undisc = true ∧
    u.tim.tb1 = s.tim.shadow1 + BitVec.ofNat 64 ((s.tim.tb3 - s.tim.shadow3).toNat * 3906250 / 128))

/-- O49, tier 1. R322 to R329: discovery of the alternate mode by a downstream port, and its end. -/
def Obligations.ModeDiscoveryRunsStepByStep : Prop := ∀ (s : State) (d : DPort),
  (s.mayDiscover (dport d) = true → exec (.cadDiscoveryStart d) s = .next (settled (startVdm (dport d) 0xFF00 0 1 []
    (s.modCl (dport d) fun l => { l with st := .discover, disc := .identity, busy := 0 })))) ∧
  (s.coreUp = true → (s.port (dport d)).cl.exiting = false → (s.port (dport d)).cl.st = .discover →
    (∀ vdos, (s.port (dport d)).cl.disc = .identity → exec (.cadVdmResponse d (.ack vdos)) s =
      .next (settled (startVdm (dport d) 0xFF00 0 2 []
        (s.modCl (dport d) fun l => { l with disc := .svids, busy := 0 })))) ∧
    (∀ vdos, (s.port (dport d)).cl.disc = .svids →
      (vdos.flatMap fun w => [bitsOf w 16 16, bitsOf w 0 16]).contains s.cadSvid = true →
      exec (.cadVdmResponse d (.ack vdos)) s = .next (settled (startVdm (dport d) s.cadSvid 0 3 []
        (s.modCl (dport d) fun l => { l with disc := .modes, busy := 0 })))) ∧
    (∀ vdos, (s.port (dport d)).cl.disc = .svids →
      (vdos.flatMap fun w => [bitsOf w 16 16, bitsOf w 0 16]).contains s.cadSvid = false →
      exec (.cadVdmResponse d (.ack vdos)) s = .next (settled
        (s.modCl (dport d) fun l => { l with st := .noMode, cause := .noSvid }))) ∧
    (∀ vdos, (s.port (dport d)).cl.disc = .modes → vdos.any modeVdoOk = false →
      exec (.cadVdmResponse d (.ack vdos)) s = .next (settled
        (s.modCl (dport d) fun l => { l with st := .noMode, cause := .badVdo }))) ∧
    (∀ w rest, (s.port (dport d)).cl.disc = .modes → modeVdoOk w = true →
      Does (.cadVdmResponse d (.ack (w :: rest))) s fun u =>
        (u.port (dport d)).cl.objPos = 1 ∧ (u.port (dport d)).cl.disc = .enter) ∧
    (∀ vdos, (s.port (dport d)).cl.disc = .enter → exec (.cadVdmResponse d (.ack vdos)) s =
      .next (settled (cadEntered (dport d) (s.selVer (dport d) 2) s))) ∧
    (exec (.cadVdmResponse d .nak) s = .next (settled
      (s.modCl (dport d) fun l => { l with st := .noMode, cause := .nak }))) ∧
    ((s.port (dport d)).cl.busy < 5 → exec (.cadVdmResponse d .busy) s = .next (settled
      (s.modCl (dport d) fun l => { l with busy := l.busy + 1 }))) ∧
    (exec (.cadVdmTimeout d) s = .next (settled
      (s.modCl (dport d) fun l => { l with st := .noMode, cause := .noResponse }))) ∧
    ((s.port (dport d)).cl.busy ≠ 0 → exec (.cadVdmBusyRetry d) s = .next (settled (discSend (dport d) s)))) ∧
  ((s.port (dport d)).cl.exiting = true → exec (.cadExitModeTimeout d) s = .next (settled
    (s.modCl (dport d) fun l => { l with exiting := false, entered := false })) ∧
    (∀ vdos, s.coreUp = true → exec (.cadVdmResponse d (.ack vdos)) s = .next (settled
      (s.modCl (dport d) fun l => { l with exiting := false, entered := false })))) ∧
  (∀ w, s.pdUp (dport d) = true → ((pdIn (dport d) false s).port (dport d)).cl.st = .up → bitsOf w 24 8 = 0xCD →
    bitOf w 8 = true → bitsOf w 16 2 = 0 → exec (.cadAttentionRx d w) s = .next (settled (cadRetrain (dport d)
      ((pdIn (dport d) false s).port (dport d)).cl.ver (pdIn (dport d) false s))))

/-- O50, tier 1. R324 to R329, R350: the hub's answers on PU, and Exit Mode. -/
def Obligations.UpstreamAnswersTheModeCommands : Prop := ∀ (s : State) (t : State), pdIn PU false s = t →
  (s.pdUp PU = true →
    (s.puCad = true → exec .cadDiscoverSvidsRx s =
      .next (settled (sendVdm PU 0xFF00 0 1 2 [atBits 16 16 s.cadSvid] t)) ∧
      exec .cadDiscoverModesRx s = .next (settled (sendVdm PU s.cadSvid 0 1 3
        [if s.maxVer = 2 then 0xCD033400 else 0xCD013400] t))) ∧
    (s.puCad = false → exec .cadDiscoverSvidsRx s = .next (settled (sendVdm PU 0xFF00 0 2 2 [] t)) ∧
      exec .cadDiscoverModesRx s = .next (settled (sendVdm PU s.cadSvid 0 2 3 [] t)))) ∧
  (∀ u : State, s.fresh.2.fresh.2 = u → u.pdUp PU = true → ∃ hdr cert : Word, bitsOf hdr 0 16 = s.img.vid.toNat ∧
    bitsOf hdr 26 1 = 1 ∧ bitsOf hdr 27 3 = 1 ∧ exec .cadDiscoverIdentityRx s = .next (settled (sendVdm PU 0xFF00 0 1 1
      [hdr, cert, atBits 16 16 s.img.pid.toNat ||| atBits 0 16 s.img.bcd.toNat] (pdIn PU false u)))) ∧
  (∀ v, s.pdUp PU = true → s.coreUp = true → s.puCad = true → (s.port PU).cl.rx.alloc = true → 1 ≤ bitsOf v 16 2 →
    bitsOf v 16 2 ≤ s.maxVer → exec (.cadEnterModeRx v) s = .next (settled ((sendVdm PU s.cadSvid 1 1 4 [] t).modCl PU fun l =>
      { l with enterVer := Fin.ofNat 3 (bitsOf v 16 2), objPos := 1 }))) ∧
  (∀ v, s.pdUp PU = true → bitsOf v 16 2 = 0 → exec (.cadEnterModeRx v) s =
    .next (settled (sendVdm PU s.cadSvid 1 2 4 [] t))) ∧
  (∀ p u, s.pdUp p = true → pdIn p false s = u → exec (.cadExitModeRx p) s = .next (settled ((linkDown p .exitMode .off
    (sendVdm p u.cadSvid (u.port p).cl.objPos.val 1 5 [] u)).modCl p fun l =>
      { l with entered := false, exiting := false, ver := 0 }))) ∧
  (∀ v, s.coreUp = true → (s.port PU).cl.attention = some v → (s.port PU).cl.st.live = true →
    exec .cadAttentionRepeat s = .next (settled (cadAttention v s)))

/-- O51, tier 1. R323, R346 to R350: training, retrains, the commands of CL_CMD. -/
def Obligations.LinksTrainAndRetrain : Prop := ∀ (s : State) (p : PortId), s.coreUp = true →
  ((s.port p).cl.st = .train → (s.port p).cl.locked = false → p.val < 16 → exec (.cadReceiverLock p) s =
    .next (settled (trainEcho p (s.modCl p fun l => { l with locked := true, everLocked := true })))) ∧
  ((s.port PU).cl.st = .train → (s.port PU).cl.locked = false → exec (.cadReceiverLock PU) s =
    .next (settled (s.modCl PU fun l => { l with locked := true, everLocked := true }))) ∧
  ((s.port p).cl.st = .train → (s.port p).cl.fails.val < 2 → exec (.cadTrainAttemptFail p) s = .next (settled (cadTrain p 1
    (s.modCl p fun l => { l with fails := l.fails + 1, wire := none,
                                 outQ := l.outQ.filter fun f => f.kind != .train })))) ∧
  ((s.port p).cl.st = .train → (s.port p).cl.fails.val = 2 → exec (.cadTrainAttemptFail p) s = .next (settled (cadFail p
    (s.modCl p fun l => { l with fails := l.fails + 1, wire := none,
                                 outQ := l.outQ.filter fun f => f.kind != .train })))) ∧
  ((s.port PU).cl.st = .train ∨ (s.port PU).cl.st = .retrain → exec .cadUpFrameRx s = .next (settled (cadUp PU s))) ∧
  ((s.port p).cl.st = .up → p.val < 16 → exec (.cadLossOfLock p) s =
    .next (settled (cadRetrain p (s.port p).cl.ver s))) ∧
  ((s.port PU).cl.st = .up → exec (.cadLossOfLock PU) s = .next (settled (cadAttention (s.port PU).cl.ver s))) ∧
  (∀ v, (s.port PU).cl.st = .up → exec (.cadRetrainSetRx v) s =
    .next (settled (cadRetrain PU (if v = 0 then 1 else 2) s))) ∧
  ((s.port p).cl.st = .retrain → exec (.cadRetrainTimeout p) s = .next (settled (cadTrain p (s.port p).cl.ver
    ((linkDown p .retrainFail .train s).modCl p fun l => { l with fails := 0, everLocked := false })))) ∧
  (∀ path v, s.reaches path (R.CL_CMD p) = true →
    exec (.clCmdEnter path p v) s = .next (settled (clCmd p (setBit v 0) (written path (R.CL_CMD p) (setBit v 0) s))) ∧
    exec (.clCmdRetrain path p v) s = .next (settled (clCmd p (setBit v 1) (written path (R.CL_CMD p) (setBit v 1) s))))

/-- O52, tier 1. R335 to R339, R343, R344, R359: a frame whose K29.7 has been received on a link that is UP. Its stamps lie the frame's
time on the wire back. -/
def Obligations.ReceivedFramesAreCheckedAndRouted : Prop := ∀ (s : State) (p : PortId) (b : List Byte), s.coreUp = true →
  (s.port p).cl.st = .up →
  (exec (.cadFrameRx p false b) s = .next (settled (s.bump (F.CL_ERR0_CODE_ROUTE p)))) ∧
  (rxCheck true b = .format → exec (.cadFrameRx p true b) s = .next (settled (s.bump (F.CL_ERR0_FORMAT_UNKNOWN p)))) ∧
  (rxCheck true b = .crc → exec (.cadFrameRx p true b) s = .next (settled (s.bump (F.CL_ERR0_CRC_NO_ROUTE p)))) ∧
  (rxCheck true b = .poison → exec (.cadFrameRx p true b) s =
    .next (settled (clEvt p 3 (s.bump (F.CL_ERR0_POISON_FWD_DROP p))))) ∧
  (∀ t rx1 l, rxCheck true b = .good → tbOfNs (tbNs s.tb0 - frameNs (s.port p).cl.ver.val b.length) = t →
    s.tim.tb1 - BitVec.ofNat 64 (frameNs (s.port p).cl.ver.val b.length) = rx1 → b.take (b.length - 4) = l →
    (p.val < 16 → exec (.cadFrameRx p true b) s = .next (settled (upRx p t rx1 l s))) ∧
    (p = PU → exec (.cadFrameRx p true b) s = .next (settled (downRx t rx1 l s))) ∧
    (p = PU → frType b = 1 → exec (.cadSyncRx p b) s = .next (settled (downRx t rx1 l s))) ∧
    (p.val < 16 → frType b = 2 → exec (.cadDelayReqRx p b) s = .next (settled (upRx p t rx1 l s))) ∧
    (p = PU → frType b = 3 → exec (.cadDelayRespRx p b) s = .next (settled (downRx t rx1 l s))) ∧
    (p = PU → frType b = 0x12 → exec (.cadBellRx p b) s = .next (settled (downRx t rx1 l s))) ∧
    (p.val < 16 → frType b = 0x3F → exec (.cadEchoRx p b) s = .next (settled (upRx p t rx1 l s))))

/-- O53, tier 1. R336, R338, R339, R344, R351 to R353, R359: where the two routing rules send a good frame. -/
def Obligations.RoutingFollowsModeAndTier : Prop := ∀ (s : State) (t : TbTime) (rx1 : BitVec 64) (l : List Byte),
  (frType l = 1 → s.cadSync = true → routeMode (frRoute l) = 0xF → frLen l = 16 → 1 ≤ frHop l → frHop l ≤ 5 →
    s.cadRoot = false → downRx t rx1 l s =
      (setTier (Fin.ofNat 6 (frHop l)) (s.modCad fun c => { c with tooDeep := false })).modCad fun c =>
      { c with syncUndisc := (beAt (frPayload l) 10 1).testBit 0, syncAbsent := false,
               xs := c.xs ++ [{ t1 := ⟨beAt (frPayload l) 0 6, beAt (frPayload l) 6 4⟩,
                                c1 := BitVec.ofNat 48 (frCorr l), t2 := t, due := delayDue t }] }) ∧
  (frType l = 1 → routeMode (frRoute l) = 0xF → frLen l = 16 → 5 < frHop l → s.cadRoot = false → downRx t rx1 l s =
    raiseAt .cadTooDeep none (cadEvt 1 (setTier 0 (s.modCad fun c => { c with tooDeep := true })))) ∧
  (frType l ≠ 1 → frType l = 2 ∨ (s.tier ≠ 0 ∧ frHop l ≠ s.tier) → downRx t rx1 l s = routeErr PU s) ∧
  (frType l = 0x12 → (s.tier = 0 ∨ frHop l = s.tier) → downRx t rx1 l s =
    forEach ((clEvt PU 5 (cadDeliver PU t l s)).fanOut fun _ => true) (fun p => cadSendOn p rx1 (hopUp l))
      (clEvt PU 5 (cadDeliver PU t l s))) ∧
  (∀ m, frType l ≠ 1 → frType l ≠ 2 → frType l ≠ 0x12 → frHop l = s.tier → routeMode (frRoute l) = m → 1 ≤ m → m ≤ 5 →
    1 ≤ s.tier → s.tier ≤ m → downRx t rx1 l s =
      cadSendOn (Fin.ofNat 17 (routeNib (frRoute l) s.tier)) rx1 (hopUp l) s) ∧
  (∀ m, frType l ≠ 1 → frType l ≠ 2 → frType l ≠ 0x12 → frHop l = s.tier → routeMode (frRoute l) = m → 1 ≤ m → m ≤ 5 →
    m < s.tier → downRx t rx1 l s = routeErr PU s) ∧
  (∀ p : PortId, frType l = 1 → upRx p t rx1 l s = routeErr p s) ∧
  (∀ p : PortId, frType l ≠ 1 → routeMode (frRoute l) = 0 → (frType l = 0x3F ∧ frFlag l 2 = true) → upRx p t rx1 l s =
    echoReply p 0 (s.tier + 1) l s) ∧
  (∀ p : PortId, frType l ≠ 1 → routeMode (frRoute l) = 0 → frFlag l 2 = false → upRx p t rx1 l s = cadDeliver p t l s) ∧
  (∀ p : PortId, frType l ≠ 1 → routeMode (frRoute l) ≠ 0 → upAccepted s.tier (routeMode (frRoute l)) = false →
    upRx p t rx1 l s = routeErr p s) ∧
  (∀ p : PortId, frType l = 2 → routeMode (frRoute l) ≠ 0 → upAccepted s.tier (routeMode (frRoute l)) = true →
    s.cadTransparent = false → upRx p t rx1 l s = delayAnswer p t (upFinish p s.tier (frRoute l)) l s)

/-- O54, tier 1. R340, R346, R351 to R355, R369: the frames a hub sends at set times, the end of a frame, the exchange record. -/
def Obligations.TimedFramesAndTheirEndsAct : Prop := ∀ s : State,
  (∀ p f, (s.port p).cl.wire = some f → f.kind = .other → exec (.cadFrameTxDone p) s =
    .next (settled (cadPump p (freeIdle (s.modCl p fun l => { l with wire := none }))))) ∧
  (∀ p f q, (s.port p).cl.wire = some f → f.kind = .launch q → exec (.cadFrameTxDone p) s =
    .next (settled (cadPump p (launchDone q p (freeIdle (s.modCl p fun l => { l with wire := none })))))) ∧
  (∀ p f, (s.port p).cl.wire = some f → f.kind = .train → p.val < 16 → frLen f.bytes = 0 → exec (.cadFrameTxDone p) s =
    .next (settled (cadUp p (freeIdle (s.modCl p fun l => { l with wire := none }))))) ∧
  (s.coreUp = true → s.sendsSync = true → s.cad.tooDeep = false → downPorts.any s.timedMay = true →
    exec .cadSyncDue s = .next (settled ((forEach downPorts (fun p => timedStart p .sync s.syncFrame) s).modCad
      fun c => { c with seqSync := c.seqSync + 1 }))) ∧
  (∀ x, s.cad.xs.find? (fun x => x.t3.isNone) = some x → s.coreUp = true → s.cadSync = true → tbLe x.due s.tb0 = true →
    s.timedMay PU = true → exec .cadDelayReqDue s = .next (settled ((timedStart PU .delayReq
      (mkFrame 0x02 8 s.cad.seqReq.toNat s.upRoute (s.rd F.CAD_SRC_ADDR) 0 0 []) s).modCad fun c =>
        { c with seqReq := c.seqReq + 1,
                 xs := c.xs.map fun e => if e = x then { x with t3 := some x.due, seq := s.cad.seqReq } else e }))) ∧
  (∀ x, s.cad.xs.find? (fun x => x.t3.isSome) = some x → exec .cadDelayRespMiss s = .next (settled
    ((s.modCad fun c => { c with xs := c.xs.filter (· ≠ x) }).bump F.CL_XS_STAT_MISS))) ∧
  (s.cadSync = true → exec .cadSyncAbsent s = .next (settled (s.modCad fun c => { c with syncAbsent := true }))) ∧
  (∀ path t, leaveIdle s = t → s.reaches path R.CL_XS_STAT = true → exec (.puClXsStatRead path) s = .next (settled
    (latchSeq path R.CL_XS_T1_SHI ((List.range 16).map fun k => (touchDomain R.CL_XS_STAT t).reg (R.CL_XS_T1_SHI + 4 * k))
      (touchDomain R.CL_XS_STAT t))))

/-- O55, tier 1. R35, R361 to R372: handing over, preparing, launching and completing descriptors; R373 to R378: the host's side. -/
def Obligations.LaunchQueuesHandOverPrepareAndComplete : Prop := ∀ s : State,
  (∀ path q v, s.reaches path (lqTailReg q) = true → exec (.cadTailWrite path q v) s =
    .next (settled (cadTail q v (written path (lqTailReg q) v s)))) ∧
  (∀ path q v, s.reaches path (lqCmdReg q) = true → exec (.cadQueueResume path q v) s =
    .next (settled (cadLqCmd q (setBit v 0) (written path (lqCmdReg q) (setBit v 0) s)))) ∧
  (∀ path q v, s.reaches path (lqCmdReg q) = true → exec (.cadQueueFlush path q v) s =
    .next (settled (cadLqCmd q (setBit v 1) (written path (lqCmdReg q) (setBit v 1) s)))) ∧
  (∀ path p v, s.reaches path (R.CL_RX_RD p) = true → exec (.cadRxRdWrite path p v) s =
    .next (settled (cadRxRd p v (written path (R.CL_RX_RD p) v s)))) ∧
  (∀ q t o rest, (s.lq q).handed = (t, o) :: rest → (s.lq q).st = .run → (s.lq q).head = none →
    ∃ (d : HeadDesc) (u : State), exec (.cadDescPrepared q) s = .next (settled (settleHead q (u.modLq q fun l =>
      { l with head := some d,
               handed := if (s.lq q).done + BitVec.ofNat 16 (s.lq q).flight.length + 1 = t then rest else l.handed }))) ∧
      d.order = o) ∧
  (∀ q d, (s.lq q).st = .run → (s.lq q).head = some d → d.dead = none → tbLe d.time s.tb0 = true →
    ∃ u : State, exec (.cadLaunchTime q) s = .next (settled (settleHead q u))) ∧
  (∀ q d rest, (s.lq q).flight = d :: rest → d.ready = true → exec (.cadDescComplete q) s =
    .next (settled (completeFlight q s))) ∧
  (∀ h q, epPeek 3 0 (min (s.ep 3).fill 28) s = h → 28 ≤ (s.ep 3).fill → reqQueue (leAt h.1.1 0 1) = some q →
    leAt h.1.1 2 2 = reqSize (leAt h.1.1 27 1) → leAt h.1.1 2 2 ≤ (s.ep 3).fill → exec .cadEp2Request s =
      .next (settled (ep2Take q (leAt h.1.1 18 2) (leAt h.1.1 27 1) (leAt h.1.1 2 2) h.2))) ∧
  (∀ ep3, exec (.cadEpRecordAck ep3) s = .next (settled (bulkInAck (if ep3 then 5 else 4) s)))

/-- O56, tier 1. R381 to R387, R403: IDLE, entry to SLEEP, DEEP and OFF, the commands of PWR_CMD. -/
def Obligations.PowerStatesAreEnteredAndLeft : Prop := ∀ s : State,
  (s.isUp = true → s.pwr.st = .run → s.rdB F.PWR_CTRL_IDLE_EN = true → exec .idleEnter s =
    .next (settled { s with pwr := { s.pwr with st := .idle } })) ∧
  (s.awake = true → s.rdB F.PWR_CTRL_SLEEP_EN = true → s.entryAll 8 = true → exec .autoSleepDue s =
    .next (settled (entryStart .sleep s))) ∧
  (s.awake = true → s.rdB F.PWR_CTRL_DEEP_EN = true → s.entryAll 11 = true → exec .autoDeepDue s =
    .next (settled (entryStart .deep s))) ∧
  (∀ path v, s.reaches path R.PWR_CMD = true → (s.path path).lockOpen = false →
    (written path R.PWR_CMD (setBit v 0) s).isUp = true → exec (.pwrCmdDeep path v) s = .next (settled
      ((written path R.PWR_CMD (setBit v 0) s).modPwr fun x => { x with request := some .deep }))) ∧
  (∀ path v, s.reaches path R.PWR_CMD = true → (s.path path).lockOpen = true →
    (written path R.PWR_CMD (setBit v 1) s).isUp = true → exec (.pwrCmdOff path v) s = .next (settled
      ((written path R.PWR_CMD (setBit v 1) s).modPwr fun x => { x with request := some .off }))) ∧
  (s.pwr.request ≠ none → exec .pwrCmdBlocked s = .next (settled (pwrEvt 4 0
    (((s.wr F.PWR_STATUS_BLOCK s.blockMask).wr F.PWR_STATUS_RESULT 2).modPwr fun x => { x with request := none })))) ∧
  (s.pwr.st = .entering → s.pwr.target = .sleep → s.pwr.wakePend = false → exec .powerEntryDone s =
    .next (settled (resume (s.modPwr fun x => { x with st := .sleep })))) ∧
  (s.pwr.st = .entering → s.pwr.target = .deep → (powerOff s).pwr.wakePend = false → exec .powerEntryDone s =
    .next (settled (resume ((powerOff s).modPwr fun x => { x with st := .deep, rc8Run := false })))) ∧
  (s.pwr.st = .entering → s.pwr.target = .off → exec .powerEntryDone s = .next (settled (resume (offState s)))) ∧
  (s.glb.phase = .off → exec .wakeNOffExit s = .next (settled (coldReset 6 s)))

/-- O57, tier 1. R386 to R390, R392 to R395, R401: wake sources, the wake, its failures, the sentinels, the domains. -/
def Obligations.WakeSourcesStartTheWake : Prop := ∀ s : State,
  (∀ w p, s.isUp = true → s.pwr.st = .sleep → s.wakes w = true → s.glb.phase ≠ .x24 → exec (.wakeSource w p) s =
    .next (settled (wakeStart .sleep (wakeRecord w p
      (s.setReg R.PWR_WAKE_SRC (setBit (s.reg R.PWR_WAKE_SRC) (WakeSrcCode w - 1))))))) ∧
  (∀ w p, s.isUp = true → s.pwr.st = .deep → s.wakes w = true → s.glb.phase ≠ .x24 → exec (.wakeSource w p) s =
    .next (settled (wakeStart .deep (wakeRecord w p
      (s.setReg R.PWR_WAKE_SRC (setBit (s.reg R.PWR_WAKE_SRC) (WakeSrcCode w - 1))))))) ∧
  (∀ w p, s.isUp = true → s.pwr.st = .sleep → s.wakes w = false → s.glb.phase ≠ .x24 → exec (.wakeSource w p) s =
    .next (settled (s.setReg R.PWR_WAKE_SRC (setBit (s.reg R.PWR_WAKE_SRC) (WakeSrcCode w - 1))))) ∧
  (∀ bad t, s.pwr.st = .waking → s.pwr.retryDue = false →
    evqFlushAon (if !s.pwr.vddcOn || s.pwr.from_ == .deep then wakeDeep bad s else wakeSleep s) = t →
    (∀ u, forEach allPorts sentinelHand
      ((pwrEvt 0 (t.reg R.PWR_WAKE_REC) t).modPwr (fun x => { x with wakePend := false, srcSeen := false })) = u →
      u.flt.wakeHold = false → exec (.wakeDone bad) s = .next (settled (resume u)))) ∧
  (∀ c, s.pwr.st = .waking → s.pwr.retryDue = false → s.pwr.from_ = .deep → s.pwr.attempts.val < 3 →
    exec (.wakeAttemptFail c) s = .next (settled ((s.wr F.PWR_WAKE_REC_FAIL_CAUSE (WakeFailCode c)).modPwr fun x =>
      { x with pmbCtrl := false, x24Run := false, x24Ready := false, retryDue := true }))) ∧
  (∀ c, s.pwr.st = .waking → s.pwr.retryDue = false → s.pwr.from_ = .deep → 3 ≤ s.pwr.attempts.val →
    Does (.wakeAttemptFail c) s fun u => u.pwr.st = .wakeFail ∧ u.flt.wakeHold = true) ∧
  (s.glb.phase ≠ .x24 → s.pwr.st = .waking → s.pwr.retryDue = true → exec .wakeRetryDue s = .next (settled
    ((wakeAttempt s).modPwr fun x => { x with pmbCtrl := true }))) ∧
  (∀ p m, s.pwr.st = .sleep → (s.port p).pd.contract ≠ none → (s.port p).pd.sentinel = none → m.length ≤ 32 →
    isAttention m = false → exec (.sentinelMessage p m) s = .next (settled
      (wakeSeen .pd (some p) (s.modPd p fun x => { x with sentinel := some m })))) ∧
  (∀ p m, s.pwr.st = .sleep → (s.port p).pd.contract ≠ none → (s.port p).pd.sentinel = none → m.length ≤ 32 →
    isAttention m = true → exec (.sentinelMessage p m) s = .next (settled
      (s.modPd p fun x => { x with sentinel := some m }))) ∧
  (∀ p, exec (.sentinelKeepalive p) s = .next (settled s)) ∧
  (∀ a, a.toNat = s.i2cAddr → s.aonUp = true → s.pwr.st ≠ .wakeFail → exec (.i2cAddressMatch a) s = .next (settled
    ((s.modI2c fun i => { i with matched := true }).modPwr fun x => { x with rc8Run := true }))) ∧
  (∀ b, s.awake = true → s.rdB F.PWR_CTRL_DPHY_GATE = true → (quadPorts b).any s.gateOpen = false →
    exec (.dphyPowerDown b) s = .next (settled (setDphy b false s))) ∧
  (∀ b, s.coreUp = true → s.isUp = true → exec (.dphyPowerUp b) s = .next (settled (setDphy b true s)))

/-- O58, tier 1. R404, R405, R407, R408, R410 to R412: the temperatures, the end of a condition, recovery and its release, the capture. -/
def Obligations.FaultCollectorCommandsAct : Prop := ∀ s : State,
  (∀ c, (150 : Int) ≤ c → s.aonUp = true → s.flt.tempCrit = false → exec (.tempCrit c) s = .next (settled
    (raiseAt .tempCrit none ((s.wr F.FLT_TEMP_TEMP (BitVec.ofInt 8 c).toNat).modFlt fun f => { f with tempCrit := true })))) ∧
  (∀ c, (135 : Int) ≤ c → s.aonUp = true → s.flt.tempHigh = false → exec (.tempHigh c) s = .next (settled
    (raiseAt .tempHigh none ((s.wr F.FLT_TEMP_TEMP (BitVec.ofInt 8 c).toNat).modFlt fun f => { f with tempHigh := true })))) ∧
  (exec (.faultConditionEnd .tempCrit) s = .next (settled (feedSelect { s with flt := { s.flt with tempCrit := false } }))) ∧
  (exec (.faultConditionEnd .vinOv) s = .next (settled (feedSelect { s with flt := { s.flt with vinOv := false } }))) ∧
  (exec .faultNPulseEnd s = .next (settled { s with flt := { s.flt with pulse := false } })) ∧
  (exec .resetLoopWindowExpire s = .next (settled { s with flt := { s.flt with resets := [], demoted := false } })) ∧
  (s.flt.recovery = true → s.flt.releasing = false → s.classA = false → s.activeFeed.isSome = true →
    exec .recoveryAutoEnd s = .next (settled (recoveryEnd s))) ∧
  (∀ path v t, s.reaches path R.FLT_CMD = true → (s.path path).lockOpen = true → written path R.FLT_CMD (setBit v 0) s = t →
    t.flt.recovery = true → t.flt.releasing = false → t.classA = false → exec (.fltCmdEndRecovery path v) s =
      .next (settled (recoveryEnd t))) ∧
  (s.flt.releasing = true → exec .recoveryReleaseDue s = .next (settled (releaseNext s))) ∧
  (∀ path v t, s.reaches path R.FLT_CAP_INFO = true → written path R.FLT_CAP_INFO (setBit v 31) s = t →
    exec (.fltCapClear path v) s = .next (settled ((((((t.setReg R.FLT_CAP_INFO 0).setReg R.FLT_CAP_ADDR 0).setReg
      R.FLT_CAP_T0S 0).setReg R.FLT_CAP_T0NS 0).setReg R.FLT_CAP_T1LO 0).setReg R.FLT_CAP_T1HI 0)))

/-- O59, tier 1. R422 to R429: transactions on the management bus. `t` is the hub once its address has been matched. -/
def Obligations.ManagementBusServesTransactions : Prop := ∀ (s t : State) (a : BitVec 7), s.aonUp = true →
  a.toNat = s.i2cAddr → i2cMatched s = t → t.i2cBusy = false →
  (∀ bytes u, 4 ≤ bytes.length → i2cNOk bytes = true → t.i2cReach bytes = true → bytes.length = 4 + 4 * i2cN bytes + 1 →
    some (pec (BitVec.ofNat 8 (2 * a.toNat) :: bytes.take (4 + 4 * i2cN bytes))) = bytes[4 + 4 * i2cN bytes]? →
    i2cAcks (true :: (List.range bytes.length).map (t.i2cAck (BitVec.ofNat 8 (2 * a.toNat)) bytes)) t = u →
    exec (.i2cWriteTransaction a bytes true) s = .next (settled (i2cWriteRun (i2cReg bytes)
      (bytesWords (i2cN bytes) (bytes.drop 4)) (i2cWakes bytes u)))) ∧
  (∀ bytes u, 4 ≤ bytes.length → i2cNOk bytes = true → t.i2cReach bytes = true → bytes.length = 4 + 4 * i2cN bytes + 1 →
    some (pec (BitVec.ofNat 8 (2 * a.toNat) :: bytes.take (4 + 4 * i2cN bytes))) ≠ bytes[4 + 4 * i2cN bytes]? →
    i2cAcks (true :: (List.range bytes.length).map (t.i2cAck (BitVec.ofNat 8 (2 * a.toNat)) bytes)) t = u →
    exec (.i2cWriteTransaction a bytes true) s = .next (settled (i2cBadPec u))) ∧
  (∀ bytes u, bytes.length < 4 → i2cAcks (true :: (List.range bytes.length).map
    (t.i2cAck (BitVec.ofNat 8 (2 * a.toNat)) bytes)) t = u →
    exec (.i2cWriteTransaction a bytes true) s = .next (settled (i2cFormat u))) ∧
  (∀ bytes n u, bytes.length = 4 → t.i2cTaken bytes = true → i2cAcks (true :: (List.range bytes.length).map
    (t.i2cAck (BitVec.ofNat 8 (2 * a.toNat)) bytes) ++ [true]) t = u → exec (.i2cReadTransaction a bytes n) s =
      .next (settled (i2cReadRun (BitVec.ofNat 8 (2 * a.toNat) :: bytes ++ [BitVec.ofNat 8 (2 * a.toNat + 1)]) n
        (i2cDue (i2cN bytes) n) (i2cReg bytes) [] false (i2cWakes bytes u)))) ∧
  (∀ h, s.i2c.heldRead = some h → s.i2cP.popWait = false → exec .i2cStretchTimeout s = .next (settled (raiseFault
    { src := .regTimeout, addr := i2cAt h.addr 0, req := 1, acc := 1 } (s.modI2c fun i =>
      { i with heldRead := none, reply := i2cReply h.hdr (h.got ++ List.replicate (4 * h.left) 0xFF) true h.nread })))) ∧
  (exec .i2cAbandon s = .next (settled ((s.modI2c fun i => { i with heldRead := none }).modPath .i2c fun x =>
    { x with popWait := false })))

/-- O60, tier 1. R7, R422, R432 to R438: a register write stores what its field types keep, then acts; commits, discards, the lockring. -/
def Obligations.RegisterWritesCommitsAndLockrings : Prop := ∀ (s : State) (path : Path),
  (∀ addr v, s.reaches path (wordAt addr) = true → exec (.registerWrite path addr v) s =
    .next (settled (regWrite path (wordAt addr) v s)) ∧
    exec (.w1cWrite path addr v) s = .next (settled (regWrite path (wordAt addr) v s))) ∧
  (∀ v, s.reaches path R.GLB_COMMIT = true → exec (.glbCommit path v) s =
    .next (settled (commit path (bitsOf v 0 16) (written path R.GLB_COMMIT v s)))) ∧
  (∀ v, s.reaches path R.GLB_DISCARD = true → exec (.glbDiscard path v) s =
    .next (settled (discard path (bitsOf v 0 16) (written path R.GLB_DISCARD v s)))) ∧
  (∀ v, s.reaches path R.GLB_COMMIT_AT = true → exec (.glbCommitAtArm path v) s =
    .next (settled (commitAtWrite path (putBits v 30 2 2) (written path R.GLB_COMMIT_AT (putBits v 30 2 2) s)))) ∧
  (∀ v, s.reaches path R.GLB_COMMIT_AT = true → exec (.glbCommitAtCancel path v) s =
    .next (settled (commitAtWrite path (setBit v 30) (written path R.GLB_COMMIT_AT (setBit v 30) s)))) ∧
  (s.coreUp = true → s.commitDue = true → exec .commitAtFired s = .next (settled (commitFire s))) ∧
  (∀ v, s.reaches path R.GLB_LOCKRING = true → exec (.glbLockringWrite path v) s = .next (settled
    ((written path R.GLB_LOCKRING v s).modPath path fun x => { x with lockOpen := bitsOf v 0 16 == 0x6B1C }))) ∧
  (exec (.lockringExpire path) s = .next (settled (s.modPath path fun x => { x with lockOpen := false })))
end

