-- ==== Sys2Proof/Laws/Maps.lean ====
section
/-! SUPPORT. Laws of the sparse data: reading after writing, and every operation keeps the canonical form. -/

namespace Sys2Proof.Machine

variable {β : Type} {d : Nat → β}

/-! ### What a map holds below its first key -/

theorem SMap.get_of_above {m : SMap β} {b k : Nat} (h : SMap.above b m = true) (hk : k ≤ b) : SMap.get d m k = d k := by
  cases m with
  | nil => rfl
  | cons e m =>
    obtain ⟨a, v⟩ := e
    simp only [SMap.above, decide_eq_true_eq] at h
    simp [SMap.get, show k < a by omega]

theorem SMap.above_mono {m : SMap β} {a b : Nat} (h : SMap.above b m = true) (hab : a ≤ b) : SMap.above a m = true := by
  cases m with
  | nil => rfl
  | cons e m => simp only [SMap.above, decide_eq_true_eq] at h ⊢; omega

variable [DecidableEq β]

theorem SMap.wf_cons {m : SMap β} {a : Nat} {v : β} :
    SMap.wf d ((a, v) :: m) = true ↔ v ≠ d a ∧ SMap.above a m = true ∧ SMap.wf d m = true := by
  simp [SMap.wf, and_assoc]

/-! ### Every operation keeps the canonical form -/

theorem SMap.above_trans {m : SMap β} {a : Nat} (h : SMap.above a m = true) (hw : SMap.wf d m = true) :
    ∀ e ∈ m, a < e.1 := by
  induction m generalizing a with
  | nil => simp
  | cons e m ih =>
    obtain ⟨b, v⟩ := e
    simp only [SMap.above, decide_eq_true_eq] at h
    obtain ⟨-, hb, hm⟩ := SMap.wf_cons.1 hw
    intro e he
    rcases List.mem_cons.1 he with rfl | he
    · exact h
    · have := ih hb hm e he; omega

theorem SMap.above_set {m : SMap β} {b k : Nat} {v : β} (h : SMap.above b m = true) (hw : SMap.wf d m = true) (hk : b < k) :
    SMap.above b (SMap.set d m k v) = true := by
  cases m with
  | nil => unfold SMap.set; split <;> simp [SMap.above, hk]
  | cons e m =>
    obtain ⟨a, x⟩ := e
    obtain ⟨-, ha, -⟩ := SMap.wf_cons.1 hw
    simp only [SMap.above, decide_eq_true_eq] at h
    unfold SMap.set
    repeat' split
    all_goals first
      | (simp only [SMap.above, decide_eq_true_eq]; omega)
      | exact SMap.above_mono ha (by omega)

/-- A write keeps the canonical form. -/
theorem SMap.wf_set {m : SMap β} {k : Nat} {v : β} (h : SMap.wf d m = true) : SMap.wf d (SMap.set d m k v) = true := by
  induction m with
  | nil => unfold SMap.set; split <;> simp_all [SMap.wf, SMap.above]
  | cons e m ih =>
    obtain ⟨a, x⟩ := e
    obtain ⟨hx, ha, hm⟩ := SMap.wf_cons.1 h
    unfold SMap.set
    split
    · split
      · exact h
      · exact SMap.wf_cons.2 ⟨by assumption, by simp [SMap.above]; omega, h⟩
    · split
      · subst_vars
        split
        · exact hm
        · exact SMap.wf_cons.2 ⟨by assumption, ha, hm⟩
      · exact SMap.wf_cons.2 ⟨hx, SMap.above_set ha hm (by omega), ih hm⟩

theorem SMap.above_keep {m : SMap β} {a : Nat} {p : Nat → Bool} (h : SMap.above a m = true) (hw : SMap.wf d m = true) :
    SMap.above a (SMap.keep p m) = true := by
  have hall := SMap.above_trans h hw
  cases hk : SMap.keep p m with
  | nil => rfl
  | cons e l =>
    have he : e ∈ m := by
      have : e ∈ SMap.keep p m := by rw [hk]; exact List.mem_cons_self
      exact (List.mem_filter.1 this).1
    simpa [SMap.above] using hall e he

/-- Dropping keys keeps the canonical form. -/
theorem SMap.wf_keep {m : SMap β} {p : Nat → Bool} (h : SMap.wf d m = true) : SMap.wf d (SMap.keep p m) = true := by
  induction m with
  | nil => rfl
  | cons e m ih =>
    obtain ⟨a, v⟩ := e
    obtain ⟨hv, ha, hm⟩ := SMap.wf_cons.1 h
    by_cases hp : p a = true
    · rw [show SMap.keep p ((a, v) :: m) = (a, v) :: SMap.keep p m by simp [SMap.keep, hp]]
      exact SMap.wf_cons.2 ⟨hv, SMap.above_keep ha hm, ih hm⟩
    · rw [show SMap.keep p ((a, v) :: m) = SMap.keep p m by simp [SMap.keep, hp]]
      exact ih hm

/-- A run of writes keeps the canonical form. -/
theorem SMap.wf_setSeq {n : Nat} {m : SMap β} {k : Nat} {vs : List β} (h : SMap.wf d m = true) :
    SMap.wf d (SMap.setSeq d n m k vs) = true := by
  induction vs generalizing m k with
  | nil => exact h
  | cons v vs ih => exact ih (SMap.wf_set h)

/-- A map built from pairs is canonical. -/
theorem SMap.wf_ofList {l : List (Nat × β)} : SMap.wf d (SMap.ofList d l) = true := by
  have key : ∀ (l : List (Nat × β)) (m : SMap β), SMap.wf d m = true →
      SMap.wf d (l.foldl (fun m e => SMap.set d m e.1 e.2) m) = true := by
    intro l
    induction l with
    | nil => intro m h; exact h
    | cons e l ih => intro m h; exact ih _ (SMap.wf_set h)
  exact key l [] rfl

/-! ### Reading after writing -/

/-- A written key reads back. -/
theorem SMap.get_set_self {m : SMap β} {k : Nat} {v : β} (h : SMap.wf d m = true) :
    SMap.get d (SMap.set d m k v) k = v := by
  induction m with
  | nil => unfold SMap.set; split <;> simp_all [SMap.get]
  | cons e m ih =>
    obtain ⟨a, x⟩ := e
    obtain ⟨-, ha, hm⟩ := SMap.wf_cons.1 h
    unfold SMap.set
    split
    · split
      · simp_all [SMap.get]
      · simp [SMap.get]
    · split
      · subst_vars
        split
        · rw [SMap.get_of_above ha (Nat.le_refl _)]; simp_all
        · simp [SMap.get]
      · simp only [SMap.get]
        rw [if_neg (by assumption), if_neg (by assumption)]
        exact ih hm

/-- Another key reads as before. -/
theorem SMap.get_set_other {m : SMap β} {k j : Nat} {v : β} (h : SMap.wf d m = true) (hj : j ≠ k) :
    SMap.get d (SMap.set d m k v) j = SMap.get d m j := by
  induction m with
  | nil =>
    unfold SMap.set
    split
    · rfl
    · simp only [SMap.get]; split <;> simp_all
  | cons e m ih =>
    obtain ⟨a, x⟩ := e
    obtain ⟨-, ha, hm⟩ := SMap.wf_cons.1 h
    unfold SMap.set
    split
    · split
      · rfl
      · show (if j < k then d j else if j = k then v else SMap.get d ((a, x) :: m) j) = SMap.get d ((a, x) :: m) j
        split
        · simp only [SMap.get]; rw [if_pos (by omega)]
        · first | rw [if_neg hj] | rfl
    · split
      · subst_vars
        split
        · simp only [SMap.get]
          split
          · rw [SMap.get_of_above ha (by omega)]
          · first | rw [if_neg hj] | rfl
        · simp only [SMap.get, if_neg hj]
      · simp only [SMap.get, ih hm]

/-- A key that is kept reads as before. -/
theorem SMap.get_keep {m : SMap β} {p : Nat → Bool} {k : Nat} (h : SMap.wf d m = true) :
    SMap.get d (SMap.keep p m) k = if p k then SMap.get d m k else d k := by
  induction m with
  | nil => simp [SMap.keep, SMap.get]
  | cons e m ih =>
    obtain ⟨a, v⟩ := e
    obtain ⟨-, ha, hm⟩ := SMap.wf_cons.1 h
    have ih := ih hm
    by_cases hp : p a = true
    · rw [show SMap.keep p ((a, v) :: m) = (a, v) :: SMap.keep p m by simp [SMap.keep, hp]]
      simp only [SMap.get]
      split
      · simp
      · split
        · simp_all
        · exact ih
    · rw [show SMap.keep p ((a, v) :: m) = SMap.keep p m by simp [SMap.keep, hp]]
      rw [ih]
      simp only [SMap.get]
      by_cases h1 : k < a
      · rw [SMap.get_of_above ha (by omega)]; simp [h1]
      · by_cases h2 : k = a
        · subst h2; simp [hp]
        · simp [h1, h2]

end Sys2Proof.Machine
end

