-- ==== Sys2Proof/Laws/State.lean ====
section
/-! SUPPORT. One lemma per field of the state and per update: what each update leaves and what it writes. -/

namespace Sys2Proof.Machine

variable (s : State)

@[simp] theorem State.setReg_pending (a : Nat) (w : Word) : (s.setReg a w).pending = s.pending := rfl
@[simp] theorem State.setReg_regs (a : Nat) (w : Word) : (s.setReg a w).regs = s.regs.set regReset a w := rfl
@[simp] theorem State.setReg_loader (a : Nat) (w : Word) : (s.setReg a w).loader = s.loader := rfl
@[simp] theorem State.setReg_i2cP (a : Nat) (w : Word) : (s.setReg a w).i2cP = s.i2cP := rfl
@[simp] theorem State.setReg_usbP (a : Nat) (w : Word) : (s.setReg a w).usbP = s.usbP := rfl
@[simp] theorem State.setReg_i2c (a : Nat) (w : Word) : (s.setReg a w).i2c = s.i2c := rfl
@[simp] theorem State.setReg_glb (a : Nat) (w : Word) : (s.setReg a w).glb = s.glb := rfl
@[simp] theorem State.setReg_pwr (a : Nat) (w : Word) : (s.setReg a w).pwr = s.pwr := rfl
@[simp] theorem State.setReg_evq (a : Nat) (w : Word) : (s.setReg a w).evq = s.evq := rfl
@[simp] theorem State.setReg_flt (a : Nat) (w : Word) : (s.setReg a w).flt = s.flt := rfl
@[simp] theorem State.setReg_feed (a : Nat) (w : Word) : (s.setReg a w).feed = s.feed := rfl
@[simp] theorem State.setReg_dyn (a : Nat) (w : Word) : (s.setReg a w).dyn = s.dyn := rfl
@[simp] theorem State.setReg_pmb (a : Nat) (w : Word) : (s.setReg a w).pmb = s.pmb := rfl
@[simp] theorem State.setReg_nvm (a : Nat) (w : Word) : (s.setReg a w).nvm = s.nvm := rfl
@[simp] theorem State.setReg_img (a : Nat) (w : Word) : (s.setReg a w).img = s.img := rfl
@[simp] theorem State.setReg_sto (a : Nat) (w : Word) : (s.setReg a w).sto = s.sto := rfl
@[simp] theorem State.setReg_hub (a : Nat) (w : Word) : (s.setReg a w).hub = s.hub := rfl
@[simp] theorem State.setReg_efn (a : Nat) (w : Word) : (s.setReg a w).efn = s.efn := rfl
@[simp] theorem State.setReg_tim (a : Nat) (w : Word) : (s.setReg a w).tim = s.tim := rfl
@[simp] theorem State.setReg_cad (a : Nat) (w : Word) : (s.setReg a w).cad = s.cad := rfl
@[simp] theorem State.setReg_ports (a : Nat) (w : Word) : (s.setReg a w).ports = s.ports := rfl
@[simp] theorem State.setReg_mt (a : Nat) (w : Word) : (s.setReg a w).mt = s.mt := rfl
@[simp] theorem State.setReg_mass (a : Nat) (w : Word) : (s.setReg a w).mass = s.mass := rfl
@[simp] theorem State.setReg_bm (a : Nat) (w : Word) : (s.setReg a w).bm = s.bm := rfl
@[simp] theorem State.setReg_free (a : Nat) (w : Word) : (s.setReg a w).free = s.free := rfl

@[simp] theorem State.wr_pending (f : Fld) (v : Nat) : (s.wr f v).pending = s.pending := rfl
@[simp] theorem State.wr_loader (f : Fld) (v : Nat) : (s.wr f v).loader = s.loader := rfl
@[simp] theorem State.wr_i2cP (f : Fld) (v : Nat) : (s.wr f v).i2cP = s.i2cP := rfl
@[simp] theorem State.wr_usbP (f : Fld) (v : Nat) : (s.wr f v).usbP = s.usbP := rfl
@[simp] theorem State.wr_i2c (f : Fld) (v : Nat) : (s.wr f v).i2c = s.i2c := rfl
@[simp] theorem State.wr_glb (f : Fld) (v : Nat) : (s.wr f v).glb = s.glb := rfl
@[simp] theorem State.wr_pwr (f : Fld) (v : Nat) : (s.wr f v).pwr = s.pwr := rfl
@[simp] theorem State.wr_evq (f : Fld) (v : Nat) : (s.wr f v).evq = s.evq := rfl
@[simp] theorem State.wr_flt (f : Fld) (v : Nat) : (s.wr f v).flt = s.flt := rfl
@[simp] theorem State.wr_feed (f : Fld) (v : Nat) : (s.wr f v).feed = s.feed := rfl
@[simp] theorem State.wr_dyn (f : Fld) (v : Nat) : (s.wr f v).dyn = s.dyn := rfl
@[simp] theorem State.wr_pmb (f : Fld) (v : Nat) : (s.wr f v).pmb = s.pmb := rfl
@[simp] theorem State.wr_nvm (f : Fld) (v : Nat) : (s.wr f v).nvm = s.nvm := rfl
@[simp] theorem State.wr_img (f : Fld) (v : Nat) : (s.wr f v).img = s.img := rfl
@[simp] theorem State.wr_sto (f : Fld) (v : Nat) : (s.wr f v).sto = s.sto := rfl
@[simp] theorem State.wr_hub (f : Fld) (v : Nat) : (s.wr f v).hub = s.hub := rfl
@[simp] theorem State.wr_efn (f : Fld) (v : Nat) : (s.wr f v).efn = s.efn := rfl
@[simp] theorem State.wr_tim (f : Fld) (v : Nat) : (s.wr f v).tim = s.tim := rfl
@[simp] theorem State.wr_cad (f : Fld) (v : Nat) : (s.wr f v).cad = s.cad := rfl
@[simp] theorem State.wr_ports (f : Fld) (v : Nat) : (s.wr f v).ports = s.ports := rfl
@[simp] theorem State.wr_mt (f : Fld) (v : Nat) : (s.wr f v).mt = s.mt := rfl
@[simp] theorem State.wr_mass (f : Fld) (v : Nat) : (s.wr f v).mass = s.mass := rfl
@[simp] theorem State.wr_bm (f : Fld) (v : Nat) : (s.wr f v).bm = s.bm := rfl
@[simp] theorem State.wr_free (f : Fld) (v : Nat) : (s.wr f v).free = s.free := rfl

@[simp] theorem State.setPort_pending (p : PortId) (x : Port) : (s.setPort p x).pending = s.pending := rfl
@[simp] theorem State.setPort_regs (p : PortId) (x : Port) : (s.setPort p x).regs = s.regs := rfl
@[simp] theorem State.setPort_loader (p : PortId) (x : Port) : (s.setPort p x).loader = s.loader := rfl
@[simp] theorem State.setPort_i2cP (p : PortId) (x : Port) : (s.setPort p x).i2cP = s.i2cP := rfl
@[simp] theorem State.setPort_usbP (p : PortId) (x : Port) : (s.setPort p x).usbP = s.usbP := rfl
@[simp] theorem State.setPort_i2c (p : PortId) (x : Port) : (s.setPort p x).i2c = s.i2c := rfl
@[simp] theorem State.setPort_glb (p : PortId) (x : Port) : (s.setPort p x).glb = s.glb := rfl
@[simp] theorem State.setPort_pwr (p : PortId) (x : Port) : (s.setPort p x).pwr = s.pwr := rfl
@[simp] theorem State.setPort_evq (p : PortId) (x : Port) : (s.setPort p x).evq = s.evq := rfl
@[simp] theorem State.setPort_flt (p : PortId) (x : Port) : (s.setPort p x).flt = s.flt := rfl
@[simp] theorem State.setPort_feed (p : PortId) (x : Port) : (s.setPort p x).feed = s.feed := rfl
@[simp] theorem State.setPort_dyn (p : PortId) (x : Port) : (s.setPort p x).dyn = s.dyn := rfl
@[simp] theorem State.setPort_pmb (p : PortId) (x : Port) : (s.setPort p x).pmb = s.pmb := rfl
@[simp] theorem State.setPort_nvm (p : PortId) (x : Port) : (s.setPort p x).nvm = s.nvm := rfl
@[simp] theorem State.setPort_img (p : PortId) (x : Port) : (s.setPort p x).img = s.img := rfl
@[simp] theorem State.setPort_sto (p : PortId) (x : Port) : (s.setPort p x).sto = s.sto := rfl
@[simp] theorem State.setPort_hub (p : PortId) (x : Port) : (s.setPort p x).hub = s.hub := rfl
@[simp] theorem State.setPort_efn (p : PortId) (x : Port) : (s.setPort p x).efn = s.efn := rfl
@[simp] theorem State.setPort_tim (p : PortId) (x : Port) : (s.setPort p x).tim = s.tim := rfl
@[simp] theorem State.setPort_cad (p : PortId) (x : Port) : (s.setPort p x).cad = s.cad := rfl
@[simp] theorem State.setPort_ports (p : PortId) (x : Port) : (s.setPort p x).ports = s.ports.set p x := rfl
@[simp] theorem State.setPort_mt (p : PortId) (x : Port) : (s.setPort p x).mt = s.mt := rfl
@[simp] theorem State.setPort_mass (p : PortId) (x : Port) : (s.setPort p x).mass = s.mass := rfl
@[simp] theorem State.setPort_bm (p : PortId) (x : Port) : (s.setPort p x).bm = s.bm := rfl
@[simp] theorem State.setPort_free (p : PortId) (x : Port) : (s.setPort p x).free = s.free := rfl

@[simp] theorem State.modPp_pending (p : PortId) (f : Pp → Pp) : (s.modPp p f).pending = s.pending := rfl
@[simp] theorem State.modPp_regs (p : PortId) (f : Pp → Pp) : (s.modPp p f).regs = s.regs := rfl
@[simp] theorem State.modPp_loader (p : PortId) (f : Pp → Pp) : (s.modPp p f).loader = s.loader := rfl
@[simp] theorem State.modPp_i2cP (p : PortId) (f : Pp → Pp) : (s.modPp p f).i2cP = s.i2cP := rfl
@[simp] theorem State.modPp_usbP (p : PortId) (f : Pp → Pp) : (s.modPp p f).usbP = s.usbP := rfl
@[simp] theorem State.modPp_i2c (p : PortId) (f : Pp → Pp) : (s.modPp p f).i2c = s.i2c := rfl
@[simp] theorem State.modPp_glb (p : PortId) (f : Pp → Pp) : (s.modPp p f).glb = s.glb := rfl
@[simp] theorem State.modPp_pwr (p : PortId) (f : Pp → Pp) : (s.modPp p f).pwr = s.pwr := rfl
@[simp] theorem State.modPp_evq (p : PortId) (f : Pp → Pp) : (s.modPp p f).evq = s.evq := rfl
@[simp] theorem State.modPp_flt (p : PortId) (f : Pp → Pp) : (s.modPp p f).flt = s.flt := rfl
@[simp] theorem State.modPp_feed (p : PortId) (f : Pp → Pp) : (s.modPp p f).feed = s.feed := rfl
@[simp] theorem State.modPp_dyn (p : PortId) (f : Pp → Pp) : (s.modPp p f).dyn = s.dyn := rfl
@[simp] theorem State.modPp_pmb (p : PortId) (f : Pp → Pp) : (s.modPp p f).pmb = s.pmb := rfl
@[simp] theorem State.modPp_nvm (p : PortId) (f : Pp → Pp) : (s.modPp p f).nvm = s.nvm := rfl
@[simp] theorem State.modPp_img (p : PortId) (f : Pp → Pp) : (s.modPp p f).img = s.img := rfl
@[simp] theorem State.modPp_sto (p : PortId) (f : Pp → Pp) : (s.modPp p f).sto = s.sto := rfl
@[simp] theorem State.modPp_hub (p : PortId) (f : Pp → Pp) : (s.modPp p f).hub = s.hub := rfl
@[simp] theorem State.modPp_efn (p : PortId) (f : Pp → Pp) : (s.modPp p f).efn = s.efn := rfl
@[simp] theorem State.modPp_tim (p : PortId) (f : Pp → Pp) : (s.modPp p f).tim = s.tim := rfl
@[simp] theorem State.modPp_cad (p : PortId) (f : Pp → Pp) : (s.modPp p f).cad = s.cad := rfl
@[simp] theorem State.modPp_mt (p : PortId) (f : Pp → Pp) : (s.modPp p f).mt = s.mt := rfl
@[simp] theorem State.modPp_mass (p : PortId) (f : Pp → Pp) : (s.modPp p f).mass = s.mass := rfl
@[simp] theorem State.modPp_bm (p : PortId) (f : Pp → Pp) : (s.modPp p f).bm = s.bm := rfl
@[simp] theorem State.modPp_free (p : PortId) (f : Pp → Pp) : (s.modPp p f).free = s.free := rfl

@[simp] theorem State.modTc_pending (p : PortId) (f : Tc → Tc) : (s.modTc p f).pending = s.pending := rfl
@[simp] theorem State.modTc_regs (p : PortId) (f : Tc → Tc) : (s.modTc p f).regs = s.regs := rfl
@[simp] theorem State.modTc_loader (p : PortId) (f : Tc → Tc) : (s.modTc p f).loader = s.loader := rfl
@[simp] theorem State.modTc_i2cP (p : PortId) (f : Tc → Tc) : (s.modTc p f).i2cP = s.i2cP := rfl
@[simp] theorem State.modTc_usbP (p : PortId) (f : Tc → Tc) : (s.modTc p f).usbP = s.usbP := rfl
@[simp] theorem State.modTc_i2c (p : PortId) (f : Tc → Tc) : (s.modTc p f).i2c = s.i2c := rfl
@[simp] theorem State.modTc_glb (p : PortId) (f : Tc → Tc) : (s.modTc p f).glb = s.glb := rfl
@[simp] theorem State.modTc_pwr (p : PortId) (f : Tc → Tc) : (s.modTc p f).pwr = s.pwr := rfl
@[simp] theorem State.modTc_evq (p : PortId) (f : Tc → Tc) : (s.modTc p f).evq = s.evq := rfl
@[simp] theorem State.modTc_flt (p : PortId) (f : Tc → Tc) : (s.modTc p f).flt = s.flt := rfl
@[simp] theorem State.modTc_feed (p : PortId) (f : Tc → Tc) : (s.modTc p f).feed = s.feed := rfl
@[simp] theorem State.modTc_dyn (p : PortId) (f : Tc → Tc) : (s.modTc p f).dyn = s.dyn := rfl
@[simp] theorem State.modTc_pmb (p : PortId) (f : Tc → Tc) : (s.modTc p f).pmb = s.pmb := rfl
@[simp] theorem State.modTc_nvm (p : PortId) (f : Tc → Tc) : (s.modTc p f).nvm = s.nvm := rfl
@[simp] theorem State.modTc_img (p : PortId) (f : Tc → Tc) : (s.modTc p f).img = s.img := rfl
@[simp] theorem State.modTc_sto (p : PortId) (f : Tc → Tc) : (s.modTc p f).sto = s.sto := rfl
@[simp] theorem State.modTc_hub (p : PortId) (f : Tc → Tc) : (s.modTc p f).hub = s.hub := rfl
@[simp] theorem State.modTc_efn (p : PortId) (f : Tc → Tc) : (s.modTc p f).efn = s.efn := rfl
@[simp] theorem State.modTc_tim (p : PortId) (f : Tc → Tc) : (s.modTc p f).tim = s.tim := rfl
@[simp] theorem State.modTc_cad (p : PortId) (f : Tc → Tc) : (s.modTc p f).cad = s.cad := rfl
@[simp] theorem State.modTc_mt (p : PortId) (f : Tc → Tc) : (s.modTc p f).mt = s.mt := rfl
@[simp] theorem State.modTc_mass (p : PortId) (f : Tc → Tc) : (s.modTc p f).mass = s.mass := rfl
@[simp] theorem State.modTc_bm (p : PortId) (f : Tc → Tc) : (s.modTc p f).bm = s.bm := rfl
@[simp] theorem State.modTc_free (p : PortId) (f : Tc → Tc) : (s.modTc p f).free = s.free := rfl

@[simp] theorem State.modPd_pending (p : PortId) (f : Pd → Pd) : (s.modPd p f).pending = s.pending := rfl
@[simp] theorem State.modPd_regs (p : PortId) (f : Pd → Pd) : (s.modPd p f).regs = s.regs := rfl
@[simp] theorem State.modPd_loader (p : PortId) (f : Pd → Pd) : (s.modPd p f).loader = s.loader := rfl
@[simp] theorem State.modPd_i2cP (p : PortId) (f : Pd → Pd) : (s.modPd p f).i2cP = s.i2cP := rfl
@[simp] theorem State.modPd_usbP (p : PortId) (f : Pd → Pd) : (s.modPd p f).usbP = s.usbP := rfl
@[simp] theorem State.modPd_i2c (p : PortId) (f : Pd → Pd) : (s.modPd p f).i2c = s.i2c := rfl
@[simp] theorem State.modPd_glb (p : PortId) (f : Pd → Pd) : (s.modPd p f).glb = s.glb := rfl
@[simp] theorem State.modPd_pwr (p : PortId) (f : Pd → Pd) : (s.modPd p f).pwr = s.pwr := rfl
@[simp] theorem State.modPd_evq (p : PortId) (f : Pd → Pd) : (s.modPd p f).evq = s.evq := rfl
@[simp] theorem State.modPd_flt (p : PortId) (f : Pd → Pd) : (s.modPd p f).flt = s.flt := rfl
@[simp] theorem State.modPd_feed (p : PortId) (f : Pd → Pd) : (s.modPd p f).feed = s.feed := rfl
@[simp] theorem State.modPd_dyn (p : PortId) (f : Pd → Pd) : (s.modPd p f).dyn = s.dyn := rfl
@[simp] theorem State.modPd_pmb (p : PortId) (f : Pd → Pd) : (s.modPd p f).pmb = s.pmb := rfl
@[simp] theorem State.modPd_nvm (p : PortId) (f : Pd → Pd) : (s.modPd p f).nvm = s.nvm := rfl
@[simp] theorem State.modPd_img (p : PortId) (f : Pd → Pd) : (s.modPd p f).img = s.img := rfl
@[simp] theorem State.modPd_sto (p : PortId) (f : Pd → Pd) : (s.modPd p f).sto = s.sto := rfl
@[simp] theorem State.modPd_hub (p : PortId) (f : Pd → Pd) : (s.modPd p f).hub = s.hub := rfl
@[simp] theorem State.modPd_efn (p : PortId) (f : Pd → Pd) : (s.modPd p f).efn = s.efn := rfl
@[simp] theorem State.modPd_tim (p : PortId) (f : Pd → Pd) : (s.modPd p f).tim = s.tim := rfl
@[simp] theorem State.modPd_cad (p : PortId) (f : Pd → Pd) : (s.modPd p f).cad = s.cad := rfl
@[simp] theorem State.modPd_mt (p : PortId) (f : Pd → Pd) : (s.modPd p f).mt = s.mt := rfl
@[simp] theorem State.modPd_mass (p : PortId) (f : Pd → Pd) : (s.modPd p f).mass = s.mass := rfl
@[simp] theorem State.modPd_bm (p : PortId) (f : Pd → Pd) : (s.modPd p f).bm = s.bm := rfl
@[simp] theorem State.modPd_free (p : PortId) (f : Pd → Pd) : (s.modPd p f).free = s.free := rfl

@[simp] theorem State.modU_pending (p : PortId) (f : UPort → UPort) : (s.modU p f).pending = s.pending := rfl
@[simp] theorem State.modU_regs (p : PortId) (f : UPort → UPort) : (s.modU p f).regs = s.regs := rfl
@[simp] theorem State.modU_loader (p : PortId) (f : UPort → UPort) : (s.modU p f).loader = s.loader := rfl
@[simp] theorem State.modU_i2cP (p : PortId) (f : UPort → UPort) : (s.modU p f).i2cP = s.i2cP := rfl
@[simp] theorem State.modU_usbP (p : PortId) (f : UPort → UPort) : (s.modU p f).usbP = s.usbP := rfl
@[simp] theorem State.modU_i2c (p : PortId) (f : UPort → UPort) : (s.modU p f).i2c = s.i2c := rfl
@[simp] theorem State.modU_glb (p : PortId) (f : UPort → UPort) : (s.modU p f).glb = s.glb := rfl
@[simp] theorem State.modU_pwr (p : PortId) (f : UPort → UPort) : (s.modU p f).pwr = s.pwr := rfl
@[simp] theorem State.modU_evq (p : PortId) (f : UPort → UPort) : (s.modU p f).evq = s.evq := rfl
@[simp] theorem State.modU_flt (p : PortId) (f : UPort → UPort) : (s.modU p f).flt = s.flt := rfl
@[simp] theorem State.modU_feed (p : PortId) (f : UPort → UPort) : (s.modU p f).feed = s.feed := rfl
@[simp] theorem State.modU_dyn (p : PortId) (f : UPort → UPort) : (s.modU p f).dyn = s.dyn := rfl
@[simp] theorem State.modU_pmb (p : PortId) (f : UPort → UPort) : (s.modU p f).pmb = s.pmb := rfl
@[simp] theorem State.modU_nvm (p : PortId) (f : UPort → UPort) : (s.modU p f).nvm = s.nvm := rfl
@[simp] theorem State.modU_img (p : PortId) (f : UPort → UPort) : (s.modU p f).img = s.img := rfl
@[simp] theorem State.modU_sto (p : PortId) (f : UPort → UPort) : (s.modU p f).sto = s.sto := rfl
@[simp] theorem State.modU_hub (p : PortId) (f : UPort → UPort) : (s.modU p f).hub = s.hub := rfl
@[simp] theorem State.modU_efn (p : PortId) (f : UPort → UPort) : (s.modU p f).efn = s.efn := rfl
@[simp] theorem State.modU_tim (p : PortId) (f : UPort → UPort) : (s.modU p f).tim = s.tim := rfl
@[simp] theorem State.modU_cad (p : PortId) (f : UPort → UPort) : (s.modU p f).cad = s.cad := rfl
@[simp] theorem State.modU_mt (p : PortId) (f : UPort → UPort) : (s.modU p f).mt = s.mt := rfl
@[simp] theorem State.modU_mass (p : PortId) (f : UPort → UPort) : (s.modU p f).mass = s.mass := rfl
@[simp] theorem State.modU_bm (p : PortId) (f : UPort → UPort) : (s.modU p f).bm = s.bm := rfl
@[simp] theorem State.modU_free (p : PortId) (f : UPort → UPort) : (s.modU p f).free = s.free := rfl

@[simp] theorem State.modTt_pending (p : PortId) (f : Tt → Tt) : (s.modTt p f).pending = s.pending := rfl
@[simp] theorem State.modTt_regs (p : PortId) (f : Tt → Tt) : (s.modTt p f).regs = s.regs := rfl
@[simp] theorem State.modTt_loader (p : PortId) (f : Tt → Tt) : (s.modTt p f).loader = s.loader := rfl
@[simp] theorem State.modTt_i2cP (p : PortId) (f : Tt → Tt) : (s.modTt p f).i2cP = s.i2cP := rfl
@[simp] theorem State.modTt_usbP (p : PortId) (f : Tt → Tt) : (s.modTt p f).usbP = s.usbP := rfl
@[simp] theorem State.modTt_i2c (p : PortId) (f : Tt → Tt) : (s.modTt p f).i2c = s.i2c := rfl
@[simp] theorem State.modTt_glb (p : PortId) (f : Tt → Tt) : (s.modTt p f).glb = s.glb := rfl
@[simp] theorem State.modTt_pwr (p : PortId) (f : Tt → Tt) : (s.modTt p f).pwr = s.pwr := rfl
@[simp] theorem State.modTt_evq (p : PortId) (f : Tt → Tt) : (s.modTt p f).evq = s.evq := rfl
@[simp] theorem State.modTt_flt (p : PortId) (f : Tt → Tt) : (s.modTt p f).flt = s.flt := rfl
@[simp] theorem State.modTt_feed (p : PortId) (f : Tt → Tt) : (s.modTt p f).feed = s.feed := rfl
@[simp] theorem State.modTt_dyn (p : PortId) (f : Tt → Tt) : (s.modTt p f).dyn = s.dyn := rfl
@[simp] theorem State.modTt_pmb (p : PortId) (f : Tt → Tt) : (s.modTt p f).pmb = s.pmb := rfl
@[simp] theorem State.modTt_nvm (p : PortId) (f : Tt → Tt) : (s.modTt p f).nvm = s.nvm := rfl
@[simp] theorem State.modTt_img (p : PortId) (f : Tt → Tt) : (s.modTt p f).img = s.img := rfl
@[simp] theorem State.modTt_sto (p : PortId) (f : Tt → Tt) : (s.modTt p f).sto = s.sto := rfl
@[simp] theorem State.modTt_hub (p : PortId) (f : Tt → Tt) : (s.modTt p f).hub = s.hub := rfl
@[simp] theorem State.modTt_efn (p : PortId) (f : Tt → Tt) : (s.modTt p f).efn = s.efn := rfl
@[simp] theorem State.modTt_tim (p : PortId) (f : Tt → Tt) : (s.modTt p f).tim = s.tim := rfl
@[simp] theorem State.modTt_cad (p : PortId) (f : Tt → Tt) : (s.modTt p f).cad = s.cad := rfl
@[simp] theorem State.modTt_mt (p : PortId) (f : Tt → Tt) : (s.modTt p f).mt = s.mt := rfl
@[simp] theorem State.modTt_mass (p : PortId) (f : Tt → Tt) : (s.modTt p f).mass = s.mass := rfl
@[simp] theorem State.modTt_bm (p : PortId) (f : Tt → Tt) : (s.modTt p f).bm = s.bm := rfl
@[simp] theorem State.modTt_free (p : PortId) (f : Tt → Tt) : (s.modTt p f).free = s.free := rfl

@[simp] theorem State.modCl_pending (p : PortId) (f : Link → Link) : (s.modCl p f).pending = s.pending := rfl
@[simp] theorem State.modCl_regs (p : PortId) (f : Link → Link) : (s.modCl p f).regs = s.regs := rfl
@[simp] theorem State.modCl_loader (p : PortId) (f : Link → Link) : (s.modCl p f).loader = s.loader := rfl
@[simp] theorem State.modCl_i2cP (p : PortId) (f : Link → Link) : (s.modCl p f).i2cP = s.i2cP := rfl
@[simp] theorem State.modCl_usbP (p : PortId) (f : Link → Link) : (s.modCl p f).usbP = s.usbP := rfl
@[simp] theorem State.modCl_i2c (p : PortId) (f : Link → Link) : (s.modCl p f).i2c = s.i2c := rfl
@[simp] theorem State.modCl_glb (p : PortId) (f : Link → Link) : (s.modCl p f).glb = s.glb := rfl
@[simp] theorem State.modCl_pwr (p : PortId) (f : Link → Link) : (s.modCl p f).pwr = s.pwr := rfl
@[simp] theorem State.modCl_evq (p : PortId) (f : Link → Link) : (s.modCl p f).evq = s.evq := rfl
@[simp] theorem State.modCl_flt (p : PortId) (f : Link → Link) : (s.modCl p f).flt = s.flt := rfl
@[simp] theorem State.modCl_feed (p : PortId) (f : Link → Link) : (s.modCl p f).feed = s.feed := rfl
@[simp] theorem State.modCl_dyn (p : PortId) (f : Link → Link) : (s.modCl p f).dyn = s.dyn := rfl
@[simp] theorem State.modCl_pmb (p : PortId) (f : Link → Link) : (s.modCl p f).pmb = s.pmb := rfl
@[simp] theorem State.modCl_nvm (p : PortId) (f : Link → Link) : (s.modCl p f).nvm = s.nvm := rfl
@[simp] theorem State.modCl_img (p : PortId) (f : Link → Link) : (s.modCl p f).img = s.img := rfl
@[simp] theorem State.modCl_sto (p : PortId) (f : Link → Link) : (s.modCl p f).sto = s.sto := rfl
@[simp] theorem State.modCl_hub (p : PortId) (f : Link → Link) : (s.modCl p f).hub = s.hub := rfl
@[simp] theorem State.modCl_efn (p : PortId) (f : Link → Link) : (s.modCl p f).efn = s.efn := rfl
@[simp] theorem State.modCl_tim (p : PortId) (f : Link → Link) : (s.modCl p f).tim = s.tim := rfl
@[simp] theorem State.modCl_cad (p : PortId) (f : Link → Link) : (s.modCl p f).cad = s.cad := rfl
@[simp] theorem State.modCl_mt (p : PortId) (f : Link → Link) : (s.modCl p f).mt = s.mt := rfl
@[simp] theorem State.modCl_mass (p : PortId) (f : Link → Link) : (s.modCl p f).mass = s.mass := rfl
@[simp] theorem State.modCl_bm (p : PortId) (f : Link → Link) : (s.modCl p f).bm = s.bm := rfl
@[simp] theorem State.modCl_free (p : PortId) (f : Link → Link) : (s.modCl p f).free = s.free := rfl

@[simp] theorem State.modFeed_pending (f : Feed → Feed) : (s.modFeed f).pending = s.pending := rfl
@[simp] theorem State.modFeed_regs (f : Feed → Feed) : (s.modFeed f).regs = s.regs := rfl
@[simp] theorem State.modFeed_loader (f : Feed → Feed) : (s.modFeed f).loader = s.loader := rfl
@[simp] theorem State.modFeed_i2cP (f : Feed → Feed) : (s.modFeed f).i2cP = s.i2cP := rfl
@[simp] theorem State.modFeed_usbP (f : Feed → Feed) : (s.modFeed f).usbP = s.usbP := rfl
@[simp] theorem State.modFeed_i2c (f : Feed → Feed) : (s.modFeed f).i2c = s.i2c := rfl
@[simp] theorem State.modFeed_glb (f : Feed → Feed) : (s.modFeed f).glb = s.glb := rfl
@[simp] theorem State.modFeed_pwr (f : Feed → Feed) : (s.modFeed f).pwr = s.pwr := rfl
@[simp] theorem State.modFeed_evq (f : Feed → Feed) : (s.modFeed f).evq = s.evq := rfl
@[simp] theorem State.modFeed_flt (f : Feed → Feed) : (s.modFeed f).flt = s.flt := rfl
@[simp] theorem State.modFeed_feed (f : Feed → Feed) : (s.modFeed f).feed = f s.feed := rfl
@[simp] theorem State.modFeed_dyn (f : Feed → Feed) : (s.modFeed f).dyn = s.dyn := rfl
@[simp] theorem State.modFeed_pmb (f : Feed → Feed) : (s.modFeed f).pmb = s.pmb := rfl
@[simp] theorem State.modFeed_nvm (f : Feed → Feed) : (s.modFeed f).nvm = s.nvm := rfl
@[simp] theorem State.modFeed_img (f : Feed → Feed) : (s.modFeed f).img = s.img := rfl
@[simp] theorem State.modFeed_sto (f : Feed → Feed) : (s.modFeed f).sto = s.sto := rfl
@[simp] theorem State.modFeed_hub (f : Feed → Feed) : (s.modFeed f).hub = s.hub := rfl
@[simp] theorem State.modFeed_efn (f : Feed → Feed) : (s.modFeed f).efn = s.efn := rfl
@[simp] theorem State.modFeed_tim (f : Feed → Feed) : (s.modFeed f).tim = s.tim := rfl
@[simp] theorem State.modFeed_cad (f : Feed → Feed) : (s.modFeed f).cad = s.cad := rfl
@[simp] theorem State.modFeed_ports (f : Feed → Feed) : (s.modFeed f).ports = s.ports := rfl
@[simp] theorem State.modFeed_mt (f : Feed → Feed) : (s.modFeed f).mt = s.mt := rfl
@[simp] theorem State.modFeed_mass (f : Feed → Feed) : (s.modFeed f).mass = s.mass := rfl
@[simp] theorem State.modFeed_bm (f : Feed → Feed) : (s.modFeed f).bm = s.bm := rfl
@[simp] theorem State.modFeed_free (f : Feed → Feed) : (s.modFeed f).free = s.free := rfl

@[simp] theorem State.modPwr_pending (f : Pwr → Pwr) : (s.modPwr f).pending = s.pending := rfl
@[simp] theorem State.modPwr_regs (f : Pwr → Pwr) : (s.modPwr f).regs = s.regs := rfl
@[simp] theorem State.modPwr_loader (f : Pwr → Pwr) : (s.modPwr f).loader = s.loader := rfl
@[simp] theorem State.modPwr_i2cP (f : Pwr → Pwr) : (s.modPwr f).i2cP = s.i2cP := rfl
@[simp] theorem State.modPwr_usbP (f : Pwr → Pwr) : (s.modPwr f).usbP = s.usbP := rfl
@[simp] theorem State.modPwr_i2c (f : Pwr → Pwr) : (s.modPwr f).i2c = s.i2c := rfl
@[simp] theorem State.modPwr_glb (f : Pwr → Pwr) : (s.modPwr f).glb = s.glb := rfl
@[simp] theorem State.modPwr_pwr (f : Pwr → Pwr) : (s.modPwr f).pwr = f s.pwr := rfl
@[simp] theorem State.modPwr_evq (f : Pwr → Pwr) : (s.modPwr f).evq = s.evq := rfl
@[simp] theorem State.modPwr_flt (f : Pwr → Pwr) : (s.modPwr f).flt = s.flt := rfl
@[simp] theorem State.modPwr_feed (f : Pwr → Pwr) : (s.modPwr f).feed = s.feed := rfl
@[simp] theorem State.modPwr_dyn (f : Pwr → Pwr) : (s.modPwr f).dyn = s.dyn := rfl
@[simp] theorem State.modPwr_pmb (f : Pwr → Pwr) : (s.modPwr f).pmb = s.pmb := rfl
@[simp] theorem State.modPwr_nvm (f : Pwr → Pwr) : (s.modPwr f).nvm = s.nvm := rfl
@[simp] theorem State.modPwr_img (f : Pwr → Pwr) : (s.modPwr f).img = s.img := rfl
@[simp] theorem State.modPwr_sto (f : Pwr → Pwr) : (s.modPwr f).sto = s.sto := rfl
@[simp] theorem State.modPwr_hub (f : Pwr → Pwr) : (s.modPwr f).hub = s.hub := rfl
@[simp] theorem State.modPwr_efn (f : Pwr → Pwr) : (s.modPwr f).efn = s.efn := rfl
@[simp] theorem State.modPwr_tim (f : Pwr → Pwr) : (s.modPwr f).tim = s.tim := rfl
@[simp] theorem State.modPwr_cad (f : Pwr → Pwr) : (s.modPwr f).cad = s.cad := rfl
@[simp] theorem State.modPwr_ports (f : Pwr → Pwr) : (s.modPwr f).ports = s.ports := rfl
@[simp] theorem State.modPwr_mt (f : Pwr → Pwr) : (s.modPwr f).mt = s.mt := rfl
@[simp] theorem State.modPwr_mass (f : Pwr → Pwr) : (s.modPwr f).mass = s.mass := rfl
@[simp] theorem State.modPwr_bm (f : Pwr → Pwr) : (s.modPwr f).bm = s.bm := rfl
@[simp] theorem State.modPwr_free (f : Pwr → Pwr) : (s.modPwr f).free = s.free := rfl

@[simp] theorem State.modGlb_pending (f : Glb → Glb) : (s.modGlb f).pending = s.pending := rfl
@[simp] theorem State.modGlb_regs (f : Glb → Glb) : (s.modGlb f).regs = s.regs := rfl
@[simp] theorem State.modGlb_loader (f : Glb → Glb) : (s.modGlb f).loader = s.loader := rfl
@[simp] theorem State.modGlb_i2cP (f : Glb → Glb) : (s.modGlb f).i2cP = s.i2cP := rfl
@[simp] theorem State.modGlb_usbP (f : Glb → Glb) : (s.modGlb f).usbP = s.usbP := rfl
@[simp] theorem State.modGlb_i2c (f : Glb → Glb) : (s.modGlb f).i2c = s.i2c := rfl
@[simp] theorem State.modGlb_glb (f : Glb → Glb) : (s.modGlb f).glb = f s.glb := rfl
@[simp] theorem State.modGlb_pwr (f : Glb → Glb) : (s.modGlb f).pwr = s.pwr := rfl
@[simp] theorem State.modGlb_evq (f : Glb → Glb) : (s.modGlb f).evq = s.evq := rfl
@[simp] theorem State.modGlb_flt (f : Glb → Glb) : (s.modGlb f).flt = s.flt := rfl
@[simp] theorem State.modGlb_feed (f : Glb → Glb) : (s.modGlb f).feed = s.feed := rfl
@[simp] theorem State.modGlb_dyn (f : Glb → Glb) : (s.modGlb f).dyn = s.dyn := rfl
@[simp] theorem State.modGlb_pmb (f : Glb → Glb) : (s.modGlb f).pmb = s.pmb := rfl
@[simp] theorem State.modGlb_nvm (f : Glb → Glb) : (s.modGlb f).nvm = s.nvm := rfl
@[simp] theorem State.modGlb_img (f : Glb → Glb) : (s.modGlb f).img = s.img := rfl
@[simp] theorem State.modGlb_sto (f : Glb → Glb) : (s.modGlb f).sto = s.sto := rfl
@[simp] theorem State.modGlb_hub (f : Glb → Glb) : (s.modGlb f).hub = s.hub := rfl
@[simp] theorem State.modGlb_efn (f : Glb → Glb) : (s.modGlb f).efn = s.efn := rfl
@[simp] theorem State.modGlb_tim (f : Glb → Glb) : (s.modGlb f).tim = s.tim := rfl
@[simp] theorem State.modGlb_cad (f : Glb → Glb) : (s.modGlb f).cad = s.cad := rfl
@[simp] theorem State.modGlb_ports (f : Glb → Glb) : (s.modGlb f).ports = s.ports := rfl
@[simp] theorem State.modGlb_mt (f : Glb → Glb) : (s.modGlb f).mt = s.mt := rfl
@[simp] theorem State.modGlb_mass (f : Glb → Glb) : (s.modGlb f).mass = s.mass := rfl
@[simp] theorem State.modGlb_bm (f : Glb → Glb) : (s.modGlb f).bm = s.bm := rfl
@[simp] theorem State.modGlb_free (f : Glb → Glb) : (s.modGlb f).free = s.free := rfl

@[simp] theorem State.modEvq_pending (f : Evq → Evq) : (s.modEvq f).pending = s.pending := rfl
@[simp] theorem State.modEvq_regs (f : Evq → Evq) : (s.modEvq f).regs = s.regs := rfl
@[simp] theorem State.modEvq_loader (f : Evq → Evq) : (s.modEvq f).loader = s.loader := rfl
@[simp] theorem State.modEvq_i2cP (f : Evq → Evq) : (s.modEvq f).i2cP = s.i2cP := rfl
@[simp] theorem State.modEvq_usbP (f : Evq → Evq) : (s.modEvq f).usbP = s.usbP := rfl
@[simp] theorem State.modEvq_i2c (f : Evq → Evq) : (s.modEvq f).i2c = s.i2c := rfl
@[simp] theorem State.modEvq_glb (f : Evq → Evq) : (s.modEvq f).glb = s.glb := rfl
@[simp] theorem State.modEvq_pwr (f : Evq → Evq) : (s.modEvq f).pwr = s.pwr := rfl
@[simp] theorem State.modEvq_evq (f : Evq → Evq) : (s.modEvq f).evq = f s.evq := rfl
@[simp] theorem State.modEvq_flt (f : Evq → Evq) : (s.modEvq f).flt = s.flt := rfl
@[simp] theorem State.modEvq_feed (f : Evq → Evq) : (s.modEvq f).feed = s.feed := rfl
@[simp] theorem State.modEvq_dyn (f : Evq → Evq) : (s.modEvq f).dyn = s.dyn := rfl
@[simp] theorem State.modEvq_pmb (f : Evq → Evq) : (s.modEvq f).pmb = s.pmb := rfl
@[simp] theorem State.modEvq_nvm (f : Evq → Evq) : (s.modEvq f).nvm = s.nvm := rfl
@[simp] theorem State.modEvq_img (f : Evq → Evq) : (s.modEvq f).img = s.img := rfl
@[simp] theorem State.modEvq_sto (f : Evq → Evq) : (s.modEvq f).sto = s.sto := rfl
@[simp] theorem State.modEvq_hub (f : Evq → Evq) : (s.modEvq f).hub = s.hub := rfl
@[simp] theorem State.modEvq_efn (f : Evq → Evq) : (s.modEvq f).efn = s.efn := rfl
@[simp] theorem State.modEvq_tim (f : Evq → Evq) : (s.modEvq f).tim = s.tim := rfl
@[simp] theorem State.modEvq_cad (f : Evq → Evq) : (s.modEvq f).cad = s.cad := rfl
@[simp] theorem State.modEvq_ports (f : Evq → Evq) : (s.modEvq f).ports = s.ports := rfl
@[simp] theorem State.modEvq_mt (f : Evq → Evq) : (s.modEvq f).mt = s.mt := rfl
@[simp] theorem State.modEvq_mass (f : Evq → Evq) : (s.modEvq f).mass = s.mass := rfl
@[simp] theorem State.modEvq_bm (f : Evq → Evq) : (s.modEvq f).bm = s.bm := rfl
@[simp] theorem State.modEvq_free (f : Evq → Evq) : (s.modEvq f).free = s.free := rfl

@[simp] theorem State.modFlt_pending (f : Flt → Flt) : (s.modFlt f).pending = s.pending := rfl
@[simp] theorem State.modFlt_regs (f : Flt → Flt) : (s.modFlt f).regs = s.regs := rfl
@[simp] theorem State.modFlt_loader (f : Flt → Flt) : (s.modFlt f).loader = s.loader := rfl
@[simp] theorem State.modFlt_i2cP (f : Flt → Flt) : (s.modFlt f).i2cP = s.i2cP := rfl
@[simp] theorem State.modFlt_usbP (f : Flt → Flt) : (s.modFlt f).usbP = s.usbP := rfl
@[simp] theorem State.modFlt_i2c (f : Flt → Flt) : (s.modFlt f).i2c = s.i2c := rfl
@[simp] theorem State.modFlt_glb (f : Flt → Flt) : (s.modFlt f).glb = s.glb := rfl
@[simp] theorem State.modFlt_pwr (f : Flt → Flt) : (s.modFlt f).pwr = s.pwr := rfl
@[simp] theorem State.modFlt_evq (f : Flt → Flt) : (s.modFlt f).evq = s.evq := rfl
@[simp] theorem State.modFlt_flt (f : Flt → Flt) : (s.modFlt f).flt = f s.flt := rfl
@[simp] theorem State.modFlt_feed (f : Flt → Flt) : (s.modFlt f).feed = s.feed := rfl
@[simp] theorem State.modFlt_dyn (f : Flt → Flt) : (s.modFlt f).dyn = s.dyn := rfl
@[simp] theorem State.modFlt_pmb (f : Flt → Flt) : (s.modFlt f).pmb = s.pmb := rfl
@[simp] theorem State.modFlt_nvm (f : Flt → Flt) : (s.modFlt f).nvm = s.nvm := rfl
@[simp] theorem State.modFlt_img (f : Flt → Flt) : (s.modFlt f).img = s.img := rfl
@[simp] theorem State.modFlt_sto (f : Flt → Flt) : (s.modFlt f).sto = s.sto := rfl
@[simp] theorem State.modFlt_hub (f : Flt → Flt) : (s.modFlt f).hub = s.hub := rfl
@[simp] theorem State.modFlt_efn (f : Flt → Flt) : (s.modFlt f).efn = s.efn := rfl
@[simp] theorem State.modFlt_tim (f : Flt → Flt) : (s.modFlt f).tim = s.tim := rfl
@[simp] theorem State.modFlt_cad (f : Flt → Flt) : (s.modFlt f).cad = s.cad := rfl
@[simp] theorem State.modFlt_ports (f : Flt → Flt) : (s.modFlt f).ports = s.ports := rfl
@[simp] theorem State.modFlt_mt (f : Flt → Flt) : (s.modFlt f).mt = s.mt := rfl
@[simp] theorem State.modFlt_mass (f : Flt → Flt) : (s.modFlt f).mass = s.mass := rfl
@[simp] theorem State.modFlt_bm (f : Flt → Flt) : (s.modFlt f).bm = s.bm := rfl
@[simp] theorem State.modFlt_free (f : Flt → Flt) : (s.modFlt f).free = s.free := rfl

@[simp] theorem State.modPmb_pending (f : Pmb → Pmb) : (s.modPmb f).pending = s.pending := rfl
@[simp] theorem State.modPmb_regs (f : Pmb → Pmb) : (s.modPmb f).regs = s.regs := rfl
@[simp] theorem State.modPmb_loader (f : Pmb → Pmb) : (s.modPmb f).loader = s.loader := rfl
@[simp] theorem State.modPmb_i2cP (f : Pmb → Pmb) : (s.modPmb f).i2cP = s.i2cP := rfl
@[simp] theorem State.modPmb_usbP (f : Pmb → Pmb) : (s.modPmb f).usbP = s.usbP := rfl
@[simp] theorem State.modPmb_i2c (f : Pmb → Pmb) : (s.modPmb f).i2c = s.i2c := rfl
@[simp] theorem State.modPmb_glb (f : Pmb → Pmb) : (s.modPmb f).glb = s.glb := rfl
@[simp] theorem State.modPmb_pwr (f : Pmb → Pmb) : (s.modPmb f).pwr = s.pwr := rfl
@[simp] theorem State.modPmb_evq (f : Pmb → Pmb) : (s.modPmb f).evq = s.evq := rfl
@[simp] theorem State.modPmb_flt (f : Pmb → Pmb) : (s.modPmb f).flt = s.flt := rfl
@[simp] theorem State.modPmb_feed (f : Pmb → Pmb) : (s.modPmb f).feed = s.feed := rfl
@[simp] theorem State.modPmb_dyn (f : Pmb → Pmb) : (s.modPmb f).dyn = s.dyn := rfl
@[simp] theorem State.modPmb_pmb (f : Pmb → Pmb) : (s.modPmb f).pmb = f s.pmb := rfl
@[simp] theorem State.modPmb_nvm (f : Pmb → Pmb) : (s.modPmb f).nvm = s.nvm := rfl
@[simp] theorem State.modPmb_img (f : Pmb → Pmb) : (s.modPmb f).img = s.img := rfl
@[simp] theorem State.modPmb_sto (f : Pmb → Pmb) : (s.modPmb f).sto = s.sto := rfl
@[simp] theorem State.modPmb_hub (f : Pmb → Pmb) : (s.modPmb f).hub = s.hub := rfl
@[simp] theorem State.modPmb_efn (f : Pmb → Pmb) : (s.modPmb f).efn = s.efn := rfl
@[simp] theorem State.modPmb_tim (f : Pmb → Pmb) : (s.modPmb f).tim = s.tim := rfl
@[simp] theorem State.modPmb_cad (f : Pmb → Pmb) : (s.modPmb f).cad = s.cad := rfl
@[simp] theorem State.modPmb_ports (f : Pmb → Pmb) : (s.modPmb f).ports = s.ports := rfl
@[simp] theorem State.modPmb_mt (f : Pmb → Pmb) : (s.modPmb f).mt = s.mt := rfl
@[simp] theorem State.modPmb_mass (f : Pmb → Pmb) : (s.modPmb f).mass = s.mass := rfl
@[simp] theorem State.modPmb_bm (f : Pmb → Pmb) : (s.modPmb f).bm = s.bm := rfl
@[simp] theorem State.modPmb_free (f : Pmb → Pmb) : (s.modPmb f).free = s.free := rfl

@[simp] theorem State.modNvm_pending (f : Nvm → Nvm) : (s.modNvm f).pending = s.pending := rfl
@[simp] theorem State.modNvm_regs (f : Nvm → Nvm) : (s.modNvm f).regs = s.regs := rfl
@[simp] theorem State.modNvm_loader (f : Nvm → Nvm) : (s.modNvm f).loader = s.loader := rfl
@[simp] theorem State.modNvm_i2cP (f : Nvm → Nvm) : (s.modNvm f).i2cP = s.i2cP := rfl
@[simp] theorem State.modNvm_usbP (f : Nvm → Nvm) : (s.modNvm f).usbP = s.usbP := rfl
@[simp] theorem State.modNvm_i2c (f : Nvm → Nvm) : (s.modNvm f).i2c = s.i2c := rfl
@[simp] theorem State.modNvm_glb (f : Nvm → Nvm) : (s.modNvm f).glb = s.glb := rfl
@[simp] theorem State.modNvm_pwr (f : Nvm → Nvm) : (s.modNvm f).pwr = s.pwr := rfl
@[simp] theorem State.modNvm_evq (f : Nvm → Nvm) : (s.modNvm f).evq = s.evq := rfl
@[simp] theorem State.modNvm_flt (f : Nvm → Nvm) : (s.modNvm f).flt = s.flt := rfl
@[simp] theorem State.modNvm_feed (f : Nvm → Nvm) : (s.modNvm f).feed = s.feed := rfl
@[simp] theorem State.modNvm_dyn (f : Nvm → Nvm) : (s.modNvm f).dyn = s.dyn := rfl
@[simp] theorem State.modNvm_pmb (f : Nvm → Nvm) : (s.modNvm f).pmb = s.pmb := rfl
@[simp] theorem State.modNvm_nvm (f : Nvm → Nvm) : (s.modNvm f).nvm = f s.nvm := rfl
@[simp] theorem State.modNvm_img (f : Nvm → Nvm) : (s.modNvm f).img = s.img := rfl
@[simp] theorem State.modNvm_sto (f : Nvm → Nvm) : (s.modNvm f).sto = s.sto := rfl
@[simp] theorem State.modNvm_hub (f : Nvm → Nvm) : (s.modNvm f).hub = s.hub := rfl
@[simp] theorem State.modNvm_efn (f : Nvm → Nvm) : (s.modNvm f).efn = s.efn := rfl
@[simp] theorem State.modNvm_tim (f : Nvm → Nvm) : (s.modNvm f).tim = s.tim := rfl
@[simp] theorem State.modNvm_cad (f : Nvm → Nvm) : (s.modNvm f).cad = s.cad := rfl
@[simp] theorem State.modNvm_ports (f : Nvm → Nvm) : (s.modNvm f).ports = s.ports := rfl
@[simp] theorem State.modNvm_mt (f : Nvm → Nvm) : (s.modNvm f).mt = s.mt := rfl
@[simp] theorem State.modNvm_mass (f : Nvm → Nvm) : (s.modNvm f).mass = s.mass := rfl
@[simp] theorem State.modNvm_bm (f : Nvm → Nvm) : (s.modNvm f).bm = s.bm := rfl
@[simp] theorem State.modNvm_free (f : Nvm → Nvm) : (s.modNvm f).free = s.free := rfl

@[simp] theorem State.modSto_pending (f : Sto → Sto) : (s.modSto f).pending = s.pending := rfl
@[simp] theorem State.modSto_regs (f : Sto → Sto) : (s.modSto f).regs = s.regs := rfl
@[simp] theorem State.modSto_loader (f : Sto → Sto) : (s.modSto f).loader = s.loader := rfl
@[simp] theorem State.modSto_i2cP (f : Sto → Sto) : (s.modSto f).i2cP = s.i2cP := rfl
@[simp] theorem State.modSto_usbP (f : Sto → Sto) : (s.modSto f).usbP = s.usbP := rfl
@[simp] theorem State.modSto_i2c (f : Sto → Sto) : (s.modSto f).i2c = s.i2c := rfl
@[simp] theorem State.modSto_glb (f : Sto → Sto) : (s.modSto f).glb = s.glb := rfl
@[simp] theorem State.modSto_pwr (f : Sto → Sto) : (s.modSto f).pwr = s.pwr := rfl
@[simp] theorem State.modSto_evq (f : Sto → Sto) : (s.modSto f).evq = s.evq := rfl
@[simp] theorem State.modSto_flt (f : Sto → Sto) : (s.modSto f).flt = s.flt := rfl
@[simp] theorem State.modSto_feed (f : Sto → Sto) : (s.modSto f).feed = s.feed := rfl
@[simp] theorem State.modSto_dyn (f : Sto → Sto) : (s.modSto f).dyn = s.dyn := rfl
@[simp] theorem State.modSto_pmb (f : Sto → Sto) : (s.modSto f).pmb = s.pmb := rfl
@[simp] theorem State.modSto_nvm (f : Sto → Sto) : (s.modSto f).nvm = s.nvm := rfl
@[simp] theorem State.modSto_img (f : Sto → Sto) : (s.modSto f).img = s.img := rfl
@[simp] theorem State.modSto_sto (f : Sto → Sto) : (s.modSto f).sto = f s.sto := rfl
@[simp] theorem State.modSto_hub (f : Sto → Sto) : (s.modSto f).hub = s.hub := rfl
@[simp] theorem State.modSto_efn (f : Sto → Sto) : (s.modSto f).efn = s.efn := rfl
@[simp] theorem State.modSto_tim (f : Sto → Sto) : (s.modSto f).tim = s.tim := rfl
@[simp] theorem State.modSto_cad (f : Sto → Sto) : (s.modSto f).cad = s.cad := rfl
@[simp] theorem State.modSto_ports (f : Sto → Sto) : (s.modSto f).ports = s.ports := rfl
@[simp] theorem State.modSto_mt (f : Sto → Sto) : (s.modSto f).mt = s.mt := rfl
@[simp] theorem State.modSto_mass (f : Sto → Sto) : (s.modSto f).mass = s.mass := rfl
@[simp] theorem State.modSto_bm (f : Sto → Sto) : (s.modSto f).bm = s.bm := rfl
@[simp] theorem State.modSto_free (f : Sto → Sto) : (s.modSto f).free = s.free := rfl

@[simp] theorem State.modHub_pending (f : Hub → Hub) : (s.modHub f).pending = s.pending := rfl
@[simp] theorem State.modHub_regs (f : Hub → Hub) : (s.modHub f).regs = s.regs := rfl
@[simp] theorem State.modHub_loader (f : Hub → Hub) : (s.modHub f).loader = s.loader := rfl
@[simp] theorem State.modHub_i2cP (f : Hub → Hub) : (s.modHub f).i2cP = s.i2cP := rfl
@[simp] theorem State.modHub_usbP (f : Hub → Hub) : (s.modHub f).usbP = s.usbP := rfl
@[simp] theorem State.modHub_i2c (f : Hub → Hub) : (s.modHub f).i2c = s.i2c := rfl
@[simp] theorem State.modHub_glb (f : Hub → Hub) : (s.modHub f).glb = s.glb := rfl
@[simp] theorem State.modHub_pwr (f : Hub → Hub) : (s.modHub f).pwr = s.pwr := rfl
@[simp] theorem State.modHub_evq (f : Hub → Hub) : (s.modHub f).evq = s.evq := rfl
@[simp] theorem State.modHub_flt (f : Hub → Hub) : (s.modHub f).flt = s.flt := rfl
@[simp] theorem State.modHub_feed (f : Hub → Hub) : (s.modHub f).feed = s.feed := rfl
@[simp] theorem State.modHub_dyn (f : Hub → Hub) : (s.modHub f).dyn = s.dyn := rfl
@[simp] theorem State.modHub_pmb (f : Hub → Hub) : (s.modHub f).pmb = s.pmb := rfl
@[simp] theorem State.modHub_nvm (f : Hub → Hub) : (s.modHub f).nvm = s.nvm := rfl
@[simp] theorem State.modHub_img (f : Hub → Hub) : (s.modHub f).img = s.img := rfl
@[simp] theorem State.modHub_sto (f : Hub → Hub) : (s.modHub f).sto = s.sto := rfl
@[simp] theorem State.modHub_hub (f : Hub → Hub) : (s.modHub f).hub = f s.hub := rfl
@[simp] theorem State.modHub_efn (f : Hub → Hub) : (s.modHub f).efn = s.efn := rfl
@[simp] theorem State.modHub_tim (f : Hub → Hub) : (s.modHub f).tim = s.tim := rfl
@[simp] theorem State.modHub_cad (f : Hub → Hub) : (s.modHub f).cad = s.cad := rfl
@[simp] theorem State.modHub_ports (f : Hub → Hub) : (s.modHub f).ports = s.ports := rfl
@[simp] theorem State.modHub_mt (f : Hub → Hub) : (s.modHub f).mt = s.mt := rfl
@[simp] theorem State.modHub_mass (f : Hub → Hub) : (s.modHub f).mass = s.mass := rfl
@[simp] theorem State.modHub_bm (f : Hub → Hub) : (s.modHub f).bm = s.bm := rfl
@[simp] theorem State.modHub_free (f : Hub → Hub) : (s.modHub f).free = s.free := rfl

@[simp] theorem State.modEfn_pending (f : Efn → Efn) : (s.modEfn f).pending = s.pending := rfl
@[simp] theorem State.modEfn_regs (f : Efn → Efn) : (s.modEfn f).regs = s.regs := rfl
@[simp] theorem State.modEfn_loader (f : Efn → Efn) : (s.modEfn f).loader = s.loader := rfl
@[simp] theorem State.modEfn_i2cP (f : Efn → Efn) : (s.modEfn f).i2cP = s.i2cP := rfl
@[simp] theorem State.modEfn_usbP (f : Efn → Efn) : (s.modEfn f).usbP = s.usbP := rfl
@[simp] theorem State.modEfn_i2c (f : Efn → Efn) : (s.modEfn f).i2c = s.i2c := rfl
@[simp] theorem State.modEfn_glb (f : Efn → Efn) : (s.modEfn f).glb = s.glb := rfl
@[simp] theorem State.modEfn_pwr (f : Efn → Efn) : (s.modEfn f).pwr = s.pwr := rfl
@[simp] theorem State.modEfn_evq (f : Efn → Efn) : (s.modEfn f).evq = s.evq := rfl
@[simp] theorem State.modEfn_flt (f : Efn → Efn) : (s.modEfn f).flt = s.flt := rfl
@[simp] theorem State.modEfn_feed (f : Efn → Efn) : (s.modEfn f).feed = s.feed := rfl
@[simp] theorem State.modEfn_dyn (f : Efn → Efn) : (s.modEfn f).dyn = s.dyn := rfl
@[simp] theorem State.modEfn_pmb (f : Efn → Efn) : (s.modEfn f).pmb = s.pmb := rfl
@[simp] theorem State.modEfn_nvm (f : Efn → Efn) : (s.modEfn f).nvm = s.nvm := rfl
@[simp] theorem State.modEfn_img (f : Efn → Efn) : (s.modEfn f).img = s.img := rfl
@[simp] theorem State.modEfn_sto (f : Efn → Efn) : (s.modEfn f).sto = s.sto := rfl
@[simp] theorem State.modEfn_hub (f : Efn → Efn) : (s.modEfn f).hub = s.hub := rfl
@[simp] theorem State.modEfn_efn (f : Efn → Efn) : (s.modEfn f).efn = f s.efn := rfl
@[simp] theorem State.modEfn_tim (f : Efn → Efn) : (s.modEfn f).tim = s.tim := rfl
@[simp] theorem State.modEfn_cad (f : Efn → Efn) : (s.modEfn f).cad = s.cad := rfl
@[simp] theorem State.modEfn_ports (f : Efn → Efn) : (s.modEfn f).ports = s.ports := rfl
@[simp] theorem State.modEfn_mt (f : Efn → Efn) : (s.modEfn f).mt = s.mt := rfl
@[simp] theorem State.modEfn_mass (f : Efn → Efn) : (s.modEfn f).mass = s.mass := rfl
@[simp] theorem State.modEfn_bm (f : Efn → Efn) : (s.modEfn f).bm = s.bm := rfl
@[simp] theorem State.modEfn_free (f : Efn → Efn) : (s.modEfn f).free = s.free := rfl

@[simp] theorem State.modTim_pending (f : Tim → Tim) : (s.modTim f).pending = s.pending := rfl
@[simp] theorem State.modTim_regs (f : Tim → Tim) : (s.modTim f).regs = s.regs := rfl
@[simp] theorem State.modTim_loader (f : Tim → Tim) : (s.modTim f).loader = s.loader := rfl
@[simp] theorem State.modTim_i2cP (f : Tim → Tim) : (s.modTim f).i2cP = s.i2cP := rfl
@[simp] theorem State.modTim_usbP (f : Tim → Tim) : (s.modTim f).usbP = s.usbP := rfl
@[simp] theorem State.modTim_i2c (f : Tim → Tim) : (s.modTim f).i2c = s.i2c := rfl
@[simp] theorem State.modTim_glb (f : Tim → Tim) : (s.modTim f).glb = s.glb := rfl
@[simp] theorem State.modTim_pwr (f : Tim → Tim) : (s.modTim f).pwr = s.pwr := rfl
@[simp] theorem State.modTim_evq (f : Tim → Tim) : (s.modTim f).evq = s.evq := rfl
@[simp] theorem State.modTim_flt (f : Tim → Tim) : (s.modTim f).flt = s.flt := rfl
@[simp] theorem State.modTim_feed (f : Tim → Tim) : (s.modTim f).feed = s.feed := rfl
@[simp] theorem State.modTim_dyn (f : Tim → Tim) : (s.modTim f).dyn = s.dyn := rfl
@[simp] theorem State.modTim_pmb (f : Tim → Tim) : (s.modTim f).pmb = s.pmb := rfl
@[simp] theorem State.modTim_nvm (f : Tim → Tim) : (s.modTim f).nvm = s.nvm := rfl
@[simp] theorem State.modTim_img (f : Tim → Tim) : (s.modTim f).img = s.img := rfl
@[simp] theorem State.modTim_sto (f : Tim → Tim) : (s.modTim f).sto = s.sto := rfl
@[simp] theorem State.modTim_hub (f : Tim → Tim) : (s.modTim f).hub = s.hub := rfl
@[simp] theorem State.modTim_efn (f : Tim → Tim) : (s.modTim f).efn = s.efn := rfl
@[simp] theorem State.modTim_tim (f : Tim → Tim) : (s.modTim f).tim = f s.tim := rfl
@[simp] theorem State.modTim_cad (f : Tim → Tim) : (s.modTim f).cad = s.cad := rfl
@[simp] theorem State.modTim_ports (f : Tim → Tim) : (s.modTim f).ports = s.ports := rfl
@[simp] theorem State.modTim_mt (f : Tim → Tim) : (s.modTim f).mt = s.mt := rfl
@[simp] theorem State.modTim_mass (f : Tim → Tim) : (s.modTim f).mass = s.mass := rfl
@[simp] theorem State.modTim_bm (f : Tim → Tim) : (s.modTim f).bm = s.bm := rfl
@[simp] theorem State.modTim_free (f : Tim → Tim) : (s.modTim f).free = s.free := rfl

@[simp] theorem State.modCad_pending (f : Cad → Cad) : (s.modCad f).pending = s.pending := rfl
@[simp] theorem State.modCad_regs (f : Cad → Cad) : (s.modCad f).regs = s.regs := rfl
@[simp] theorem State.modCad_loader (f : Cad → Cad) : (s.modCad f).loader = s.loader := rfl
@[simp] theorem State.modCad_i2cP (f : Cad → Cad) : (s.modCad f).i2cP = s.i2cP := rfl
@[simp] theorem State.modCad_usbP (f : Cad → Cad) : (s.modCad f).usbP = s.usbP := rfl
@[simp] theorem State.modCad_i2c (f : Cad → Cad) : (s.modCad f).i2c = s.i2c := rfl
@[simp] theorem State.modCad_glb (f : Cad → Cad) : (s.modCad f).glb = s.glb := rfl
@[simp] theorem State.modCad_pwr (f : Cad → Cad) : (s.modCad f).pwr = s.pwr := rfl
@[simp] theorem State.modCad_evq (f : Cad → Cad) : (s.modCad f).evq = s.evq := rfl
@[simp] theorem State.modCad_flt (f : Cad → Cad) : (s.modCad f).flt = s.flt := rfl
@[simp] theorem State.modCad_feed (f : Cad → Cad) : (s.modCad f).feed = s.feed := rfl
@[simp] theorem State.modCad_dyn (f : Cad → Cad) : (s.modCad f).dyn = s.dyn := rfl
@[simp] theorem State.modCad_pmb (f : Cad → Cad) : (s.modCad f).pmb = s.pmb := rfl
@[simp] theorem State.modCad_nvm (f : Cad → Cad) : (s.modCad f).nvm = s.nvm := rfl
@[simp] theorem State.modCad_img (f : Cad → Cad) : (s.modCad f).img = s.img := rfl
@[simp] theorem State.modCad_sto (f : Cad → Cad) : (s.modCad f).sto = s.sto := rfl
@[simp] theorem State.modCad_hub (f : Cad → Cad) : (s.modCad f).hub = s.hub := rfl
@[simp] theorem State.modCad_efn (f : Cad → Cad) : (s.modCad f).efn = s.efn := rfl
@[simp] theorem State.modCad_tim (f : Cad → Cad) : (s.modCad f).tim = s.tim := rfl
@[simp] theorem State.modCad_cad (f : Cad → Cad) : (s.modCad f).cad = f s.cad := rfl
@[simp] theorem State.modCad_ports (f : Cad → Cad) : (s.modCad f).ports = s.ports := rfl
@[simp] theorem State.modCad_mt (f : Cad → Cad) : (s.modCad f).mt = s.mt := rfl
@[simp] theorem State.modCad_mass (f : Cad → Cad) : (s.modCad f).mass = s.mass := rfl
@[simp] theorem State.modCad_bm (f : Cad → Cad) : (s.modCad f).bm = s.bm := rfl
@[simp] theorem State.modCad_free (f : Cad → Cad) : (s.modCad f).free = s.free := rfl

@[simp] theorem State.modDyn_pending (f : Dyn → Dyn) : (s.modDyn f).pending = s.pending := rfl
@[simp] theorem State.modDyn_regs (f : Dyn → Dyn) : (s.modDyn f).regs = s.regs := rfl
@[simp] theorem State.modDyn_loader (f : Dyn → Dyn) : (s.modDyn f).loader = s.loader := rfl
@[simp] theorem State.modDyn_i2cP (f : Dyn → Dyn) : (s.modDyn f).i2cP = s.i2cP := rfl
@[simp] theorem State.modDyn_usbP (f : Dyn → Dyn) : (s.modDyn f).usbP = s.usbP := rfl
@[simp] theorem State.modDyn_i2c (f : Dyn → Dyn) : (s.modDyn f).i2c = s.i2c := rfl
@[simp] theorem State.modDyn_glb (f : Dyn → Dyn) : (s.modDyn f).glb = s.glb := rfl
@[simp] theorem State.modDyn_pwr (f : Dyn → Dyn) : (s.modDyn f).pwr = s.pwr := rfl
@[simp] theorem State.modDyn_evq (f : Dyn → Dyn) : (s.modDyn f).evq = s.evq := rfl
@[simp] theorem State.modDyn_flt (f : Dyn → Dyn) : (s.modDyn f).flt = s.flt := rfl
@[simp] theorem State.modDyn_feed (f : Dyn → Dyn) : (s.modDyn f).feed = s.feed := rfl
@[simp] theorem State.modDyn_dyn (f : Dyn → Dyn) : (s.modDyn f).dyn = f s.dyn := rfl
@[simp] theorem State.modDyn_pmb (f : Dyn → Dyn) : (s.modDyn f).pmb = s.pmb := rfl
@[simp] theorem State.modDyn_nvm (f : Dyn → Dyn) : (s.modDyn f).nvm = s.nvm := rfl
@[simp] theorem State.modDyn_img (f : Dyn → Dyn) : (s.modDyn f).img = s.img := rfl
@[simp] theorem State.modDyn_sto (f : Dyn → Dyn) : (s.modDyn f).sto = s.sto := rfl
@[simp] theorem State.modDyn_hub (f : Dyn → Dyn) : (s.modDyn f).hub = s.hub := rfl
@[simp] theorem State.modDyn_efn (f : Dyn → Dyn) : (s.modDyn f).efn = s.efn := rfl
@[simp] theorem State.modDyn_tim (f : Dyn → Dyn) : (s.modDyn f).tim = s.tim := rfl
@[simp] theorem State.modDyn_cad (f : Dyn → Dyn) : (s.modDyn f).cad = s.cad := rfl
@[simp] theorem State.modDyn_ports (f : Dyn → Dyn) : (s.modDyn f).ports = s.ports := rfl
@[simp] theorem State.modDyn_mt (f : Dyn → Dyn) : (s.modDyn f).mt = s.mt := rfl
@[simp] theorem State.modDyn_mass (f : Dyn → Dyn) : (s.modDyn f).mass = s.mass := rfl
@[simp] theorem State.modDyn_bm (f : Dyn → Dyn) : (s.modDyn f).bm = s.bm := rfl
@[simp] theorem State.modDyn_free (f : Dyn → Dyn) : (s.modDyn f).free = s.free := rfl

@[simp] theorem State.modI2c_pending (f : I2cEngine → I2cEngine) : (s.modI2c f).pending = s.pending := rfl
@[simp] theorem State.modI2c_regs (f : I2cEngine → I2cEngine) : (s.modI2c f).regs = s.regs := rfl
@[simp] theorem State.modI2c_loader (f : I2cEngine → I2cEngine) : (s.modI2c f).loader = s.loader := rfl
@[simp] theorem State.modI2c_i2cP (f : I2cEngine → I2cEngine) : (s.modI2c f).i2cP = s.i2cP := rfl
@[simp] theorem State.modI2c_usbP (f : I2cEngine → I2cEngine) : (s.modI2c f).usbP = s.usbP := rfl
@[simp] theorem State.modI2c_i2c (f : I2cEngine → I2cEngine) : (s.modI2c f).i2c = f s.i2c := rfl
@[simp] theorem State.modI2c_glb (f : I2cEngine → I2cEngine) : (s.modI2c f).glb = s.glb := rfl
@[simp] theorem State.modI2c_pwr (f : I2cEngine → I2cEngine) : (s.modI2c f).pwr = s.pwr := rfl
@[simp] theorem State.modI2c_evq (f : I2cEngine → I2cEngine) : (s.modI2c f).evq = s.evq := rfl
@[simp] theorem State.modI2c_flt (f : I2cEngine → I2cEngine) : (s.modI2c f).flt = s.flt := rfl
@[simp] theorem State.modI2c_feed (f : I2cEngine → I2cEngine) : (s.modI2c f).feed = s.feed := rfl
@[simp] theorem State.modI2c_dyn (f : I2cEngine → I2cEngine) : (s.modI2c f).dyn = s.dyn := rfl
@[simp] theorem State.modI2c_pmb (f : I2cEngine → I2cEngine) : (s.modI2c f).pmb = s.pmb := rfl
@[simp] theorem State.modI2c_nvm (f : I2cEngine → I2cEngine) : (s.modI2c f).nvm = s.nvm := rfl
@[simp] theorem State.modI2c_img (f : I2cEngine → I2cEngine) : (s.modI2c f).img = s.img := rfl
@[simp] theorem State.modI2c_sto (f : I2cEngine → I2cEngine) : (s.modI2c f).sto = s.sto := rfl
@[simp] theorem State.modI2c_hub (f : I2cEngine → I2cEngine) : (s.modI2c f).hub = s.hub := rfl
@[simp] theorem State.modI2c_efn (f : I2cEngine → I2cEngine) : (s.modI2c f).efn = s.efn := rfl
@[simp] theorem State.modI2c_tim (f : I2cEngine → I2cEngine) : (s.modI2c f).tim = s.tim := rfl
@[simp] theorem State.modI2c_cad (f : I2cEngine → I2cEngine) : (s.modI2c f).cad = s.cad := rfl
@[simp] theorem State.modI2c_ports (f : I2cEngine → I2cEngine) : (s.modI2c f).ports = s.ports := rfl
@[simp] theorem State.modI2c_mt (f : I2cEngine → I2cEngine) : (s.modI2c f).mt = s.mt := rfl
@[simp] theorem State.modI2c_mass (f : I2cEngine → I2cEngine) : (s.modI2c f).mass = s.mass := rfl
@[simp] theorem State.modI2c_bm (f : I2cEngine → I2cEngine) : (s.modI2c f).bm = s.bm := rfl
@[simp] theorem State.modI2c_free (f : I2cEngine → I2cEngine) : (s.modI2c f).free = s.free := rfl

@[simp] theorem State.modMt_pending (f : Meters → Meters) : (s.modMt f).pending = s.pending := rfl
@[simp] theorem State.modMt_regs (f : Meters → Meters) : (s.modMt f).regs = s.regs := rfl
@[simp] theorem State.modMt_loader (f : Meters → Meters) : (s.modMt f).loader = s.loader := rfl
@[simp] theorem State.modMt_i2cP (f : Meters → Meters) : (s.modMt f).i2cP = s.i2cP := rfl
@[simp] theorem State.modMt_usbP (f : Meters → Meters) : (s.modMt f).usbP = s.usbP := rfl
@[simp] theorem State.modMt_i2c (f : Meters → Meters) : (s.modMt f).i2c = s.i2c := rfl
@[simp] theorem State.modMt_glb (f : Meters → Meters) : (s.modMt f).glb = s.glb := rfl
@[simp] theorem State.modMt_pwr (f : Meters → Meters) : (s.modMt f).pwr = s.pwr := rfl
@[simp] theorem State.modMt_evq (f : Meters → Meters) : (s.modMt f).evq = s.evq := rfl
@[simp] theorem State.modMt_flt (f : Meters → Meters) : (s.modMt f).flt = s.flt := rfl
@[simp] theorem State.modMt_feed (f : Meters → Meters) : (s.modMt f).feed = s.feed := rfl
@[simp] theorem State.modMt_dyn (f : Meters → Meters) : (s.modMt f).dyn = s.dyn := rfl
@[simp] theorem State.modMt_pmb (f : Meters → Meters) : (s.modMt f).pmb = s.pmb := rfl
@[simp] theorem State.modMt_nvm (f : Meters → Meters) : (s.modMt f).nvm = s.nvm := rfl
@[simp] theorem State.modMt_img (f : Meters → Meters) : (s.modMt f).img = s.img := rfl
@[simp] theorem State.modMt_sto (f : Meters → Meters) : (s.modMt f).sto = s.sto := rfl
@[simp] theorem State.modMt_hub (f : Meters → Meters) : (s.modMt f).hub = s.hub := rfl
@[simp] theorem State.modMt_efn (f : Meters → Meters) : (s.modMt f).efn = s.efn := rfl
@[simp] theorem State.modMt_tim (f : Meters → Meters) : (s.modMt f).tim = s.tim := rfl
@[simp] theorem State.modMt_cad (f : Meters → Meters) : (s.modMt f).cad = s.cad := rfl
@[simp] theorem State.modMt_ports (f : Meters → Meters) : (s.modMt f).ports = s.ports := rfl
@[simp] theorem State.modMt_mt (f : Meters → Meters) : (s.modMt f).mt = f s.mt := rfl
@[simp] theorem State.modMt_mass (f : Meters → Meters) : (s.modMt f).mass = s.mass := rfl
@[simp] theorem State.modMt_bm (f : Meters → Meters) : (s.modMt f).bm = s.bm := rfl
@[simp] theorem State.modMt_free (f : Meters → Meters) : (s.modMt f).free = s.free := rfl

@[simp] theorem State.modImg_pending (f : Img → Img) : (s.modImg f).pending = s.pending := rfl
@[simp] theorem State.modImg_regs (f : Img → Img) : (s.modImg f).regs = s.regs := rfl
@[simp] theorem State.modImg_loader (f : Img → Img) : (s.modImg f).loader = s.loader := rfl
@[simp] theorem State.modImg_i2cP (f : Img → Img) : (s.modImg f).i2cP = s.i2cP := rfl
@[simp] theorem State.modImg_usbP (f : Img → Img) : (s.modImg f).usbP = s.usbP := rfl
@[simp] theorem State.modImg_i2c (f : Img → Img) : (s.modImg f).i2c = s.i2c := rfl
@[simp] theorem State.modImg_glb (f : Img → Img) : (s.modImg f).glb = s.glb := rfl
@[simp] theorem State.modImg_pwr (f : Img → Img) : (s.modImg f).pwr = s.pwr := rfl
@[simp] theorem State.modImg_evq (f : Img → Img) : (s.modImg f).evq = s.evq := rfl
@[simp] theorem State.modImg_flt (f : Img → Img) : (s.modImg f).flt = s.flt := rfl
@[simp] theorem State.modImg_feed (f : Img → Img) : (s.modImg f).feed = s.feed := rfl
@[simp] theorem State.modImg_dyn (f : Img → Img) : (s.modImg f).dyn = s.dyn := rfl
@[simp] theorem State.modImg_pmb (f : Img → Img) : (s.modImg f).pmb = s.pmb := rfl
@[simp] theorem State.modImg_nvm (f : Img → Img) : (s.modImg f).nvm = s.nvm := rfl
@[simp] theorem State.modImg_img (f : Img → Img) : (s.modImg f).img = f s.img := rfl
@[simp] theorem State.modImg_sto (f : Img → Img) : (s.modImg f).sto = s.sto := rfl
@[simp] theorem State.modImg_hub (f : Img → Img) : (s.modImg f).hub = s.hub := rfl
@[simp] theorem State.modImg_efn (f : Img → Img) : (s.modImg f).efn = s.efn := rfl
@[simp] theorem State.modImg_tim (f : Img → Img) : (s.modImg f).tim = s.tim := rfl
@[simp] theorem State.modImg_cad (f : Img → Img) : (s.modImg f).cad = s.cad := rfl
@[simp] theorem State.modImg_ports (f : Img → Img) : (s.modImg f).ports = s.ports := rfl
@[simp] theorem State.modImg_mt (f : Img → Img) : (s.modImg f).mt = s.mt := rfl
@[simp] theorem State.modImg_mass (f : Img → Img) : (s.modImg f).mass = s.mass := rfl
@[simp] theorem State.modImg_bm (f : Img → Img) : (s.modImg f).bm = s.bm := rfl
@[simp] theorem State.modImg_free (f : Img → Img) : (s.modImg f).free = s.free := rfl

@[simp] theorem State.modBm_pending (f : Bm → Bm) : (s.modBm f).pending = s.pending := rfl
@[simp] theorem State.modBm_regs (f : Bm → Bm) : (s.modBm f).regs = s.regs := rfl
@[simp] theorem State.modBm_loader (f : Bm → Bm) : (s.modBm f).loader = s.loader := rfl
@[simp] theorem State.modBm_i2cP (f : Bm → Bm) : (s.modBm f).i2cP = s.i2cP := rfl
@[simp] theorem State.modBm_usbP (f : Bm → Bm) : (s.modBm f).usbP = s.usbP := rfl
@[simp] theorem State.modBm_i2c (f : Bm → Bm) : (s.modBm f).i2c = s.i2c := rfl
@[simp] theorem State.modBm_glb (f : Bm → Bm) : (s.modBm f).glb = s.glb := rfl
@[simp] theorem State.modBm_pwr (f : Bm → Bm) : (s.modBm f).pwr = s.pwr := rfl
@[simp] theorem State.modBm_evq (f : Bm → Bm) : (s.modBm f).evq = s.evq := rfl
@[simp] theorem State.modBm_flt (f : Bm → Bm) : (s.modBm f).flt = s.flt := rfl
@[simp] theorem State.modBm_feed (f : Bm → Bm) : (s.modBm f).feed = s.feed := rfl
@[simp] theorem State.modBm_dyn (f : Bm → Bm) : (s.modBm f).dyn = s.dyn := rfl
@[simp] theorem State.modBm_pmb (f : Bm → Bm) : (s.modBm f).pmb = s.pmb := rfl
@[simp] theorem State.modBm_nvm (f : Bm → Bm) : (s.modBm f).nvm = s.nvm := rfl
@[simp] theorem State.modBm_img (f : Bm → Bm) : (s.modBm f).img = s.img := rfl
@[simp] theorem State.modBm_sto (f : Bm → Bm) : (s.modBm f).sto = s.sto := rfl
@[simp] theorem State.modBm_hub (f : Bm → Bm) : (s.modBm f).hub = s.hub := rfl
@[simp] theorem State.modBm_efn (f : Bm → Bm) : (s.modBm f).efn = s.efn := rfl
@[simp] theorem State.modBm_tim (f : Bm → Bm) : (s.modBm f).tim = s.tim := rfl
@[simp] theorem State.modBm_cad (f : Bm → Bm) : (s.modBm f).cad = s.cad := rfl
@[simp] theorem State.modBm_ports (f : Bm → Bm) : (s.modBm f).ports = s.ports := rfl
@[simp] theorem State.modBm_mt (f : Bm → Bm) : (s.modBm f).mt = s.mt := rfl
@[simp] theorem State.modBm_mass (f : Bm → Bm) : (s.modBm f).mass = s.mass := rfl
@[simp] theorem State.modBm_bm (f : Bm → Bm) : (s.modBm f).bm = f s.bm := rfl
@[simp] theorem State.modBm_free (f : Bm → Bm) : (s.modBm f).free = s.free := rfl

@[simp] theorem noticeIf_pending (c : Bool) (w : WakeSrc) (p : Option PortId) : (noticeIf c w p s).pending = s.pending := rfl
@[simp] theorem noticeIf_regs (c : Bool) (w : WakeSrc) (p : Option PortId) : (noticeIf c w p s).regs = s.regs := rfl
@[simp] theorem noticeIf_loader (c : Bool) (w : WakeSrc) (p : Option PortId) : (noticeIf c w p s).loader = s.loader := rfl
@[simp] theorem noticeIf_i2cP (c : Bool) (w : WakeSrc) (p : Option PortId) : (noticeIf c w p s).i2cP = s.i2cP := rfl
@[simp] theorem noticeIf_usbP (c : Bool) (w : WakeSrc) (p : Option PortId) : (noticeIf c w p s).usbP = s.usbP := rfl
@[simp] theorem noticeIf_i2c (c : Bool) (w : WakeSrc) (p : Option PortId) : (noticeIf c w p s).i2c = s.i2c := rfl
@[simp] theorem noticeIf_glb (c : Bool) (w : WakeSrc) (p : Option PortId) : (noticeIf c w p s).glb = s.glb := rfl
@[simp] theorem noticeIf_evq (c : Bool) (w : WakeSrc) (p : Option PortId) : (noticeIf c w p s).evq = s.evq := rfl
@[simp] theorem noticeIf_flt (c : Bool) (w : WakeSrc) (p : Option PortId) : (noticeIf c w p s).flt = s.flt := rfl
@[simp] theorem noticeIf_dyn (c : Bool) (w : WakeSrc) (p : Option PortId) : (noticeIf c w p s).dyn = s.dyn := rfl
@[simp] theorem noticeIf_pmb (c : Bool) (w : WakeSrc) (p : Option PortId) : (noticeIf c w p s).pmb = s.pmb := rfl
@[simp] theorem noticeIf_nvm (c : Bool) (w : WakeSrc) (p : Option PortId) : (noticeIf c w p s).nvm = s.nvm := rfl
@[simp] theorem noticeIf_img (c : Bool) (w : WakeSrc) (p : Option PortId) : (noticeIf c w p s).img = s.img := rfl
@[simp] theorem noticeIf_sto (c : Bool) (w : WakeSrc) (p : Option PortId) : (noticeIf c w p s).sto = s.sto := rfl
@[simp] theorem noticeIf_hub (c : Bool) (w : WakeSrc) (p : Option PortId) : (noticeIf c w p s).hub = s.hub := rfl
@[simp] theorem noticeIf_efn (c : Bool) (w : WakeSrc) (p : Option PortId) : (noticeIf c w p s).efn = s.efn := rfl
@[simp] theorem noticeIf_tim (c : Bool) (w : WakeSrc) (p : Option PortId) : (noticeIf c w p s).tim = s.tim := rfl
@[simp] theorem noticeIf_cad (c : Bool) (w : WakeSrc) (p : Option PortId) : (noticeIf c w p s).cad = s.cad := rfl
@[simp] theorem noticeIf_ports (c : Bool) (w : WakeSrc) (p : Option PortId) : (noticeIf c w p s).ports = s.ports := rfl
@[simp] theorem noticeIf_mt (c : Bool) (w : WakeSrc) (p : Option PortId) : (noticeIf c w p s).mt = s.mt := rfl
@[simp] theorem noticeIf_mass (c : Bool) (w : WakeSrc) (p : Option PortId) : (noticeIf c w p s).mass = s.mass := rfl
@[simp] theorem noticeIf_bm (c : Bool) (w : WakeSrc) (p : Option PortId) : (noticeIf c w p s).bm = s.bm := rfl
@[simp] theorem noticeIf_free (c : Bool) (w : WakeSrc) (p : Option PortId) : (noticeIf c w p s).free = s.free := rfl
@[simp] theorem noticeIf_pwr_st (c : Bool) (w : WakeSrc) (p : Option PortId) : (noticeIf c w p s).pwr.st = s.pwr.st := by
  unfold noticeIf State.modPwr; dsimp only; split <;> rfl
@[simp] theorem noticeIf_false (w : WakeSrc) (p : Option PortId) : noticeIf false w p s = s := by
  simp [noticeIf, State.modPwr]

@[simp] theorem State.modLine_pending (x : FeedId) (g : FeedLine → FeedLine) : (s.modLine x g).pending = s.pending := rfl
@[simp] theorem State.modLine_regs (x : FeedId) (g : FeedLine → FeedLine) : (s.modLine x g).regs = s.regs := rfl
@[simp] theorem State.modLine_loader (x : FeedId) (g : FeedLine → FeedLine) : (s.modLine x g).loader = s.loader := rfl
@[simp] theorem State.modLine_i2cP (x : FeedId) (g : FeedLine → FeedLine) : (s.modLine x g).i2cP = s.i2cP := rfl
@[simp] theorem State.modLine_usbP (x : FeedId) (g : FeedLine → FeedLine) : (s.modLine x g).usbP = s.usbP := rfl
@[simp] theorem State.modLine_i2c (x : FeedId) (g : FeedLine → FeedLine) : (s.modLine x g).i2c = s.i2c := rfl
@[simp] theorem State.modLine_glb (x : FeedId) (g : FeedLine → FeedLine) : (s.modLine x g).glb = s.glb := rfl
@[simp] theorem State.modLine_pwr (x : FeedId) (g : FeedLine → FeedLine) :
    (s.modLine x g).pwr = (noticeIf ((g (s.line x)).st != (s.line x).st) .feed none s).pwr := rfl
@[simp] theorem State.modLine_evq (x : FeedId) (g : FeedLine → FeedLine) : (s.modLine x g).evq = s.evq := rfl
@[simp] theorem State.modLine_flt (x : FeedId) (g : FeedLine → FeedLine) : (s.modLine x g).flt = s.flt := rfl
@[simp] theorem State.modLine_dyn (x : FeedId) (g : FeedLine → FeedLine) : (s.modLine x g).dyn = s.dyn := rfl
@[simp] theorem State.modLine_pmb (x : FeedId) (g : FeedLine → FeedLine) : (s.modLine x g).pmb = s.pmb := rfl
@[simp] theorem State.modLine_nvm (x : FeedId) (g : FeedLine → FeedLine) : (s.modLine x g).nvm = s.nvm := rfl
@[simp] theorem State.modLine_img (x : FeedId) (g : FeedLine → FeedLine) : (s.modLine x g).img = s.img := rfl
@[simp] theorem State.modLine_sto (x : FeedId) (g : FeedLine → FeedLine) : (s.modLine x g).sto = s.sto := rfl
@[simp] theorem State.modLine_hub (x : FeedId) (g : FeedLine → FeedLine) : (s.modLine x g).hub = s.hub := rfl
@[simp] theorem State.modLine_efn (x : FeedId) (g : FeedLine → FeedLine) : (s.modLine x g).efn = s.efn := rfl
@[simp] theorem State.modLine_tim (x : FeedId) (g : FeedLine → FeedLine) : (s.modLine x g).tim = s.tim := rfl
@[simp] theorem State.modLine_cad (x : FeedId) (g : FeedLine → FeedLine) : (s.modLine x g).cad = s.cad := rfl
@[simp] theorem State.modLine_ports (x : FeedId) (g : FeedLine → FeedLine) : (s.modLine x g).ports = s.ports := rfl
@[simp] theorem State.modLine_mt (x : FeedId) (g : FeedLine → FeedLine) : (s.modLine x g).mt = s.mt := rfl
@[simp] theorem State.modLine_mass (x : FeedId) (g : FeedLine → FeedLine) : (s.modLine x g).mass = s.mass := rfl
@[simp] theorem State.modLine_bm (x : FeedId) (g : FeedLine → FeedLine) : (s.modLine x g).bm = s.bm := rfl
@[simp] theorem State.modLine_free (x : FeedId) (g : FeedLine → FeedLine) : (s.modLine x g).free = s.free := rfl

@[simp] theorem State.modAx_pending (a : AxId) (g : AxPath → AxPath) : (s.modAx a g).pending = s.pending := rfl
@[simp] theorem State.modAx_regs (a : AxId) (g : AxPath → AxPath) : (s.modAx a g).regs = s.regs := rfl
@[simp] theorem State.modAx_loader (a : AxId) (g : AxPath → AxPath) : (s.modAx a g).loader = s.loader := rfl
@[simp] theorem State.modAx_i2cP (a : AxId) (g : AxPath → AxPath) : (s.modAx a g).i2cP = s.i2cP := rfl
@[simp] theorem State.modAx_usbP (a : AxId) (g : AxPath → AxPath) : (s.modAx a g).usbP = s.usbP := rfl
@[simp] theorem State.modAx_i2c (a : AxId) (g : AxPath → AxPath) : (s.modAx a g).i2c = s.i2c := rfl
@[simp] theorem State.modAx_glb (a : AxId) (g : AxPath → AxPath) : (s.modAx a g).glb = s.glb := rfl
@[simp] theorem State.modAx_pwr (a : AxId) (g : AxPath → AxPath) : (s.modAx a g).pwr = s.pwr := rfl
@[simp] theorem State.modAx_evq (a : AxId) (g : AxPath → AxPath) : (s.modAx a g).evq = s.evq := rfl
@[simp] theorem State.modAx_flt (a : AxId) (g : AxPath → AxPath) : (s.modAx a g).flt = s.flt := rfl
@[simp] theorem State.modAx_dyn (a : AxId) (g : AxPath → AxPath) : (s.modAx a g).dyn = s.dyn := rfl
@[simp] theorem State.modAx_pmb (a : AxId) (g : AxPath → AxPath) : (s.modAx a g).pmb = s.pmb := rfl
@[simp] theorem State.modAx_nvm (a : AxId) (g : AxPath → AxPath) : (s.modAx a g).nvm = s.nvm := rfl
@[simp] theorem State.modAx_img (a : AxId) (g : AxPath → AxPath) : (s.modAx a g).img = s.img := rfl
@[simp] theorem State.modAx_sto (a : AxId) (g : AxPath → AxPath) : (s.modAx a g).sto = s.sto := rfl
@[simp] theorem State.modAx_hub (a : AxId) (g : AxPath → AxPath) : (s.modAx a g).hub = s.hub := rfl
@[simp] theorem State.modAx_efn (a : AxId) (g : AxPath → AxPath) : (s.modAx a g).efn = s.efn := rfl
@[simp] theorem State.modAx_tim (a : AxId) (g : AxPath → AxPath) : (s.modAx a g).tim = s.tim := rfl
@[simp] theorem State.modAx_cad (a : AxId) (g : AxPath → AxPath) : (s.modAx a g).cad = s.cad := rfl
@[simp] theorem State.modAx_ports (a : AxId) (g : AxPath → AxPath) : (s.modAx a g).ports = s.ports := rfl
@[simp] theorem State.modAx_mt (a : AxId) (g : AxPath → AxPath) : (s.modAx a g).mt = s.mt := rfl
@[simp] theorem State.modAx_mass (a : AxId) (g : AxPath → AxPath) : (s.modAx a g).mass = s.mass := rfl
@[simp] theorem State.modAx_bm (a : AxId) (g : AxPath → AxPath) : (s.modAx a g).bm = s.bm := rfl
@[simp] theorem State.modAx_free (a : AxId) (g : AxPath → AxPath) : (s.modAx a g).free = s.free := rfl

@[simp] theorem State.setCell_pending (k : Nat) (c : StoCell) : (s.setCell k c).pending = s.pending := rfl
@[simp] theorem State.setCell_regs (k : Nat) (c : StoCell) : (s.setCell k c).regs = s.regs := rfl
@[simp] theorem State.setCell_loader (k : Nat) (c : StoCell) : (s.setCell k c).loader = s.loader := rfl
@[simp] theorem State.setCell_i2cP (k : Nat) (c : StoCell) : (s.setCell k c).i2cP = s.i2cP := rfl
@[simp] theorem State.setCell_usbP (k : Nat) (c : StoCell) : (s.setCell k c).usbP = s.usbP := rfl
@[simp] theorem State.setCell_i2c (k : Nat) (c : StoCell) : (s.setCell k c).i2c = s.i2c := rfl
@[simp] theorem State.setCell_glb (k : Nat) (c : StoCell) : (s.setCell k c).glb = s.glb := rfl
@[simp] theorem State.setCell_pwr (k : Nat) (c : StoCell) : (s.setCell k c).pwr = s.pwr := rfl
@[simp] theorem State.setCell_evq (k : Nat) (c : StoCell) : (s.setCell k c).evq = s.evq := rfl
@[simp] theorem State.setCell_flt (k : Nat) (c : StoCell) : (s.setCell k c).flt = s.flt := rfl
@[simp] theorem State.setCell_feed (k : Nat) (c : StoCell) : (s.setCell k c).feed = s.feed := rfl
@[simp] theorem State.setCell_dyn (k : Nat) (c : StoCell) : (s.setCell k c).dyn = s.dyn := rfl
@[simp] theorem State.setCell_pmb (k : Nat) (c : StoCell) : (s.setCell k c).pmb = s.pmb := rfl
@[simp] theorem State.setCell_nvm (k : Nat) (c : StoCell) : (s.setCell k c).nvm = s.nvm := rfl
@[simp] theorem State.setCell_img (k : Nat) (c : StoCell) : (s.setCell k c).img = s.img := rfl
@[simp] theorem State.setCell_hub (k : Nat) (c : StoCell) : (s.setCell k c).hub = s.hub := rfl
@[simp] theorem State.setCell_efn (k : Nat) (c : StoCell) : (s.setCell k c).efn = s.efn := rfl
@[simp] theorem State.setCell_tim (k : Nat) (c : StoCell) : (s.setCell k c).tim = s.tim := rfl
@[simp] theorem State.setCell_cad (k : Nat) (c : StoCell) : (s.setCell k c).cad = s.cad := rfl
@[simp] theorem State.setCell_ports (k : Nat) (c : StoCell) : (s.setCell k c).ports = s.ports := rfl
@[simp] theorem State.setCell_mt (k : Nat) (c : StoCell) : (s.setCell k c).mt = s.mt := rfl
@[simp] theorem State.setCell_mass (k : Nat) (c : StoCell) : (s.setCell k c).mass = s.mass := rfl
@[simp] theorem State.setCell_bm (k : Nat) (c : StoCell) : (s.setCell k c).bm = s.bm := rfl
@[simp] theorem State.setCell_free (k : Nat) (c : StoCell) : (s.setCell k c).free = s.free := rfl

end Sys2Proof.Machine
end

