-- ==== Sys2Proof/Laws/Access.lean ====
section
/-! SUPPORT. What a write of a register that acts comes to: the fields stored, then its one effect. -/

namespace Sys2Proof.Machine

variable {p : Path} {v : Word} {s t : State}

theorem writeAt_of_reaches {a : Nat} (h : s.reaches p a = true) : writeAt p a v s = regWrite p a v s := by
  simp [writeAt, h]

theorem regWrite_acts {a : Nat} {r : RegRow} (hw : inWindow a = false) (hr : regRow a = some r) (hk : r.rwk = 0) :
    regWrite p a v s = actWrite p a v (written p a v s) := by
  simp [regWrite, written, rowWrite, hw, hr, hk]

theorem regWrite_keyed {a : Nat} {r : RegRow} (hw : inWindow a = false) (hr : regRow a = some r) (hk : r.rwk ≠ 0)
    (ho : (s.path p).lockOpen = true) : regWrite p a v s = keyedWrite p a v (actWrite p a v (written p a v s)) := by
  simp only [regWrite, written, rowWrite, hw, hr, ho]
  exact if_pos (show (true && r.rwk != 0) = true by simpa using hk)

theorem regWrite_unkeyed {a : Nat} {r : RegRow} (hw : inWindow a = false) (hr : regRow a = some r)
    (ho : (s.path p).lockOpen = false) : regWrite p a v s = actWrite p a v (written p a v s) := by
  simp [regWrite, written, rowWrite, hw, hr, ho]

theorem write_GLB_LOCKRING (h : s.reaches p R.GLB_LOCKRING = true) :
    writeAt p R.GLB_LOCKRING v s = lockringWrite p v (written p R.GLB_LOCKRING v s) := by
  rw [writeAt_of_reaches h, regWrite_acts (by decide) (rfl) (by decide)]
  rfl

theorem write_GLB_COMMIT (h : s.reaches p R.GLB_COMMIT = true) :
    writeAt p R.GLB_COMMIT v s = commit p (bitsOf v 0 16) (written p R.GLB_COMMIT v s) := by
  rw [writeAt_of_reaches h, regWrite_acts (by decide) (rfl) (by decide)]
  rfl

theorem write_GLB_DISCARD (h : s.reaches p R.GLB_DISCARD = true) :
    writeAt p R.GLB_DISCARD v s = discard p (bitsOf v 0 16) (written p R.GLB_DISCARD v s) := by
  rw [writeAt_of_reaches h, regWrite_acts (by decide) (rfl) (by decide)]
  rfl

theorem write_GLB_COMMIT_AT (h : s.reaches p R.GLB_COMMIT_AT = true) :
    writeAt p R.GLB_COMMIT_AT v s = commitAtWrite p v (written p R.GLB_COMMIT_AT v s) := by
  rw [writeAt_of_reaches h, regWrite_acts (by decide) (rfl) (by decide)]
  rfl

theorem write_FLT_CAP_INFO (h : s.reaches p R.FLT_CAP_INFO = true) :
    writeAt p R.FLT_CAP_INFO v s = capClear v (written p R.FLT_CAP_INFO v s) := by
  rw [writeAt_of_reaches h, regWrite_acts (by decide) (rfl) (by decide)]
  rfl

theorem write_EVQ_CMD (h : s.reaches p R.EVQ_CMD = true) :
    writeAt p R.EVQ_CMD v s = (if bitOf v 0 then evqFlush (written p R.EVQ_CMD v s) else (written p R.EVQ_CMD v s)) := by
  rw [writeAt_of_reaches h, regWrite_acts (by decide) (rfl) (by decide)]
  rfl

theorem write_PMB_VERIFY (h : s.reaches p R.PMB_VERIFY = true) :
    writeAt p R.PMB_VERIFY v s = pmbVerifyBits v (written p R.PMB_VERIFY v s) := by
  rw [writeAt_of_reaches h, regWrite_acts (by decide) (rfl) (by decide)]
  rfl

theorem write_PMB_SW_CTRL (h : s.reaches p R.PMB_SW_CTRL = true) :
    writeAt p R.PMB_SW_CTRL v s = (if bitOf v 20 then pmbSwGo (written p R.PMB_SW_CTRL v s) else (written p R.PMB_SW_CTRL v s)) := by
  rw [writeAt_of_reaches h, regWrite_acts (by decide) (rfl) (by decide)]
  rfl

theorem write_STO_CMD (h : s.reaches p R.STO_CMD = true) :
    writeAt p R.STO_CMD v s = stoCmd v (written p R.STO_CMD v s) := by
  rw [writeAt_of_reaches h, regWrite_acts (by decide) (rfl) (by decide)]
  rfl

theorem write_HUB_CONNECT (h : s.reaches p R.HUB_CONNECT = true) :
    writeAt p R.HUB_CONNECT v s = hubConnectCmd v (written p R.HUB_CONNECT v s) := by
  rw [writeAt_of_reaches h, regWrite_acts (by decide) (rfl) (by decide)]
  rfl

theorem write_EFN_CARVE (h : s.reaches p R.EFN_CARVE = true) :
    writeAt p R.EFN_CARVE v s = (if bitOf v 0 then carveApply (written p R.EFN_CARVE v s) else (written p R.EFN_CARVE v s)) := by
  rw [writeAt_of_reaches h, regWrite_acts (by decide) (rfl) (by decide)]
  rfl

theorem write_TIM_CMD (h : s.reaches p R.TIM_CMD = true) :
    writeAt p R.TIM_CMD v s = timSwCap v (written p R.TIM_CMD v s) := by
  rw [writeAt_of_reaches h, regWrite_acts (by decide) (rfl) (by decide)]
  rfl

theorem write_CAD_BQ_CMD (h : s.reaches p R.CAD_BQ_CMD = true) :
    writeAt p R.CAD_BQ_CMD v s = cadLqCmd broadQ v (written p R.CAD_BQ_CMD v s) := by
  rw [writeAt_of_reaches h, regWrite_acts (by decide) (rfl) (by decide)]
  rfl

theorem write_CAD_BQ_TAIL (h : s.reaches p R.CAD_BQ_TAIL = true) :
    writeAt p R.CAD_BQ_TAIL v s = cadTail broadQ v (written p R.CAD_BQ_TAIL v s) := by
  rw [writeAt_of_reaches h, regWrite_acts (by decide) (rfl) (by decide)]
  rfl

theorem write_GLB_RESET (h : s.reaches p R.GLB_RESET = true) (ho : (s.path p).lockOpen = true) :
    writeAt p R.GLB_RESET v s = glbReset v (written p R.GLB_RESET v s) := by
  rw [writeAt_of_reaches h, regWrite_keyed (by decide) (rfl) (by decide) ho]
  rfl

theorem write_FLT_CMD (h : s.reaches p R.FLT_CMD = true) (ho : (s.path p).lockOpen = true) :
    writeAt p R.FLT_CMD v s = (if bitOf v 0 then endRecovery (written p R.FLT_CMD v s) else (written p R.FLT_CMD v s)) := by
  rw [writeAt_of_reaches h, regWrite_keyed (by decide) (rfl) (by decide) ho]
  rfl

theorem write_FEED_UNLOCK (h : s.reaches p R.FEED_UNLOCK = true) (ho : (s.path p).lockOpen = true) :
    writeAt p R.FEED_UNLOCK v s = feedUnlock v (written p R.FEED_UNLOCK v s) := by
  rw [writeAt_of_reaches h, regWrite_keyed (by decide) (rfl) (by decide) ho]
  rfl

theorem write_NVM_CMD (h : s.reaches p R.NVM_CMD = true) (ho : (s.path p).lockOpen = true) :
    writeAt p R.NVM_CMD v s = nvmCmd v (written p R.NVM_CMD v s) := by
  rw [writeAt_of_reaches h, regWrite_keyed (by decide) (rfl) (by decide) ho]
  rfl

theorem write_STO_FLIP_C (h : s.reaches p R.STO_FLIP_C = true) (ho : (s.path p).lockOpen = true) :
    writeAt p R.STO_FLIP_C v s = flipArm p v (written p R.STO_FLIP_C v s) := by
  rw [writeAt_of_reaches h, regWrite_keyed (by decide) (rfl) (by decide) ho]
  rfl

theorem write_TC_CMD {i : PortId} (h : s.reaches p (R.TC_CMD i) = true) :
    writeAt p (R.TC_CMD i) v s = tcCmd i v (written p (R.TC_CMD i) v s) := by
  rw [writeAt_of_reaches h]
  fin_cases i <;> first | (rw [regWrite_acts (by decide) (rfl) (by decide)]; rfl)

theorem write_PD_CMD {i : PortId} (h : s.reaches p (R.PD_CMD i) = true) :
    writeAt p (R.PD_CMD i) v s = pdCmd i v (written p (R.PD_CMD i) v s) := by
  rw [writeAt_of_reaches h]
  fin_cases i <;> first | (rw [regWrite_acts (by decide) (rfl) (by decide)]; rfl)

theorem write_CL_CMD {i : PortId} (h : s.reaches p (R.CL_CMD i) = true) :
    writeAt p (R.CL_CMD i) v s = clCmd i v (written p (R.CL_CMD i) v s) := by
  rw [writeAt_of_reaches h]
  fin_cases i <;> first | (rw [regWrite_acts (by decide) (rfl) (by decide)]; rfl)

theorem write_CL_LQ_CMD {i : PortId} (h : s.reaches p (R.CL_LQ_CMD i) = true) :
    writeAt p (R.CL_LQ_CMD i) v s = cadLqCmd (portQ i) v (written p (R.CL_LQ_CMD i) v s) := by
  rw [writeAt_of_reaches h]
  fin_cases i <;> first | (rw [regWrite_acts (by decide) (rfl) (by decide)]; rfl)

theorem write_CL_LQ_TAIL {i : PortId} (h : s.reaches p (R.CL_LQ_TAIL i) = true) :
    writeAt p (R.CL_LQ_TAIL i) v s = cadTail (portQ i) v (written p (R.CL_LQ_TAIL i) v s) := by
  rw [writeAt_of_reaches h]
  fin_cases i <;> first | (rw [regWrite_acts (by decide) (rfl) (by decide)]; rfl)

theorem write_CL_RX_RD {i : PortId} (h : s.reaches p (R.CL_RX_RD i) = true) :
    writeAt p (R.CL_RX_RD i) v s = cadRxRd i v (written p (R.CL_RX_RD i) v s) := by
  rw [writeAt_of_reaches h]
  fin_cases i <;> first | (rw [regWrite_acts (by decide) (rfl) (by decide)]; rfl)

theorem write_HP_TT_CMD {i : PortId} (h16 : i.val < 16) (h : s.reaches p (R.HP_TT_CMD i) = true) :
    writeAt p (R.HP_TT_CMD i) v s = ttCmd i v (written p (R.HP_TT_CMD i) v s) := by
  rw [writeAt_of_reaches h]
  fin_cases i <;> first | (rw [regWrite_acts (by decide) (rfl) (by decide)]; rfl) | (simp at h16)

theorem write_PP_UNLOCK {i : PortId} (h : s.reaches p (R.PP_UNLOCK i) = true) (ho : (s.path p).lockOpen = true)
    (hv : bitOf v 0 = true) : writeAt p (R.PP_UNLOCK i) v s = ppUnlock i (written p (R.PP_UNLOCK i) v s) := by
  rw [writeAt_of_reaches h]
  have e : ∀ (j : PortId) (u : State), keyedWrite p (R.PP_UNLOCK j) v (actWrite p (R.PP_UNLOCK j) v u) =
      if R.PP_UNLOCK j = R.PP_UNLOCK j ∧ bitOf v 0 = true then ppUnlock j u else u := by
    intro j u; fin_cases j <;> rfl
  have k : regWrite p (R.PP_UNLOCK i) v s =
      keyedWrite p (R.PP_UNLOCK i) v (actWrite p (R.PP_UNLOCK i) v (written p (R.PP_UNLOCK i) v s)) := by
    fin_cases i <;> exact regWrite_keyed (by decide) rfl (by decide) ho
  rw [k, e, if_pos ⟨rfl, hv⟩]

theorem write_STO_RETIRE {k : Fin 16} (h : s.reaches p (R.STO_RETIRE k) = true) (ho : (s.path p).lockOpen = true) :
    writeAt p (R.STO_RETIRE k) v s = retireWrite k v (written p (R.STO_RETIRE k) v s) := by
  rw [writeAt_of_reaches h]
  fin_cases k <;> (rw [regWrite_keyed (by decide) rfl (by decide) ho]; rfl)

theorem write_STO_ECCLOG {k : Fin 16} (h : s.reaches p (R.STO_ECCLOG k) = true) :
    writeAt p (R.STO_ECCLOG k) v s = ecclogClear k v (written p (R.STO_ECCLOG k) v s) := by
  rw [writeAt_of_reaches h]
  fin_cases k <;> (rw [regWrite_acts (by decide) rfl (by decide)]; rfl)

theorem write_PWR_CMD (h : s.reaches p R.PWR_CMD = true) (ho : (s.path p).lockOpen = false) :
    writeAt p R.PWR_CMD v s = pwrCmd (v &&& 1) (written p R.PWR_CMD v s) := by
  rw [writeAt_of_reaches h, regWrite_unkeyed (by decide) rfl ho]
  rfl

theorem write_PWR_CMD_open (h : s.reaches p R.PWR_CMD = true) (ho : (s.path p).lockOpen = true) :
    writeAt p R.PWR_CMD v s = pwrCmd (v &&& 2) (pwrCmd (v &&& 1) (written p R.PWR_CMD v s)) := by
  rw [writeAt_of_reaches h, regWrite_keyed (by decide) rfl (by decide) ho]
  rfl

end Sys2Proof.Machine
end

