-- ==== Sys2Proof/Laws/Fields.lean ====
section
/-! SUPPORT. Reading a field after a write of a field, a register after a write of a register, and a store word after a write
of a store word. -/

namespace Sys2Proof.Machine

theorem testBit_maskOf {lo n i : Nat} : (maskOf lo n).getLsbD i = (decide (i < 32) && decide (lo ≤ i) && decide (i < lo + n)) := by
  simp only [maskOf, BitVec.getLsbD_ofNat, Nat.testBit_shiftLeft, Nat.testBit_two_pow_sub_one]
  by_cases h1 : i < 32 <;> by_cases h2 : lo ≤ i <;> simp [h1, h2]
  omega

theorem testBit_atBits {lo n v i : Nat} :
    (atBits lo n v).getLsbD i = (decide (i < 32) && decide (lo ≤ i) && decide (i < lo + n) && v.testBit (i - lo)) := by
  simp only [atBits, BitVec.getLsbD_ofNat, Nat.testBit_shiftLeft, Nat.testBit_mod_two_pow]
  by_cases h1 : i < 32 <;> by_cases h2 : lo ≤ i <;> simp [h1, h2]
  have : (i - lo < n) ↔ (i < lo + n) := by omega
  simp [this]

theorem testBit_bitsOf {w : Word} {lo n i : Nat} : (bitsOf w lo n).testBit i = (decide (i < n) && w.getLsbD (lo + i)) := by
  simp [bitsOf, Nat.testBit_mod_two_pow, Nat.testBit_shiftRight, BitVec.getLsbD]

theorem testBit_putBits {w : Word} {lo n v i : Nat} (h : i < 32) :
    (putBits w lo n v).getLsbD i = if lo ≤ i ∧ i < lo + n then v.testBit (i - lo) else w.getLsbD i := by
  simp only [putBits, BitVec.getLsbD_or, BitVec.getLsbD_and, BitVec.getLsbD_not, testBit_maskOf, testBit_atBits, h]
  by_cases h2 : lo ≤ i <;> by_cases h3 : i < lo + n <;> simp [h2, h3]

/-- A field reads what was written to it, cut to its width. -/
theorem bitsOf_putBits_self {w : Word} {lo n v : Nat} (h : lo + n ≤ 32) : bitsOf (putBits w lo n v) lo n = v % 2 ^ n := by
  refine Nat.eq_of_testBit_eq fun i => ?_
  rw [testBit_bitsOf, Nat.testBit_mod_two_pow]
  by_cases hi : i < n
  · rw [testBit_putBits (by omega)]; simp [hi]
  · simp [hi]

/-- A write of a field leaves the fields beside it. -/
theorem bitsOf_putBits_other {w : Word} {lo n v lo' n' : Nat} (h : lo' + n' ≤ 32) (hd : lo + n ≤ lo' ∨ lo' + n' ≤ lo) :
    bitsOf (putBits w lo n v) lo' n' = bitsOf w lo' n' := by
  refine Nat.eq_of_testBit_eq fun i => ?_
  simp only [testBit_bitsOf]
  by_cases hi : i < n'
  · rw [testBit_putBits (by omega), if_neg (by omega)]
  · simp [hi]

theorem canonical_regs {s : State} (h : s.canonical = true) : s.regs.wf regReset = true := by
  simp only [State.canonical, Bool.and_eq_true] at h; exact h.1.1.1

theorem canonical_mem {s : State} (h : s.canonical = true) : s.sto.mem.wf cellDefault = true := by
  simp only [State.canonical, Bool.and_eq_true] at h; exact h.1.1.2

theorem State.reg_setReg_self {s : State} {a : Nat} {w : Word} (h : s.canonical = true) : (s.setReg a w).reg a = w :=
  SMap.get_set_self (canonical_regs h)

theorem State.reg_setReg_other {s : State} {a b : Nat} {w : Word} (h : s.canonical = true) (hb : b ≠ a) :
    (s.setReg a w).reg b = s.reg b := SMap.get_set_other (canonical_regs h) hb

theorem State.rd_wr_self {s : State} {f : Fld} {v : Nat} (h : s.canonical = true) (hf : f.lo + f.w ≤ 32) :
    (s.wr f v).rd f = v % 2 ^ f.w := by
  simp only [State.rd, State.wr, State.reg_setReg_self h, bitsOf_putBits_self hf]

theorem State.rd_wr_addr {s : State} {f g : Fld} {v : Nat} (h : s.canonical = true) (hg : g.addr ≠ f.addr) :
    (s.wr f v).rd g = s.rd g := by
  simp only [State.rd, State.wr, State.reg_setReg_other h hg]

theorem State.rd_wr_bits {s : State} {f g : Fld} {v : Nat} (h : s.canonical = true) (hg : g.lo + g.w ≤ 32)
    (hd : f.lo + f.w ≤ g.lo ∨ g.lo + g.w ≤ f.lo) : (s.wr f v).rd g = s.rd g := by
  by_cases ha : g.addr = f.addr
  · simp only [State.rd, State.wr, ha, State.reg_setReg_self h, bitsOf_putBits_other hg hd]
  · exact State.rd_wr_addr h ha

theorem State.cell_setCell_self {s : State} {k : Nat} {c : StoCell} (h : s.canonical = true) :
    (s.setCell k c).cell k = c := SMap.get_set_self (canonical_mem h)

theorem State.cell_setCell_other {s : State} {k j : Nat} {c : StoCell} (h : s.canonical = true) (hj : j ≠ k) :
    (s.setCell k c).cell j = s.cell j := SMap.get_set_other (canonical_mem h) hj

end Sys2Proof.Machine
end

