-- ==== Sys2Proof/Laws/PerInstr.lean ====
section
/-! SUPPORT. Per-command lemmas: no word of the opcode table spells a command (the rows give no bits). -/

namespace Sys2Proof.Laws.Unspelled

/-- No table word spells the command. -/
def Statement (i : Instr) : Prop := ∀ nbits w : Nat, decodeTableWord nbits w ≠ some i

theorem supplyGoodEval (vin puVbus vtan : Nat) (puRp : CcTerm) (straps : BitVec 3) : Statement (.supplyGoodEval vin puVbus vtan puRp straps) := fun _ _ h => by simp [decodeTableWord] at h
theorem resetNLow : Statement .resetNLow := fun _ _ h => by simp [decodeTableWord] at h
theorem vaux5Brownout : Statement .vaux5Brownout := fun _ _ h => by simp [decodeTableWord] at h
theorem glbResetCold (path : Path) (v : Word) : Statement (.glbResetCold path v) := fun _ _ h => by simp [decodeTableWord] at h
theorem glbResetWarm (path : Path) (v : Word) : Statement (.glbResetWarm path v) := fun _ _ h => by simp [decodeTableWord] at h
theorem x24Ready : Statement .x24Ready := fun _ _ h => by simp [decodeTableWord] at h
theorem x24Stop : Statement .x24Stop := fun _ _ h => by simp [decodeTableWord] at h
theorem x32CrystalFail : Statement .x32CrystalFail := fun _ _ h => by simp [decodeTableWord] at h
theorem vddcTurnOnDone (r : VddcResult) : Statement (.vddcTurnOnDone r) := fun _ _ h => by simp [decodeTableWord] at h
theorem storeFillDone : Statement .storeFillDone := fun _ _ h => by simp [decodeTableWord] at h
theorem flashHeadersRead (jedec : BitVec 24) (content : List (Nat × Byte)) : Statement (.flashHeadersRead jedec content) := fun _ _ h => by simp [decodeTableWord] at h
theorem slotValidated : Statement .slotValidated := fun _ _ h => by simp [decodeTableWord] at h
theorem signatureVerified : Statement .signatureVerified := fun _ _ h => by simp [decodeTableWord] at h
theorem ladderConvertersOff : Statement .ladderConvertersOff := fun _ _ h => by simp [decodeTableWord] at h
theorem levelUpTo2 : Statement .levelUpTo2 := fun _ _ h => by simp [decodeTableWord] at h
theorem upstreamConnect : Statement .upstreamConnect := fun _ _ h => by simp [decodeTableWord] at h
theorem hubConnectWrite (path : Path) (v : Word) : Statement (.hubConnectWrite path v) := fun _ _ h => by simp [decodeTableWord] at h
theorem hubConnectDisconnect (path : Path) (v : Word) : Statement (.hubConnectDisconnect path v) := fun _ _ h => by simp [decodeTableWord] at h
theorem connectReevaluate : Statement .connectReevaluate := fun _ _ h => by simp [decodeTableWord] at h
theorem bridgeModeEnd : Statement .bridgeModeEnd := fun _ _ h => by simp [decodeTableWord] at h
theorem dynNoEpr : Statement .dynNoEpr := fun _ _ h => by simp [decodeTableWord] at h
theorem causeRecordProgrammed : Statement .causeRecordProgrammed := fun _ _ h => by simp [decodeTableWord] at h
theorem causeAreaEraseStart : Statement .causeAreaEraseStart := fun _ _ h => by simp [decodeTableWord] at h
theorem causeAreaEraseDone : Statement .causeAreaEraseDone := fun _ _ h => by simp [decodeTableWord] at h
theorem nvmRead (path : Path) (v : Word) : Statement (.nvmRead path v) := fun _ _ h => by simp [decodeTableWord] at h
theorem nvmProgram (path : Path) (v : Word) : Statement (.nvmProgram path v) := fun _ _ h => by simp [decodeTableWord] at h
theorem nvmErase4k (path : Path) (v : Word) : Statement (.nvmErase4k path v) := fun _ _ h => by simp [decodeTableWord] at h
theorem nvmErase64k (path : Path) (v : Word) : Statement (.nvmErase64k path v) := fun _ _ h => by simp [decodeTableWord] at h
theorem nvmVerifySlot (path : Path) (v : Word) : Statement (.nvmVerifySlot path v) := fun _ _ h => by simp [decodeTableWord] at h
theorem nvmReadId (path : Path) (v : Word) : Statement (.nvmReadId path v) := fun _ _ h => by simp [decodeTableWord] at h
theorem nvmOtpProgram (path : Path) (v : Word) : Statement (.nvmOtpProgram path v) := fun _ _ h => by simp [decodeTableWord] at h
theorem nvmBadOp (path : Path) (v : Word) : Statement (.nvmBadOp path v) := fun _ _ h => by simp [decodeTableWord] at h
theorem nvmOpDone (jedec : BitVec 24) (stuckLow : Word) : Statement (.nvmOpDone jedec stuckLow) := fun _ _ h => by simp [decodeTableWord] at h
theorem nvmOpTimeout : Statement .nvmOpTimeout := fun _ _ h => by simp [decodeTableWord] at h
theorem feedWindowEnter (f : FeedId) : Statement (.feedWindowEnter f) := fun _ _ h => by simp [decodeTableWord] at h
theorem feedWindowExit (f : FeedId) : Statement (.feedWindowExit f) := fun _ _ h => by simp [decodeTableWord] at h
theorem feedQualified (f : FeedId) : Statement (.feedQualified f) := fun _ _ h => by simp [decodeTableWord] at h
theorem feedRevertExpire (f : FeedId) : Statement (.feedRevertExpire f) := fun _ _ h => by simp [decodeTableWord] at h
theorem vinUvlo (vin : Nat) : Statement (.vinUvlo vin) := fun _ _ h => by simp [decodeTableWord] at h
theorem feedReverseCurrent : Statement .feedReverseCurrent := fun _ _ h => by simp [decodeTableWord] at h
theorem vinBrownoutHoldExpire : Statement .vinBrownoutHoldExpire := fun _ _ h => by simp [decodeTableWord] at h
theorem switchoverOldOff : Statement .switchoverOldOff := fun _ _ h => by simp [decodeTableWord] at h
theorem switchoverConfirmTimeout (oldPresent : Bool) : Statement (.switchoverConfirmTimeout oldPresent) := fun _ _ h => by simp [decodeTableWord] at h
theorem feedPairConducts (f : FeedId) : Statement (.feedPairConducts f) := fun _ _ h => by simp [decodeTableWord] at h
theorem feedPairFullyOn (f : FeedId) : Statement (.feedPairFullyOn f) := fun _ _ h => by simp [decodeTableWord] at h
theorem feedLiveTurnonTimeout (f : FeedId) : Statement (.feedLiveTurnonTimeout f) := fun _ _ h => by simp [decodeTableWord] at h
theorem feedRampEnd (f : FeedId) : Statement (.feedRampEnd f) := fun _ _ h => by simp [decodeTableWord] at h
theorem feedGateCheckFail (f : FeedId) : Statement (.feedGateCheckFail f) := fun _ _ h => by simp [decodeTableWord] at h
theorem feedShortedPass (f : FeedId) : Statement (.feedShortedPass f) := fun _ _ h => by simp [decodeTableWord] at h
theorem feedTrip (f : FeedId) (cause : FeedTripCause) : Statement (.feedTrip f cause) := fun _ _ h => by simp [decodeTableWord] at h
theorem feedCooldownExpire (f : FeedId) : Statement (.feedCooldownExpire f) := fun _ _ h => by simp [decodeTableWord] at h
theorem feedUnlock (path : Path) (v : Word) : Statement (.feedUnlock path v) := fun _ _ h => by simp [decodeTableWord] at h
theorem vinOvervoltage (vin : Nat) : Statement (.vinOvervoltage vin) := fun _ _ h => by simp [decodeTableWord] at h
theorem bellRing (vin : Nat) : Statement (.bellRing vin) := fun _ _ h => by simp [decodeTableWord] at h
theorem bellClear (vin durUs : Nat) : Statement (.bellClear vin durUs) := fun _ _ h => by simp [decodeTableWord] at h
theorem degradedSet : Statement .degradedSet := fun _ _ h => by simp [decodeTableWord] at h
theorem degradedClear : Statement .degradedClear := fun _ _ h => by simp [decodeTableWord] at h
theorem tandemEnter (vtan : Nat) : Statement (.tandemEnter vtan) := fun _ _ h => by simp [decodeTableWord] at h
theorem ftPresentChange (vtan : Nat) : Statement (.ftPresentChange vtan) := fun _ _ h => by simp [decodeTableWord] at h
theorem axOffVsnsCheck (a : AxId) (vsns : Nat) : Statement (.axOffVsnsCheck a vsns) := fun _ _ h => by simp [decodeTableWord] at h
theorem axPgoodRelease (a : AxId) : Statement (.axPgoodRelease a) := fun _ _ h => by simp [decodeTableWord] at h
theorem pathRampStart (x : PathRef) (vsns : Nat) : Statement (.pathRampStart x vsns) := fun _ _ h => by simp [decodeTableWord] at h
theorem pathRampDone (x : PathRef) : Statement (.pathRampDone x) := fun _ _ h => by simp [decodeTableWord] at h
theorem pathFastTrip (x : PathRef) : Statement (.pathFastTrip x) := fun _ _ h => by simp [decodeTableWord] at h
theorem brakeTimerExpire (x : PathRef) (k : Fin 8) : Statement (.brakeTimerExpire x k) := fun _ _ h => by simp [decodeTableWord] at h
theorem soaBudgetExhausted (x : PathRef) : Statement (.soaBudgetExhausted x) := fun _ _ h => by simp [decodeTableWord] at h
theorem rampTimeout (p : PortId) : Statement (.rampTimeout p) := fun _ _ h => by simp [decodeTableWord] at h
theorem rampOvershoot (p : PortId) : Statement (.rampOvershoot p) := fun _ _ h => by simp [decodeTableWord] at h
theorem pathLimitEnter (x : PathRef) : Statement (.pathLimitEnter x) := fun _ _ h => by simp [decodeTableWord] at h
theorem pathLimitExit (x : PathRef) : Statement (.pathLimitExit x) := fun _ _ h => by simp [decodeTableWord] at h
theorem pathDischarged (x : PathRef) : Statement (.pathDischarged x) := fun _ _ h => by simp [decodeTableWord] at h
theorem backoffExpire (x : PathRef) : Statement (.backoffExpire x) := fun _ _ h => by simp [decodeTableWord] at h
theorem retryCountReset (x : PathRef) : Statement (.retryCountReset x) := fun _ _ h => by simp [decodeTableWord] at h
theorem gateCheckFail (p : PortId) : Statement (.gateCheckFail p) := fun _ _ h => by simp [decodeTableWord] at h
theorem outputPresentFail (p : PortId) : Statement (.outputPresentFail p) := fun _ _ h => by simp [decodeTableWord] at h
theorem ppUnlock (path : Path) (p : PortId) (v : Word) : Statement (.ppUnlock path p v) := fun _ _ h => by simp [decodeTableWord] at h
theorem snapshotTaken : Statement .snapshotTaken := fun _ _ h => by simp [decodeTableWord] at h
theorem mtELoRead (path : Path) (m : MeterId) : Statement (.mtELoRead path m) := fun _ _ h => by simp [decodeTableWord] at h
theorem meterTick : Statement .meterTick := fun _ _ h => by simp [decodeTableWord] at h
theorem tcCcChange (p : PortId) (cc1 cc2 : CcTerm) : Statement (.tcCcChange p cc1 cc2) := fun _ _ h => by simp [decodeTableWord] at h
theorem tcDrpToggle (p : PortId) : Statement (.tcDrpToggle p) := fun _ _ h => by simp [decodeTableWord] at h
theorem tcCcDebounceExpire (p : PortId) (vbus : Nat) : Statement (.tcCcDebounceExpire p vbus) := fun _ _ h => by simp [decodeTableWord] at h
theorem tcDrpTryExpire (p : PortId) : Statement (.tcDrpTryExpire p) := fun _ _ h => by simp [decodeTableWord] at h
theorem tcTryTimeout (p : PortId) : Statement (.tcTryTimeout p) := fun _ _ h => by simp [decodeTableWord] at h
theorem tcDrpTryWaitExpire (p : PortId) : Statement (.tcDrpTryWaitExpire p) := fun _ _ h => by simp [decodeTableWord] at h
theorem tcDetach (p : PortId) : Statement (.tcDetach p) := fun _ _ h => by simp [decodeTableWord] at h
theorem vbusLate (p : PortId) : Statement (.vbusLate p) := fun _ _ h => by simp [decodeTableWord] at h
theorem tcErrorRecoveryExpire (p : PortId) : Statement (.tcErrorRecoveryExpire p) := fun _ _ h => by simp [decodeTableWord] at h
theorem tcCmdErrRecovery (path : Path) (p : PortId) (v : Word) : Statement (.tcCmdErrRecovery path p v) := fun _ _ h => by simp [decodeTableWord] at h
theorem tcCmdMoistTest (path : Path) (p : PortId) (v : Word) : Statement (.tcCmdMoistTest path p v) := fun _ _ h => by simp [decodeTableWord] at h
theorem vconnOc (p : PortId) : Statement (.vconnOc p) := fun _ _ h => by simp [decodeTableWord] at h
theorem vconnTotalOc : Statement .vconnTotalOc := fun _ _ h => by simp [decodeTableWord] at h
theorem ccOvp (p : PortId) (mv : Nat) : Statement (.ccOvp p mv) := fun _ _ h => by simp [decodeTableWord] at h
theorem ccOvpClear (p : PortId) : Statement (.ccOvpClear p) := fun _ _ h => by simp [decodeTableWord] at h
theorem sbuOvp (p : PortId) (mv : Nat) : Statement (.sbuOvp p mv) := fun _ _ h => by simp [decodeTableWord] at h
theorem sbuOvpClear (p : PortId) : Statement (.sbuOvpClear p) := fun _ _ h => by simp [decodeTableWord] at h
theorem moistTestDue (p : PortId) : Statement (.moistTestDue p) := fun _ _ h => by simp [decodeTableWord] at h
theorem moistTestDone (p : PortId) (cc1 cc2 sbu1 sbu2 : Nat) : Statement (.moistTestDone p cc1 cc2 sbu1 sbu2) := fun _ _ h => by simp [decodeTableWord] at h
theorem massWetClear : Statement .massWetClear := fun _ _ h => by simp [decodeTableWord] at h
theorem deepCcPoll (p : DPort) (cc1 cc2 : CcTerm) : Statement (.deepCcPoll p cc1 cc2) := fun _ _ h => by simp [decodeTableWord] at h
theorem pdSourceCapsRx (p : PortId) (rev2 epr : Bool) (pdos : List Word) : Statement (.pdSourceCapsRx p rev2 epr pdos) := fun _ _ h => by simp [decodeTableWord] at h
theorem pdRequestRx (p : PortId) (rev2 : Bool) (rdo : Word) : Statement (.pdRequestRx p rev2 rdo) := fun _ _ h => by simp [decodeTableWord] at h
theorem pdEprRequestRx (p : PortId) (rdo pdo : Word) : Statement (.pdEprRequestRx p rdo pdo) := fun _ _ h => by simp [decodeTableWord] at h
theorem pdAcceptRx (p : PortId) : Statement (.pdAcceptRx p) := fun _ _ h => by simp [decodeTableWord] at h
theorem pdRejectRx (p : PortId) : Statement (.pdRejectRx p) := fun _ _ h => by simp [decodeTableWord] at h
theorem pdWaitRx (p : PortId) : Statement (.pdWaitRx p) := fun _ _ h => by simp [decodeTableWord] at h
theorem pdPsRdyRx (p : PortId) : Statement (.pdPsRdyRx p) := fun _ _ h => by simp [decodeTableWord] at h
theorem pdSoftResetRx (p : PortId) : Statement (.pdSoftResetRx p) := fun _ _ h => by simp [decodeTableWord] at h
theorem pdHardResetRx (p : PortId) : Statement (.pdHardResetRx p) := fun _ _ h => by simp [decodeTableWord] at h
theorem pdGetSourceCapRx (p : PortId) (epr : Bool) : Statement (.pdGetSourceCapRx p epr) := fun _ _ h => by simp [decodeTableWord] at h
theorem pdGetSinkCapRx (p : PortId) (epr : Bool) : Statement (.pdGetSinkCapRx p epr) := fun _ _ h => by simp [decodeTableWord] at h
theorem pdSinkCapsRx (p : PortId) (pdo1 : Word) : Statement (.pdSinkCapsRx p pdo1) := fun _ _ h => by simp [decodeTableWord] at h
theorem pdPrSwapRx (p : PortId) : Statement (.pdPrSwapRx p) := fun _ _ h => by simp [decodeTableWord] at h
theorem pdVconnSwapRx (p : PortId) : Statement (.pdVconnSwapRx p) := fun _ _ h => by simp [decodeTableWord] at h
theorem pdDrSwapRx (p : PortId) : Statement (.pdDrSwapRx p) := fun _ _ h => by simp [decodeTableWord] at h
theorem pdFrSwapRx (p : PortId) : Statement (.pdFrSwapRx p) := fun _ _ h => by simp [decodeTableWord] at h
theorem pdEprModeEnterRx (p : PortId) : Statement (.pdEprModeEnterRx p) := fun _ _ h => by simp [decodeTableWord] at h
theorem pdEprModeExitRx (p : PortId) : Statement (.pdEprModeExitRx p) := fun _ _ h => by simp [decodeTableWord] at h
theorem pdEprKeepaliveRx (p : PortId) : Statement (.pdEprKeepaliveRx p) := fun _ _ h => by simp [decodeTableWord] at h
theorem pdAlertRx (p : PortId) (ado : Word) : Statement (.pdAlertRx p ado) := fun _ _ h => by simp [decodeTableWord] at h
theorem pdGetStatusRx (p : PortId) : Statement (.pdGetStatusRx p) := fun _ _ h => by simp [decodeTableWord] at h
theorem pdGetSourceInfoRx (p : PortId) : Statement (.pdGetSourceInfoRx p) := fun _ _ h => by simp [decodeTableWord] at h
theorem pdGetRevisionRx (p : PortId) : Statement (.pdGetRevisionRx p) := fun _ _ h => by simp [decodeTableWord] at h
theorem pdGetSrcCapExtRx (p : PortId) : Statement (.pdGetSrcCapExtRx p) := fun _ _ h => by simp [decodeTableWord] at h
theorem pdGetSnkCapExtRx (p : PortId) : Statement (.pdGetSnkCapExtRx p) := fun _ _ h => by simp [decodeTableWord] at h
theorem pdBistRx (p : PortId) (carrier : Bool) : Statement (.pdBistRx p carrier) := fun _ _ h => by simp [decodeTableWord] at h
theorem pdUnsupportedRx (p : PortId) : Statement (.pdUnsupportedRx p) := fun _ _ h => by simp [decodeTableWord] at h
theorem pdUnchunkedExtRx (p : PortId) : Statement (.pdUnchunkedExtRx p) := fun _ _ h => by simp [decodeTableWord] at h
theorem pdSop2Rx (p : PortId) : Statement (.pdSop2Rx p) := fun _ _ h => by simp [decodeTableWord] at h
theorem pdIgnoredRx (p : PortId) : Statement (.pdIgnoredRx p) := fun _ _ h => by simp [decodeTableWord] at h
theorem pdSvdmRx (p : PortId) (header : Word) : Statement (.pdSvdmRx p header) := fun _ _ h => by simp [decodeTableWord] at h
theorem pdGoodcrcRx (p : PortId) : Statement (.pdGoodcrcRx p) := fun _ _ h => by simp [decodeTableWord] at h
theorem pdSenderResponseTimeout (p : PortId) : Statement (.pdSenderResponseTimeout p) := fun _ _ h => by simp [decodeTableWord] at h
theorem pdCableDiscoverRetry (p : PortId) : Statement (.pdCableDiscoverRetry p) := fun _ _ h => by simp [decodeTableWord] at h
theorem pdSendSourceCapRepeat (p : PortId) : Statement (.pdSendSourceCapRepeat p) := fun _ _ h => by simp [decodeTableWord] at h
theorem pdSrcTransitionExpire (p : PortId) : Statement (.pdSrcTransitionExpire p) := fun _ _ h => by simp [decodeTableWord] at h
theorem pdTransitionSettled (p : PortId) : Statement (.pdTransitionSettled p) := fun _ _ h => by simp [decodeTableWord] at h
theorem pdTransitionWindowExpire (p : PortId) : Statement (.pdTransitionWindowExpire p) := fun _ _ h => by simp [decodeTableWord] at h
theorem pdPsHardResetExpire (p : PortId) : Statement (.pdPsHardResetExpire p) := fun _ _ h => by simp [decodeTableWord] at h
theorem pdSrcRecoverExpire (p : PortId) : Statement (.pdSrcRecoverExpire p) := fun _ _ h => by simp [decodeTableWord] at h
theorem pdEprKeepaliveExpire (p : PortId) : Statement (.pdEprKeepaliveExpire p) := fun _ _ h => by simp [decodeTableWord] at h
theorem pdPuKeepaliveDue : Statement .pdPuKeepaliveDue := fun _ _ h => by simp [decodeTableWord] at h
theorem pdSinkTxExpire (p : PortId) : Statement (.pdSinkTxExpire p) := fun _ _ h => by simp [decodeTableWord] at h
theorem pdSinkRequestExpire : Statement .pdSinkRequestExpire := fun _ _ h => by simp [decodeTableWord] at h
theorem pdPsSourceTimeout (p : PortId) : Statement (.pdPsSourceTimeout p) := fun _ _ h => by simp [decodeTableWord] at h
theorem pdFrsNomsg (p : PortId) : Statement (.pdFrsNomsg p) := fun _ _ h => by simp [decodeTableWord] at h
theorem pdHrstWithheld : Statement .pdHrstWithheld := fun _ _ h => by simp [decodeTableWord] at h
theorem pdEprExitTimeout (p : PortId) : Statement (.pdEprExitTimeout p) := fun _ _ h => by simp [decodeTableWord] at h
theorem pdCmdSoftReset (path : Path) (p : PortId) (v : Word) : Statement (.pdCmdSoftReset path p v) := fun _ _ h => by simp [decodeTableWord] at h
theorem pdCmdHardReset (path : Path) (p : PortId) (v : Word) : Statement (.pdCmdHardReset path p v) := fun _ _ h => by simp [decodeTableWord] at h
theorem pdCmdPrSwap (path : Path) (p : PortId) (v : Word) : Statement (.pdCmdPrSwap path p v) := fun _ _ h => by simp [decodeTableWord] at h
theorem pdCmdVconnSwap (path : Path) (p : PortId) (v : Word) : Statement (.pdCmdVconnSwap path p v) := fun _ _ h => by simp [decodeTableWord] at h
theorem pdCmdSendCaps (path : Path) (p : PortId) (v : Word) : Statement (.pdCmdSendCaps path p v) := fun _ _ h => by simp [decodeTableWord] at h
theorem pdCmdGetSinkCap (path : Path) (p : PortId) (v : Word) : Statement (.pdCmdGetSinkCap path p v) := fun _ _ h => by simp [decodeTableWord] at h
theorem pdCmdEprExit (path : Path) (p : PortId) (v : Word) : Statement (.pdCmdEprExit path p v) := fun _ _ h => by simp [decodeTableWord] at h
theorem bmRecompute (vinAvg : Nat) : Statement (.bmRecompute vinAvg) := fun _ _ h => by simp [decodeTableWord] at h
theorem renegTimeout (p : PortId) : Statement (.renegTimeout p) := fun _ _ h => by simp [decodeTableWord] at h
theorem bmRaiseDelayExpire : Statement .bmRaiseDelayExpire := fun _ _ h => by simp [decodeTableWord] at h
theorem pmbTransactionDone (ack : PmbAck) (data : BitVec 16) : Statement (.pmbTransactionDone ack data) := fun _ _ h => by simp [decodeTableWord] at h
theorem pmbRetryDue : Statement .pmbRetryDue := fun _ _ h => by simp [decodeTableWord] at h
theorem pmbVoutRetryDue : Statement .pmbVoutRetryDue := fun _ _ h => by simp [decodeTableWord] at h
theorem pmbTonMaxExpire : Statement .pmbTonMaxExpire := fun _ _ h => by simp [decodeTableWord] at h
theorem pmbOffConfirmTimeout : Statement .pmbOffConfirmTimeout := fun _ _ h => by simp [decodeTableWord] at h
theorem pmbStretchTimeout : Statement .pmbStretchTimeout := fun _ _ h => by simp [decodeTableWord] at h
theorem pmbVerifyWrite (path : Path) (v : Word) : Statement (.pmbVerifyWrite path v) := fun _ _ h => by simp [decodeTableWord] at h
theorem pmbAlert (addr : BitVec 7) (pecOk : Bool) (ack : PmbAck) (status : BitVec 16) : Statement (.pmbAlert addr pecOk ack status) := fun _ _ h => by simp [decodeTableWord] at h
theorem pmbAlertRepeat (stillLow : Bool) : Statement (.pmbAlertRepeat stillLow) := fun _ _ h => by simp [decodeTableWord] at h
theorem pmbAlertStormExpire (addr : BitVec 7) : Statement (.pmbAlertStormExpire addr) := fun _ _ h => by simp [decodeTableWord] at h
theorem pmbBusStuck : Statement .pmbBusStuck := fun _ _ h => by simp [decodeTableWord] at h
theorem pmbBusRecoveryDue : Statement .pmbBusRecoveryDue := fun _ _ h => by simp [decodeTableWord] at h
theorem pmbStuckClear : Statement .pmbStuckClear := fun _ _ h => by simp [decodeTableWord] at h
theorem pmbSwGo (path : Path) (v : Word) : Statement (.pmbSwGo path v) := fun _ _ h => by simp [decodeTableWord] at h
theorem usbGetDescriptor (dtype index : Byte) (len : Nat) : Statement (.usbGetDescriptor dtype index len) := fun _ _ h => by simp [decodeTableWord] at h
theorem usbSetAddress (addr : BitVec 7) : Statement (.usbSetAddress addr) := fun _ _ h => by simp [decodeTableWord] at h
theorem usbSetConfiguration (cfg : Byte) : Statement (.usbSetConfiguration cfg) := fun _ _ h => by simp [decodeTableWord] at h
theorem usbSetInterface (alt : Byte) : Statement (.usbSetInterface alt) := fun _ _ h => by simp [decodeTableWord] at h
theorem usbGetStatus : Statement .usbGetStatus := fun _ _ h => by simp [decodeTableWord] at h
theorem usbDeviceFeature (set : Bool) : Statement (.usbDeviceFeature set) := fun _ _ h => by simp [decodeTableWord] at h
theorem hubGetHubStatus : Statement .hubGetHubStatus := fun _ _ h => by simp [decodeTableWord] at h
theorem hubGetPortStatus (port : Nat) : Statement (.hubGetPortStatus port) := fun _ _ h => by simp [decodeTableWord] at h
theorem hubHubFeature (set : Bool) (feature : Nat) : Statement (.hubHubFeature set feature) := fun _ _ h => by simp [decodeTableWord] at h
theorem hubClassStall (request : Byte) : Statement (.hubClassStall request) := fun _ _ h => by simp [decodeTableWord] at h
theorem portResetRequest (port : Nat) : Statement (.portResetRequest port) := fun _ _ h => by simp [decodeTableWord] at h
theorem portResetDone (port : Nat) (speed : UsbSpeed) : Statement (.portResetDone port speed) := fun _ _ h => by simp [decodeTableWord] at h
theorem portSuspendRequest (port : Nat) : Statement (.portSuspendRequest port) := fun _ _ h => by simp [decodeTableWord] at h
theorem portResumeRequest (port : Nat) : Statement (.portResumeRequest port) := fun _ _ h => by simp [decodeTableWord] at h
theorem portResumeDone (port : Nat) : Statement (.portResumeDone port) := fun _ _ h => by simp [decodeTableWord] at h
theorem portPowerFeature (set : Bool) (port : Nat) : Statement (.portPowerFeature set port) := fun _ _ h => by simp [decodeTableWord] at h
theorem portEnableClear (port : Nat) : Statement (.portEnableClear port) := fun _ _ h => by simp [decodeTableWord] at h
theorem portTestRequest (port : Nat) (selector : Byte) : Statement (.portTestRequest port selector) := fun _ _ h => by simp [decodeTableWord] at h
theorem portFeatureStall (port feature : Nat) : Statement (.portFeatureStall port feature) := fun _ _ h => by simp [decodeTableWord] at h
theorem portChangeClear (port feature : Nat) : Statement (.portChangeClear port feature) := fun _ _ h => by simp [decodeTableWord] at h
theorem portL1Request (port : Nat) (besl : BitVec 4) (rwe : Bool) (dev : BitVec 7) (ans : LpmAnswer) : Statement (.portL1Request port besl rwe dev ans) := fun _ _ h => by simp [decodeTableWord] at h
theorem portL1Clear (port : Nat) : Statement (.portL1Clear port) := fun _ _ h => by simp [decodeTableWord] at h
theorem portConnectDetect (p : DPort) (speed : UsbSpeed) : Statement (.portConnectDetect p speed) := fun _ _ h => by simp [decodeTableWord] at h
theorem portDisconnectDetect (p : DPort) : Statement (.portDisconnectDetect p) := fun _ _ h => by simp [decodeTableWord] at h
theorem portBabble (p : DPort) : Statement (.portBabble p) := fun _ _ h => by simp [decodeTableWord] at h
theorem upstreamBusReset (hs : Bool) : Statement (.upstreamBusReset hs) := fun _ _ h => by simp [decodeTableWord] at h
theorem upstreamDetach : Statement .upstreamDetach := fun _ _ h => by simp [decodeTableWord] at h
theorem globalSuspend : Statement .globalSuspend := fun _ _ h => by simp [decodeTableWord] at h
theorem hostResume : Statement .hostResume := fun _ _ h => by simp [decodeTableWord] at h
theorem remoteWakeK (p : DPort) : Statement (.remoteWakeK p) := fun _ _ h => by simp [decodeTableWord] at h
theorem remoteWakeEvent : Statement .remoteWakeEvent := fun _ _ h => by simp [decodeTableWord] at h
theorem lpmToken (linkState : BitVec 4) (rwe : Bool) : Statement (.lpmToken linkState rwe) := fun _ _ h => by simp [decodeTableWord] at h
theorem l1Resume : Statement .l1Resume := fun _ _ h => by simp [decodeTableWord] at h
theorem l1RemoteWake : Statement .l1RemoteWake := fun _ _ h => by simp [decodeTableWord] at h
theorem portL1DeviceExit (p : DPort) : Statement (.portL1DeviceExit p) := fun _ _ h => by simp [decodeTableWord] at h
theorem sofReceived (frame : BitVec 11) : Statement (.sofReceived frame) := fun _ _ h => by simp [decodeTableWord] at h
theorem sofMissed : Statement .sofMissed := fun _ _ h => by simp [decodeTableWord] at h
theorem ttStartSplit (p : DPort) (ty : NpType) (dirIn : Bool) (addr : BitVec 7) (ep : BitVec 4) (data : List Byte) (crcOk : Bool) : Statement (.ttStartSplit p ty dirIn addr ep data crcOk) := fun _ _ h => by simp [decodeTableWord] at h
theorem ttCompleteSplit (p : DPort) (ty : NpType) (dirIn : Bool) (addr : BitVec 7) (ep : BitVec 4) : Statement (.ttCompleteSplit p ty dirIn addr ep) := fun _ _ h => by simp [decodeTableWord] at h
theorem ttPeriodicStartSplit (p : DPort) (iso dirIn : Bool) (addr : BitVec 7) (ep : BitVec 4) (data : List Byte) : Statement (.ttPeriodicStartSplit p iso dirIn addr ep data) := fun _ _ h => by simp [decodeTableWord] at h
theorem ttPeriodicCompleteSplit (p : DPort) (dirIn : Bool) (addr : BitVec 7) (ep : BitVec 4) (last : Bool) : Statement (.ttPeriodicCompleteSplit p dirIn addr ep last) := fun _ _ h => by simp [decodeTableWord] at h
theorem ttFrameStart (p : DPort) : Statement (.ttFrameStart p) := fun _ _ h => by simp [decodeTableWord] at h
theorem ttTransactionEnd (p : DPort) (r : XactResult) (data1 : Bool) (data : List Byte) : Statement (.ttTransactionEnd p r data1 data) := fun _ _ h => by simp [decodeTableWord] at h
theorem ttRecordExpire (p : DPort) (k : Fin 16) : Statement (.ttRecordExpire p k) := fun _ _ h => by simp [decodeTableWord] at h
theorem ttStale (p : DPort) (k : Fin 4) : Statement (.ttStale p k) := fun _ _ h => by simp [decodeTableWord] at h
theorem ttClearTtBuffer (ttPort : Nat) (wValue : BitVec 16) : Statement (.ttClearTtBuffer ttPort wValue) := fun _ _ h => by simp [decodeTableWord] at h
theorem ttResetTt (ttPort : Nat) : Statement (.ttResetTt ttPort) := fun _ _ h => by simp [decodeTableWord] at h
theorem ttStopTt (ttPort : Nat) : Statement (.ttStopTt ttPort) := fun _ _ h => by simp [decodeTableWord] at h
theorem ttGetTtState (ttPort len : Nat) : Statement (.ttGetTtState ttPort len) := fun _ _ h => by simp [decodeTableWord] at h
theorem hpTtCmdReset (path : Path) (p : DPort) (v : Word) : Statement (.hpTtCmdReset path p v) := fun _ _ h => by simp [decodeTableWord] at h
theorem hpTtCmdClearNp (path : Path) (p : DPort) (v : Word) : Statement (.hpTtCmdClearNp path p v) := fun _ _ h => by simp [decodeTableWord] at h
theorem efnVendorRead (wValue wIndex : BitVec 16) (len : Nat) : Statement (.efnVendorRead wValue wIndex len) := fun _ _ h => by simp [decodeTableWord] at h
theorem efnVendorWrite (wValue wIndex : BitVec 16) (len : Nat) (data : List Byte) : Statement (.efnVendorWrite wValue wIndex len data) := fun _ _ h => by simp [decodeTableWord] at h
theorem efnVendorEvqRead (wValue wIndex : BitVec 16) (len : Nat) : Statement (.efnVendorEvqRead wValue wIndex len) := fun _ _ h => by simp [decodeTableWord] at h
theorem efnVendorKeyedWrite (wValue wIndex : BitVec 16) (len : Nat) (data : List Byte) : Statement (.efnVendorKeyedWrite wValue wIndex len data) := fun _ _ h => by simp [decodeTableWord] at h
theorem efnAccessHoldTimeout : Statement .efnAccessHoldTimeout := fun _ _ h => by simp [decodeTableWord] at h
theorem efnStandardRequest (bmRequestType bRequest : Byte) (wValue wIndex : BitVec 16) (len : Nat) : Statement (.efnStandardRequest bmRequestType bRequest wValue wIndex len) := fun _ _ h => by simp [decodeTableWord] at h
theorem efnSetHalt (e : Fin 7) : Statement (.efnSetHalt e) := fun _ _ h => by simp [decodeTableWord] at h
theorem efnClearHalt (e : Fin 7) : Statement (.efnClearHalt e) := fun _ _ h => by simp [decodeTableWord] at h
theorem efnBulkOut (e : Fin 7) (data : List Byte) : Statement (.efnBulkOut e data) := fun _ _ h => by simp [decodeTableWord] at h
theorem efnPing (e : Fin 7) : Statement (.efnPing e) := fun _ _ h => by simp [decodeTableWord] at h
theorem efnBulkIn (e : Fin 7) : Statement (.efnBulkIn e) := fun _ _ h => by simp [decodeTableWord] at h
theorem efnBulkInAck (e : Fin 7) : Statement (.efnBulkInAck e) := fun _ _ h => by simp [decodeTableWord] at h
theorem efnPortReset (lost : Bool) : Statement (.efnPortReset lost) := fun _ _ h => by simp [decodeTableWord] at h
theorem batchReceived : Statement .batchReceived := fun _ _ h => by simp [decodeTableWord] at h
theorem batchAbort : Statement .batchAbort := fun _ _ h => by simp [decodeTableWord] at h
theorem batchRead : Statement .batchRead := fun _ _ h => by simp [decodeTableWord] at h
theorem batchWrite : Statement .batchWrite := fun _ _ h => by simp [decodeTableWord] at h
theorem batchWriteN : Statement .batchWriteN := fun _ _ h => by simp [decodeTableWord] at h
theorem batchRmw : Statement .batchRmw := fun _ _ h => by simp [decodeTableWord] at h
theorem batchPoll (timedOut : Bool) : Statement (.batchPoll timedOut) := fun _ _ h => by simp [decodeTableWord] at h
theorem batchKeyedWrite : Statement .batchKeyedWrite := fun _ _ h => by simp [decodeTableWord] at h
theorem batchDelay : Statement .batchDelay := fun _ _ h => by simp [decodeTableWord] at h
theorem batchEvqPop (timedOut : Bool) : Statement (.batchEvqPop timedOut) := fun _ _ h => by simp [decodeTableWord] at h
theorem batchDone : Statement .batchDone := fun _ _ h => by simp [decodeTableWord] at h
theorem evqPushMessage : Statement .evqPushMessage := fun _ _ h => by simp [decodeTableWord] at h
theorem efnCarveApply (path : Path) (v : Word) : Statement (.efnCarveApply path v) := fun _ _ h => by simp [decodeTableWord] at h
theorem storeWindowRead (path : Path) (addr : BitVec 19) : Statement (.storeWindowRead path addr) := fun _ _ h => by simp [decodeTableWord] at h
theorem storeWindowWrite (path : Path) (addr : BitVec 19) (v : Word) : Statement (.storeWindowWrite path addr v) := fun _ _ h => by simp [decodeTableWord] at h
theorem scrubSlot : Statement .scrubSlot := fun _ _ h => by simp [decodeTableWord] at h
theorem stoCmdClrLog (path : Path) (v : Word) : Statement (.stoCmdClrLog path v) := fun _ _ h => by simp [decodeTableWord] at h
theorem stoCmdClrCnt (path : Path) (v : Word) : Statement (.stoCmdClrCnt path v) := fun _ _ h => by simp [decodeTableWord] at h
theorem stoEcclogClear (path : Path) (k : Fin 16) (v : Word) : Statement (.stoEcclogClear path k v) := fun _ _ h => by simp [decodeTableWord] at h
theorem stoFlipArm (path : Path) (v : Word) : Statement (.stoFlipArm path v) := fun _ _ h => by simp [decodeTableWord] at h
theorem stoRetireWrite (path : Path) (k : Fin 16) (v : Word) : Statement (.stoRetireWrite path k v) := fun _ _ h => by simp [decodeTableWord] at h
theorem holdoverExpire : Statement .holdoverExpire := fun _ _ h => by simp [decodeTableWord] at h
theorem tpulseFire : Statement .tpulseFire := fun _ _ h => by simp [decodeTableWord] at h
theorem tpulseEnd : Statement .tpulseEnd := fun _ _ h => by simp [decodeTableWord] at h
theorem tpulseInputEdge (rising : Bool) : Statement (.tpulseInputEdge rising) := fun _ _ h => by simp [decodeTableWord] at h
theorem timSwCap (path : Path) (v : Word) : Statement (.timSwCap path v) := fun _ _ h => by simp [decodeTableWord] at h
theorem timCapStatRead (path : Path) (u : Fin 3) : Statement (.timCapStatRead path u) := fun _ _ h => by simp [decodeTableWord] at h
theorem timTb0NsRead (path : Path) : Statement (.timTb0NsRead path) := fun _ _ h => by simp [decodeTableWord] at h
theorem timTb3LoRead (path : Path) : Statement (.timTb3LoRead path) := fun _ _ h => by simp [decodeTableWord] at h
theorem tb3Alarm : Statement .tb3Alarm := fun _ _ h => by simp [decodeTableWord] at h
theorem tbReadvance : Statement .tbReadvance := fun _ _ h => by simp [decodeTableWord] at h
theorem cadDiscoveryStart (p : DPort) : Statement (.cadDiscoveryStart p) := fun _ _ h => by simp [decodeTableWord] at h
theorem cadVdmResponse (p : DPort) (ans : VdmAnswer) : Statement (.cadVdmResponse p ans) := fun _ _ h => by simp [decodeTableWord] at h
theorem cadVdmTimeout (p : DPort) : Statement (.cadVdmTimeout p) := fun _ _ h => by simp [decodeTableWord] at h
theorem cadVdmBusyRetry (p : DPort) : Statement (.cadVdmBusyRetry p) := fun _ _ h => by simp [decodeTableWord] at h
theorem cadDiscoverIdentityRx : Statement .cadDiscoverIdentityRx := fun _ _ h => by simp [decodeTableWord] at h
theorem cadDiscoverSvidsRx : Statement .cadDiscoverSvidsRx := fun _ _ h => by simp [decodeTableWord] at h
theorem cadDiscoverModesRx : Statement .cadDiscoverModesRx := fun _ _ h => by simp [decodeTableWord] at h
theorem cadEnterModeRx (vdo : Word) : Statement (.cadEnterModeRx vdo) := fun _ _ h => by simp [decodeTableWord] at h
theorem cadExitModeRx (p : PortId) : Statement (.cadExitModeRx p) := fun _ _ h => by simp [decodeTableWord] at h
theorem cadAttentionRx (p : DPort) (vdo : Word) : Statement (.cadAttentionRx p vdo) := fun _ _ h => by simp [decodeTableWord] at h
theorem cadAttentionRepeat : Statement .cadAttentionRepeat := fun _ _ h => by simp [decodeTableWord] at h
theorem cadExitModeTimeout (p : DPort) : Statement (.cadExitModeTimeout p) := fun _ _ h => by simp [decodeTableWord] at h
theorem clCmdEnter (path : Path) (p : PortId) (v : Word) : Statement (.clCmdEnter path p v) := fun _ _ h => by simp [decodeTableWord] at h
theorem clCmdRetrain (path : Path) (p : PortId) (v : Word) : Statement (.clCmdRetrain path p v) := fun _ _ h => by simp [decodeTableWord] at h
theorem cadReceiverLock (p : PortId) : Statement (.cadReceiverLock p) := fun _ _ h => by simp [decodeTableWord] at h
theorem cadTrainAttemptFail (p : PortId) : Statement (.cadTrainAttemptFail p) := fun _ _ h => by simp [decodeTableWord] at h
theorem cadUpFrameRx : Statement .cadUpFrameRx := fun _ _ h => by simp [decodeTableWord] at h
theorem cadLossOfLock (p : PortId) : Statement (.cadLossOfLock p) := fun _ _ h => by simp [decodeTableWord] at h
theorem cadRetrainSetRx (ver : Fin 2) : Statement (.cadRetrainSetRx ver) := fun _ _ h => by simp [decodeTableWord] at h
theorem cadRetrainTimeout (p : PortId) : Statement (.cadRetrainTimeout p) := fun _ _ h => by simp [decodeTableWord] at h
theorem cadFrameRx (p : PortId) (codeOk : Bool) (bytes : List Byte) : Statement (.cadFrameRx p codeOk bytes) := fun _ _ h => by simp [decodeTableWord] at h
theorem cadSyncRx (p : PortId) (bytes : List Byte) : Statement (.cadSyncRx p bytes) := fun _ _ h => by simp [decodeTableWord] at h
theorem cadDelayReqRx (p : PortId) (bytes : List Byte) : Statement (.cadDelayReqRx p bytes) := fun _ _ h => by simp [decodeTableWord] at h
theorem cadDelayRespRx (p : PortId) (bytes : List Byte) : Statement (.cadDelayRespRx p bytes) := fun _ _ h => by simp [decodeTableWord] at h
theorem cadBellRx (p : PortId) (bytes : List Byte) : Statement (.cadBellRx p bytes) := fun _ _ h => by simp [decodeTableWord] at h
theorem cadEchoRx (p : PortId) (bytes : List Byte) : Statement (.cadEchoRx p bytes) := fun _ _ h => by simp [decodeTableWord] at h
theorem cadFrameTxDone (p : PortId) : Statement (.cadFrameTxDone p) := fun _ _ h => by simp [decodeTableWord] at h
theorem cadSyncDue : Statement .cadSyncDue := fun _ _ h => by simp [decodeTableWord] at h
theorem cadDelayReqDue : Statement .cadDelayReqDue := fun _ _ h => by simp [decodeTableWord] at h
theorem cadDelayRespMiss : Statement .cadDelayRespMiss := fun _ _ h => by simp [decodeTableWord] at h
theorem cadSyncAbsent : Statement .cadSyncAbsent := fun _ _ h => by simp [decodeTableWord] at h
theorem cadTailWrite (path : Path) (q : Fin 18) (v : Word) : Statement (.cadTailWrite path q v) := fun _ _ h => by simp [decodeTableWord] at h
theorem cadDescPrepared (q : Fin 18) : Statement (.cadDescPrepared q) := fun _ _ h => by simp [decodeTableWord] at h
theorem cadLaunchTime (q : Fin 18) : Statement (.cadLaunchTime q) := fun _ _ h => by simp [decodeTableWord] at h
theorem cadDescComplete (q : Fin 18) : Statement (.cadDescComplete q) := fun _ _ h => by simp [decodeTableWord] at h
theorem cadQueueResume (path : Path) (q : Fin 18) (v : Word) : Statement (.cadQueueResume path q v) := fun _ _ h => by simp [decodeTableWord] at h
theorem cadQueueFlush (path : Path) (q : Fin 18) (v : Word) : Statement (.cadQueueFlush path q v) := fun _ _ h => by simp [decodeTableWord] at h
theorem cadRxRdWrite (path : Path) (p : PortId) (v : Word) : Statement (.cadRxRdWrite path p v) := fun _ _ h => by simp [decodeTableWord] at h
theorem cadEp2Request : Statement .cadEp2Request := fun _ _ h => by simp [decodeTableWord] at h
theorem cadEpRecordAck (ep3 : Bool) : Statement (.cadEpRecordAck ep3) := fun _ _ h => by simp [decodeTableWord] at h
theorem idleEnter : Statement .idleEnter := fun _ _ h => by simp [decodeTableWord] at h
theorem autoSleepDue : Statement .autoSleepDue := fun _ _ h => by simp [decodeTableWord] at h
theorem autoDeepDue : Statement .autoDeepDue := fun _ _ h => by simp [decodeTableWord] at h
theorem pwrCmdDeep (path : Path) (v : Word) : Statement (.pwrCmdDeep path v) := fun _ _ h => by simp [decodeTableWord] at h
theorem pwrCmdOff (path : Path) (v : Word) : Statement (.pwrCmdOff path v) := fun _ _ h => by simp [decodeTableWord] at h
theorem pwrCmdBlocked : Statement .pwrCmdBlocked := fun _ _ h => by simp [decodeTableWord] at h
theorem powerEntryDone : Statement .powerEntryDone := fun _ _ h => by simp [decodeTableWord] at h
theorem wakeSource (src : WakeSrc) (port : Option PortId) : Statement (.wakeSource src port) := fun _ _ h => by simp [decodeTableWord] at h
theorem wakeDone (badBanks : BitVec 4) : Statement (.wakeDone badBanks) := fun _ _ h => by simp [decodeTableWord] at h
theorem wakeAttemptFail (cause : WakeFailCause) : Statement (.wakeAttemptFail cause) := fun _ _ h => by simp [decodeTableWord] at h
theorem wakeRetryDue : Statement .wakeRetryDue := fun _ _ h => by simp [decodeTableWord] at h
theorem sentinelMessage (p : PortId) (msg : List Byte) : Statement (.sentinelMessage p msg) := fun _ _ h => by simp [decodeTableWord] at h
theorem sentinelKeepalive (p : PortId) : Statement (.sentinelKeepalive p) := fun _ _ h => by simp [decodeTableWord] at h
theorem i2cAddressMatch (addr : BitVec 7) : Statement (.i2cAddressMatch addr) := fun _ _ h => by simp [decodeTableWord] at h
theorem dphyPowerDown (b : Bool) : Statement (.dphyPowerDown b) := fun _ _ h => by simp [decodeTableWord] at h
theorem dphyPowerUp (b : Bool) : Statement (.dphyPowerUp b) := fun _ _ h => by simp [decodeTableWord] at h
theorem retentionReloadDone (bank : Fin 4) : Statement (.retentionReloadDone bank) := fun _ _ h => by simp [decodeTableWord] at h
theorem wakeNOffExit : Statement .wakeNOffExit := fun _ _ h => by simp [decodeTableWord] at h
theorem tempCrit (celsius : Int) : Statement (.tempCrit celsius) := fun _ _ h => by simp [decodeTableWord] at h
theorem tempHigh (celsius : Int) : Statement (.tempHigh celsius) := fun _ _ h => by simp [decodeTableWord] at h
theorem faultNPulseEnd : Statement .faultNPulseEnd := fun _ _ h => by simp [decodeTableWord] at h
theorem resetLoopWindowExpire : Statement .resetLoopWindowExpire := fun _ _ h => by simp [decodeTableWord] at h
theorem recoveryAutoEnd : Statement .recoveryAutoEnd := fun _ _ h => by simp [decodeTableWord] at h
theorem fltCmdEndRecovery (path : Path) (v : Word) : Statement (.fltCmdEndRecovery path v) := fun _ _ h => by simp [decodeTableWord] at h
theorem recoveryReleaseDue : Statement .recoveryReleaseDue := fun _ _ h => by simp [decodeTableWord] at h
theorem fltCapClear (path : Path) (v : Word) : Statement (.fltCapClear path v) := fun _ _ h => by simp [decodeTableWord] at h
theorem evqPop (path : Path) : Statement (.evqPop path) := fun _ _ h => by simp [decodeTableWord] at h
theorem evqPopBlockTimeout (path : Path) : Statement (.evqPopBlockTimeout path) := fun _ _ h => by simp [decodeTableWord] at h
theorem evqCmdFlush (path : Path) (v : Word) : Statement (.evqCmdFlush path v) := fun _ _ h => by simp [decodeTableWord] at h
theorem i2cWriteTransaction (addr : BitVec 7) (bytes : List Byte) (stopped : Bool) : Statement (.i2cWriteTransaction addr bytes stopped) := fun _ _ h => by simp [decodeTableWord] at h
theorem i2cReadTransaction (addr : BitVec 7) (bytes : List Byte) (nread : Nat) : Statement (.i2cReadTransaction addr bytes nread) := fun _ _ h => by simp [decodeTableWord] at h
theorem i2cStretchTimeout : Statement .i2cStretchTimeout := fun _ _ h => by simp [decodeTableWord] at h
theorem i2cAbandon : Statement .i2cAbandon := fun _ _ h => by simp [decodeTableWord] at h
theorem registerWrite (path : Path) (addr : BitVec 24) (v : Word) : Statement (.registerWrite path addr v) := fun _ _ h => by simp [decodeTableWord] at h
theorem w1cWrite (path : Path) (addr : BitVec 24) (v : Word) : Statement (.w1cWrite path addr v) := fun _ _ h => by simp [decodeTableWord] at h
theorem glbCommit (path : Path) (v : Word) : Statement (.glbCommit path v) := fun _ _ h => by simp [decodeTableWord] at h
theorem glbDiscard (path : Path) (v : Word) : Statement (.glbDiscard path v) := fun _ _ h => by simp [decodeTableWord] at h
theorem glbCommitAtArm (path : Path) (v : Word) : Statement (.glbCommitAtArm path v) := fun _ _ h => by simp [decodeTableWord] at h
theorem glbCommitAtCancel (path : Path) (v : Word) : Statement (.glbCommitAtCancel path v) := fun _ _ h => by simp [decodeTableWord] at h
theorem commitAtFired : Statement .commitAtFired := fun _ _ h => by simp [decodeTableWord] at h
theorem glbLockringWrite (path : Path) (v : Word) : Statement (.glbLockringWrite path v) := fun _ _ h => by simp [decodeTableWord] at h
theorem lockringExpire (path : Path) : Statement (.lockringExpire path) := fun _ _ h => by simp [decodeTableWord] at h
theorem puClXsStatRead (path : Path) : Statement (.puClXsStatRead path) := fun _ _ h => by simp [decodeTableWord] at h
theorem internalLdosReady : Statement .internalLdosReady := fun _ _ h => by simp [decodeTableWord] at h
theorem vbusThresholdCross (p : PortId) (l : VbusLevel) : Statement (.vbusThresholdCross p l) := fun _ _ h => by simp [decodeTableWord] at h
theorem vin36vCrossing (rising : Bool) (vin : Nat) : Statement (.vin36vCrossing rising vin) := fun _ _ h => by simp [decodeTableWord] at h
theorem meterSample (v i : List Int) : Statement (.meterSample v i) := fun _ _ h => by simp [decodeTableWord] at h
theorem faultConditionEnd (c : FaultCond) : Statement (.faultConditionEnd c) := fun _ _ h => by simp [decodeTableWord] at h
theorem pdNoGoodcrc (p : PortId) : Statement (.pdNoGoodcrc p) := fun _ _ h => by simp [decodeTableWord] at h
theorem pdCableIdentityRx (p : DPort) (vdos : List Word) : Statement (.pdCableIdentityRx p vdos) := fun _ _ h => by simp [decodeTableWord] at h
theorem pdResponseRx (p : PortId) (r : PdResponse) : Statement (.pdResponseRx p r) := fun _ _ h => by simp [decodeTableWord] at h

end Sys2Proof.Laws.Unspelled
end

