-- ==== Sys2Proof/Laws/Sound0.lean ====
section
/-! SUPPORT. What every operation of the model keeps: the canonical form of the sparse data, and the queue of commands. Here
the predicate and the primitive updates; the later Sound files carry it through every definition of the machine. -/

namespace Sys2Proof.Machine

/-- The queue is `q` and the state's sparse data are canonical. -/
def Sound (q : List Instr) (s : State) : Prop := s.pending = q ∧ s.canonical = true

theorem canonical_iff {s : State} : s.canonical = true ↔
    s.regs.wf regReset = true ∧ s.sto.mem.wf cellDefault = true ∧ s.nvm.flash.wf flashReset = true ∧
      s.nvm.otp.wf otpReset = true := by
  simp [State.canonical, and_assoc]

/-- A state that differs in other fields only. -/
theorem Sound.congr {q : List Instr} {s t : State} (hp : t.pending = s.pending) (hr : t.regs = s.regs)
    (hm : t.sto.mem = s.sto.mem) (hf : t.nvm.flash = s.nvm.flash) (ho : t.nvm.otp = s.nvm.otp) (h : Sound q s) :
    Sound q t := by
  obtain ⟨h1, h2⟩ := h
  refine ⟨hp.trans h1, ?_⟩
  simpa only [State.canonical, hr, hm, hf, ho] using h2

theorem Sound.of {q : List Instr} {s t : State} (h : Sound q s) (hp : t.pending = s.pending) (hr : t.regs = s.regs)
    (hm : t.sto.mem = s.sto.mem) (hf : t.nvm.flash = s.nvm.flash) (ho : t.nvm.otp = s.nvm.otp) : Sound q t :=
  Sound.congr hp hr hm hf ho h

theorem Sound.ite {q : List Instr} {c : Prop} [Decidable c] {s t : State} (hs : Sound q s) (ht : Sound q t) :
    Sound q (if c then s else t) := by split <;> assumption

/-- The state of a pair. -/
theorem Sound.of_pair {q : List Instr} {α : Type} {r : α × State} {a : α} {s : State} (e : r = (a, s)) (h : Sound q r.2) :
    Sound q s := by subst e; exact h

/-- Registers replaced by canonical ones. -/
theorem Sound.withRegs {q : List Instr} {s t : State} (hr : t.regs.wf regReset = true) (hp : t.pending = s.pending)
    (hm : t.sto.mem = s.sto.mem) (hf : t.nvm.flash = s.nvm.flash) (ho : t.nvm.otp = s.nvm.otp) (h : Sound q s) :
    Sound q t := by
  obtain ⟨h1, h2⟩ := h
  refine ⟨hp.trans h1, ?_⟩
  rw [canonical_iff] at h2 ⊢
  exact ⟨hr, hm ▸ h2.2.1, hf ▸ h2.2.2.1, ho ▸ h2.2.2.2⟩

/-- Store words replaced by canonical ones. -/
theorem Sound.withMem {q : List Instr} {s t : State} (hm : t.sto.mem.wf cellDefault = true) (hp : t.pending = s.pending)
    (hr : t.regs = s.regs) (hf : t.nvm.flash = s.nvm.flash) (ho : t.nvm.otp = s.nvm.otp) (h : Sound q s) :
    Sound q t := by
  obtain ⟨h1, h2⟩ := h
  refine ⟨hp.trans h1, ?_⟩
  rw [canonical_iff] at h2 ⊢
  exact ⟨hr ▸ h2.1, hm, hf ▸ h2.2.2.1, ho ▸ h2.2.2.2⟩

/-- Flash and OTP replaced by canonical ones. -/
theorem Sound.withNvm {q : List Instr} {s t : State} (hf : t.nvm.flash.wf flashReset = true)
    (ho : t.nvm.otp.wf otpReset = true) (hp : t.pending = s.pending) (hr : t.regs = s.regs)
    (hm : t.sto.mem = s.sto.mem) (h : Sound q s) : Sound q t := by
  obtain ⟨h1, h2⟩ := h
  refine ⟨hp.trans h1, ?_⟩
  rw [canonical_iff] at h2 ⊢
  exact ⟨hr ▸ h2.1, hm ▸ h2.2.1, hf, ho⟩

theorem Sound.regs {q : List Instr} {s : State} (h : Sound q s) : s.regs.wf regReset = true := (canonical_iff.1 h.2).1
theorem Sound.mem {q : List Instr} {s : State} (h : Sound q s) : s.sto.mem.wf cellDefault = true :=
  (canonical_iff.1 h.2).2.1
theorem Sound.flash {q : List Instr} {s : State} (h : Sound q s) : s.nvm.flash.wf flashReset = true :=
  (canonical_iff.1 h.2).2.2.1
theorem Sound.otp {q : List Instr} {s : State} (h : Sound q s) : s.nvm.otp.wf otpReset = true :=
  (canonical_iff.1 h.2).2.2.2

theorem State.setReg_sound {q : List Instr} {s : State} {a : Nat} {w : Word} (h : Sound q s) : Sound q (s.setReg a w) :=
  Sound.withRegs (s := s) (SMap.wf_set h.regs) rfl rfl rfl rfl h

theorem State.modSto_sound {q : List Instr} {s : State} {f : Sto → Sto} (hf : (f s.sto).mem = s.sto.mem) (h : Sound q s) :
    Sound q (s.modSto f) := Sound.congr (s := s) rfl rfl hf rfl rfl h

theorem State.modNvm_sound {q : List Instr} {s : State} {f : Nvm → Nvm} (hf : (f s.nvm).flash = s.nvm.flash)
    (ho : (f s.nvm).otp = s.nvm.otp) (h : Sound q s) : Sound q (s.modNvm f) := Sound.congr (s := s) rfl rfl rfl hf ho h

theorem forEach_sound {q : List Instr} {α : Type} {l : List α} {f : α → State → State} {s : State}
    (hf : ∀ (x : α) (t : State), Sound q t → Sound q (f x t)) (h : Sound q s) : Sound q (forEach l f s) := by
  unfold forEach
  induction l generalizing s with
  | nil => exact h
  | cons x l ih => exact ih (hf x s h)

theorem State.modPath_sound {q : List Instr} {s : State} {p : Path} {f : PathState → PathState} (h : Sound q s) :
    Sound q (s.modPath p f) := by
  cases p <;> exact Sound.congr (s := s) rfl rfl rfl rfl rfl h

theorem State.wr_sound {q : List Instr} {s : State} {f : Fld} {v : Nat} (h : Sound q s) : Sound q (State.wr s f v) :=
  State.setReg_sound h

theorem State.addSat_sound {q : List Instr} {s : State} {f : Fld} {n : Nat} (h : Sound q s) : Sound q (State.addSat s f n) :=
  State.setReg_sound h

theorem State.bump_sound {q : List Instr} {s : State} {f : Fld} (h : Sound q s) : Sound q (State.bump s f) :=
  State.setReg_sound h

theorem State.bumpWrap_sound {q : List Instr} {s : State} {f : Fld} (h : Sound q s) : Sound q (State.bumpWrap s f) :=
  State.setReg_sound h

theorem State.setPort_sound {q : List Instr} {s : State} {p : PortId} {x : Port} (h : Sound q s) :
    Sound q (State.setPort s p x) := Sound.congr (s := s) rfl rfl rfl rfl rfl h

theorem State.modPp_sound {q : List Instr} {s : State} {p : PortId} {f : Pp → Pp} (h : Sound q s) :
    Sound q (State.modPp s p f) := Sound.congr (s := s) rfl rfl rfl rfl rfl h

theorem State.modTc_sound {q : List Instr} {s : State} {p : PortId} {f : Tc → Tc} (h : Sound q s) :
    Sound q (State.modTc s p f) := Sound.congr (s := s) rfl rfl rfl rfl rfl h

theorem State.modPd_sound {q : List Instr} {s : State} {p : PortId} {f : Pd → Pd} (h : Sound q s) :
    Sound q (State.modPd s p f) := Sound.congr (s := s) rfl rfl rfl rfl rfl h

theorem State.modU_sound {q : List Instr} {s : State} {p : PortId} {f : UPort → UPort} (h : Sound q s) :
    Sound q (State.modU s p f) := Sound.congr (s := s) rfl rfl rfl rfl rfl h

theorem State.modTt_sound {q : List Instr} {s : State} {p : PortId} {f : Tt → Tt} (h : Sound q s) :
    Sound q (State.modTt s p f) := Sound.congr (s := s) rfl rfl rfl rfl rfl h

theorem State.modCl_sound {q : List Instr} {s : State} {p : PortId} {f : Link → Link} (h : Sound q s) :
    Sound q (State.modCl s p f) := Sound.congr (s := s) rfl rfl rfl rfl rfl h

theorem State.modFeed_sound {q : List Instr} {s : State} {f : Feed → Feed} (h : Sound q s) :
    Sound q (State.modFeed s f) := Sound.congr (s := s) rfl rfl rfl rfl rfl h

theorem State.modPwr_sound {q : List Instr} {s : State} {f : Pwr → Pwr} (h : Sound q s) :
    Sound q (State.modPwr s f) := Sound.congr (s := s) rfl rfl rfl rfl rfl h

theorem noticeIf_sound {q : List Instr} {c : Bool} {w : WakeSrc} {p : Option PortId} {s : State} (h : Sound q s) :
    Sound q (noticeIf c w p s) := State.modPwr_sound h

theorem notice_sound {q : List Instr} {w : WakeSrc} {p : Option PortId} {s : State} (h : Sound q s) :
    Sound q (notice w p s) := noticeIf_sound h

theorem State.modGlb_sound {q : List Instr} {s : State} {f : Glb → Glb} (h : Sound q s) :
    Sound q (State.modGlb s f) := Sound.congr (s := s) rfl rfl rfl rfl rfl h

theorem State.modEvq_sound {q : List Instr} {s : State} {f : Evq → Evq} (h : Sound q s) :
    Sound q (State.modEvq s f) := Sound.congr (s := s) rfl rfl rfl rfl rfl h

theorem State.modFlt_sound {q : List Instr} {s : State} {f : Flt → Flt} (h : Sound q s) :
    Sound q (State.modFlt s f) := Sound.congr (s := s) rfl rfl rfl rfl rfl h

theorem State.modPmb_sound {q : List Instr} {s : State} {f : Pmb → Pmb} (h : Sound q s) :
    Sound q (State.modPmb s f) := Sound.congr (s := s) rfl rfl rfl rfl rfl h

theorem State.modHub_sound {q : List Instr} {s : State} {f : Hub → Hub} (h : Sound q s) :
    Sound q (State.modHub s f) := Sound.congr (s := s) rfl rfl rfl rfl rfl h

theorem State.modEfn_sound {q : List Instr} {s : State} {f : Efn → Efn} (h : Sound q s) :
    Sound q (State.modEfn s f) := Sound.congr (s := s) rfl rfl rfl rfl rfl h

theorem State.modTim_sound {q : List Instr} {s : State} {f : Tim → Tim} (h : Sound q s) :
    Sound q (State.modTim s f) := Sound.congr (s := s) rfl rfl rfl rfl rfl h

theorem State.modCad_sound {q : List Instr} {s : State} {f : Cad → Cad} (h : Sound q s) :
    Sound q (State.modCad s f) := Sound.congr (s := s) rfl rfl rfl rfl rfl h

theorem State.modDyn_sound {q : List Instr} {s : State} {f : Dyn → Dyn} (h : Sound q s) :
    Sound q (State.modDyn s f) := Sound.congr (s := s) rfl rfl rfl rfl rfl h

theorem State.modI2c_sound {q : List Instr} {s : State} {f : I2cEngine → I2cEngine} (h : Sound q s) :
    Sound q (State.modI2c s f) := Sound.congr (s := s) rfl rfl rfl rfl rfl h

theorem State.modMt_sound {q : List Instr} {s : State} {f : Meters → Meters} (h : Sound q s) :
    Sound q (State.modMt s f) := Sound.congr (s := s) rfl rfl rfl rfl rfl h

theorem State.modImg_sound {q : List Instr} {s : State} {f : Img → Img} (h : Sound q s) :
    Sound q (State.modImg s f) := Sound.congr (s := s) rfl rfl rfl rfl rfl h

theorem State.modBm_sound {q : List Instr} {s : State} {f : Bm → Bm} (h : Sound q s) :
    Sound q (State.modBm s f) := Sound.congr (s := s) rfl rfl rfl rfl rfl h

theorem State.modLine_sound {q : List Instr} {s : State} {f : FeedId} {g : FeedLine → FeedLine} (h : Sound q s) :
    Sound q (State.modLine s f g) := Sound.congr (s := s) rfl rfl rfl rfl rfl h

theorem State.modAx_sound {q : List Instr} {s : State} {a : AxId} {g : AxPath → AxPath} (h : Sound q s) :
    Sound q (State.modAx s a g) := Sound.congr (s := s) rfl rfl rfl rfl rfl h

theorem State.fresh_sound {q : List Instr} {s : State} (h : Sound q s) :
    Sound q (State.fresh s).2 := Sound.congr (s := s) rfl rfl rfl rfl rfl h

end Sys2Proof.Machine
end

