-- ==== Sys2Proof/Laws/Sound1.lean ====
section
/-! SUPPORT. Soundness, carried through Flags.lean, Store.lean, PmbQueue.lean, PathCore.lean, PdCore.lean. -/

namespace Sys2Proof.Machine


theorem State.setCell_sound {q : List Instr} {s : State} {k : Nat} {c : StoCell} (h : Sound q s) :
    Sound q (State.setCell s k c) := Sound.withMem (s := s) (SMap.wf_set h.mem) rfl rfl rfl rfl h

theorem State.storeWords_sound {q : List Instr} {s : State} {a : Nat} {ws : List Word} (h : Sound q s) :
    Sound q (State.storeWords s a ws) := Sound.withMem (s := s) (SMap.wf_setSeq h.mem) rfl rfl rfl rfl h

theorem raiseFault_sound {q : List Instr} {d : FaultDue} {s : State} (h : Sound q s) :
    Sound q (raiseFault d s) := by
  unfold raiseFault
  repeat' first
      | with_reducible assumption
      | with_reducible refine State.modFlt_sound ?_

theorem raiseAt_sound {q : List Instr} {f : FSrc} {p : Option PortId} {s : State} (h : Sound q s) :
    Sound q (raiseAt f p s) := by
  unfold raiseAt
  repeat' first
      | with_reducible assumption
      | with_reducible refine noticeIf_sound ?_
      | with_reducible refine notice_sound ?_
      | with_reducible refine raiseFault_sound ?_

theorem evqEnter_sound {q : List Instr} {x0 : Nat} {s : State} (h : Sound q s) :
    Sound q (evqEnter x0 s) := by
  induction x0 generalizing s with
  | zero =>
    unfold evqEnter
    repeat' first
          | with_reducible assumption
  | succ n ih =>
    unfold evqEnter
    repeat' first
          | with_reducible assumption
          | (with_reducible refine ih ?_)
          | with_reducible refine State.modEvq_sound ?_
          | intro _
          | extract_lets
          | with_reducible refine Sound.ite ?_ ?_
          | split

theorem evqCountLost_sound {q : List Instr} {nn : Nat} {s : State} (h : Sound q s) :
    Sound q (evqCountLost nn s) := by
  unfold evqCountLost
  repeat' first
      | with_reducible assumption
      | with_reducible refine State.addSat_sound ?_

theorem evqOwe_sound {q : List Instr} {nn : Nat} {s : State} (h : Sound q s) :
    Sound q (evqOwe nn s) := by
  unfold evqOwe
  repeat' first
      | with_reducible assumption
      | with_reducible refine State.modEvq_sound ?_

theorem evqStore_sound {q : List Instr} {e : EvEntry} {w : Option Nat} {s : State} (h : Sound q s) :
    Sound q (evqStore e w s) := by
  unfold evqStore
  repeat' first
      | with_reducible assumption
      | with_reducible refine evqOwe_sound ?_
      | with_reducible refine State.modEvq_sound ?_
      | with_reducible refine State.storeWords_sound ?_
      | intro _
      | extract_lets
      | with_reducible refine Sound.ite ?_ ?_
      | split

theorem evqMakeLost_sound {q : List Instr} {m : EvMeta} {nn : Nat} {s : State} (h : Sound q s) :
    Sound q (evqMakeLost m nn s) := by
  unfold evqMakeLost
  repeat' first
      | with_reducible assumption
      | with_reducible refine State.storeWords_sound ?_
      | intro _
      | split

theorem evqStop_sound {q : List Instr} {free : Nat} {weight : Nat} {fresh : Nat} {s : State} (h : Sound q s) :
    Sound q (evqStop free weight fresh s) := by
  unfold evqStop
  repeat' first
      | with_reducible assumption
      | with_reducible refine evqCountLost_sound ?_
      | with_reducible refine evqOwe_sound ?_
      | with_reducible refine State.modEvq_sound ?_
      | with_reducible refine evqMakeLost_sound ?_
      | with_reducible refine evqStore_sound ?_
      | intro _
      | extract_lets
      | with_reducible refine Sound.ite ?_ ?_
      | split

theorem evqOverwrite_sound {q : List Instr} {x0 : Nat} {s : State} (h : Sound q s) :
    Sound q (evqOverwrite x0 s) := by
  induction x0 generalizing s with
  | zero =>
    unfold evqOverwrite
    repeat' first
          | with_reducible assumption
  | succ n ih =>
    unfold evqOverwrite
    repeat' first
          | with_reducible assumption
          | (with_reducible refine ih ?_)
          | with_reducible refine State.modEvq_sound ?_
          | with_reducible refine evqMakeLost_sound ?_
          | with_reducible refine evqCountLost_sound ?_
          | intro _
          | extract_lets
          | with_reducible refine Sound.ite ?_ ?_
          | split

theorem evqPut_sound {q : List Instr} {e : EvEntry} {w : Option Nat} {s : State} (h : Sound q s) :
    Sound q (evqPut e w s) := by
  unfold evqPut
  repeat' first
      | with_reducible assumption
      | with_reducible refine evqEnter_sound ?_
      | with_reducible refine evqOverwrite_sound ?_
      | with_reducible refine evqStore_sound ?_
      | with_reducible refine evqOwe_sound ?_
      | with_reducible refine evqCountLost_sound ?_
      | with_reducible refine evqStop_sound ?_
      | intro _
      | extract_lets
      | with_reducible refine Sound.ite ?_ ?_

theorem evqEnqueue_sound {q : List Instr} {e : EvEntry} {s : State} (h : Sound q s) :
    Sound q (evqEnqueue e s) := by
  unfold evqEnqueue
  repeat' first
      | with_reducible assumption
      | with_reducible refine evqPut_sound ?_
      | with_reducible refine State.modEvq_sound ?_
      | intro _
      | extract_lets
      | with_reducible refine Sound.ite ?_ ?_

theorem evqBuffer_sound {q : List Instr} {e : EvEntry} {s : State} (h : Sound q s) :
    Sound q (evqBuffer e s) := by
  unfold evqBuffer
  repeat' first
      | with_reducible assumption
      | with_reducible refine State.modEvq_sound ?_
      | with_reducible refine evqCountLost_sound ?_
      | intro _
      | extract_lets
      | with_reducible refine Sound.ite ?_ ?_
      | split

theorem evqDropOldest_sound {q : List Instr} {s : State} (h : Sound q s) :
    Sound q (evqDropOldest s) := by
  unfold evqDropOldest
  repeat' first
      | with_reducible assumption
      | with_reducible refine State.modEvq_sound ?_

theorem latchPop_sound {q : List Instr} {p : Path} {ws : List Word} {s : State} (h : Sound q s) :
    Sound q (latchPop p ws s) := by
  unfold latchPop
  repeat' first
      | with_reducible assumption
      | with_reducible refine State.modPath_sound ?_

theorem i2cEndPop_sound {q : List Instr} {ws : List Word} {s : State} (h : Sound q s) :
    Sound q (i2cEndPop ws s) := by
  unfold i2cEndPop
  repeat' first
      | with_reducible assumption
      | with_reducible refine State.modI2c_sound ?_
      | intro _
      | extract_lets
      | with_reducible refine Sound.ite ?_ ?_
      | split

theorem efnEndPop_sound {q : List Instr} {ws : List Word} {s : State} (h : Sound q s) :
    Sound q (efnEndPop ws s) := by
  unfold efnEndPop
  repeat' first
      | with_reducible assumption
      | intro _
      | split
      | dsimp only
      | (apply Sound.of_pair; assumption)
      | (apply Sound.of; assumption; rfl; rfl; rfl; rfl; rfl)

theorem endPop_sound {q : List Instr} {p : Path} {ws : List Word} {s : State} (h : Sound q s) :
    Sound q (endPop p ws s) := by
  unfold endPop
  repeat' first
      | with_reducible assumption
      | with_reducible refine latchPop_sound ?_
      | with_reducible refine State.modPath_sound ?_
      | with_reducible refine i2cEndPop_sound ?_
      | with_reducible refine efnEndPop_sound ?_
      | intro _
      | extract_lets
      | with_reducible refine Sound.ite ?_ ?_
      | split

theorem serveWaiting_sound {q : List Instr} {p : Path} {s : State} (h : Sound q s) :
    Sound q (serveWaiting p s) := by
  unfold serveWaiting
  repeat' first
      | with_reducible assumption
      | with_reducible refine endPop_sound ?_
      | with_reducible refine evqDropOldest_sound ?_
      | intro _
      | extract_lets
      | with_reducible refine Sound.ite ?_ ?_
      | split

theorem pushEntry_sound {q : List Instr} {e : EvEntry} {s : State} (h : Sound q s) :
    Sound q (pushEntry e s) := by
  unfold pushEntry
  repeat' first
      | with_reducible assumption
      | with_reducible refine serveWaiting_sound ?_
      | with_reducible refine evqEnqueue_sound ?_
      | with_reducible refine evqBuffer_sound ?_
      | intro _
      | split

theorem pushEvent_sound {q : List Instr} {source : Byte} {code : BitVec 16} {detail : Word} {s : State} (h : Sound q s) :
    Sound q (pushEvent source code detail s) := by
  unfold pushEvent
  repeat' first
      | with_reducible assumption
      | with_reducible refine pushEntry_sound ?_

theorem raiseEvt_sound {q : List Instr} {a : Nat} {k : Nat} {detail : Word} {s : State} (h : Sound q s) :
    Sound q (raiseEvt a k detail s) := by
  unfold raiseEvt
  repeat' first
      | with_reducible assumption
      | with_reducible refine pushEvent_sound ?_
      | with_reducible refine State.setReg_sound ?_

theorem raiseEvt0_sound {q : List Instr} {a : Nat} {k : Nat} {s : State} (h : Sound q s) :
    Sound q (raiseEvt0 a k s) := by
  unfold raiseEvt0
  repeat' first
      | with_reducible assumption
      | with_reducible refine raiseEvt_sound ?_

theorem evqFlushAon_sound {q : List Instr} {s : State} (h : Sound q s) :
    Sound q (evqFlushAon s) := by
  unfold evqFlushAon
  repeat' first
      | with_reducible assumption
      | with_reducible refine forEach_sound ?_ ?_
      | with_reducible refine pushEntry_sound ?_
      | with_reducible refine State.modEvq_sound ?_
      | intro _

theorem eccLog_sound {q : List Instr} {req : Nat} {page : Nat} {ue : Bool} {s : State} (h : Sound q s) :
    Sound q (eccLog req page ue s) := by
  unfold eccLog
  repeat' first
      | with_reducible assumption
      | with_reducible refine raiseEvt0_sound ?_
      | with_reducible refine State.wr_sound ?_
      | with_reducible refine State.setReg_sound ?_
      | with_reducible refine State.bump_sound ?_
      | with_reducible refine raiseEvt_sound ?_
      | intro _
      | extract_lets
      | with_reducible refine Sound.ite ?_ ?_
      | split

theorem eccCorrected_sound {q : List Instr} {req : Nat} {k : Nat} {w : Word} {s : State} (h : Sound q s) :
    Sound q (eccCorrected req k w s) := by
  unfold eccCorrected
  repeat' first
      | with_reducible assumption
      | with_reducible refine State.setCell_sound ?_
      | with_reducible refine State.bump_sound ?_
      | with_reducible refine raiseEvt_sound ?_
      | with_reducible refine eccLog_sound ?_

theorem eccUncorrectable_sound {q : List Instr} {req : Nat} {k : Nat} {s : State} (h : Sound q s) :
    Sound q (eccUncorrectable req k s) := by
  unfold eccUncorrectable
  repeat' first
      | with_reducible assumption
      | with_reducible refine State.bump_sound ?_
      | with_reducible refine State.setReg_sound ?_
      | with_reducible refine raiseEvt_sound ?_
      | with_reducible refine eccLog_sound ?_

theorem storeRead_sound {q : List Instr} {req : Nat} {k : Nat} {s : State} (h : Sound q s) :
    Sound q (storeRead req k s).2 := by
  unfold storeRead
  repeat' first
      | with_reducible assumption
      | with_reducible refine eccCorrected_sound ?_
      | with_reducible refine eccUncorrectable_sound ?_
      | intro _
      | extract_lets
      | with_reducible refine Sound.ite ?_ ?_
      | split

theorem storeReadWords_sound {q : List Instr} {req : Nat} {x1 : Nat} {x2 : Nat} {s : State} (h : Sound q s) :
    Sound q (storeReadWords req x1 x2 s).2 := by
  induction x1 generalizing s x2 with
  | zero =>
    unfold storeReadWords
    repeat' first
          | with_reducible assumption
  | succ n ih =>
    unfold storeReadWords
    repeat' first
          | with_reducible assumption
          | (with_reducible refine ih ?_)
          | with_reducible refine storeRead_sound ?_

theorem storeWrite_sound {q : List Instr} {k : Nat} {w : Word} {poison : Bool} {s : State} (h : Sound q s) :
    Sound q (storeWrite k w poison s) := by
  unfold storeWrite
  repeat' first
      | with_reducible assumption
      | with_reducible refine State.setCell_sound ?_

theorem storeMerge_sound {q : List Instr} {req : Nat} {k : Nat} {mask : Word} {w : Word} {s : State} (h : Sound q s) :
    Sound q (storeMerge req k mask w s) := by
  unfold storeMerge
  repeat' first
      | with_reducible assumption
      | with_reducible refine storeRead_sound ?_
      | with_reducible refine storeWrite_sound ?_

theorem storeByte_sound {q : List Instr} {req : Nat} {a : Nat} {b : Byte} {s : State} (h : Sound q s) :
    Sound q (storeByte req a b s) := by
  unfold storeByte
  repeat' first
      | with_reducible assumption
      | with_reducible refine storeMerge_sound ?_

theorem storeBytes_sound {q : List Instr} {req n a : Nat} {l : List Byte} {s : State} (h : Sound q s) :
    Sound q (storeBytes req n a l s) := by
  induction n generalizing a l s with
  | zero => exact h
  | succ n ih =>
    cases l with
    | nil => exact h
    | cons b l =>
      simp only [storeBytes]
      split
      · exact ih (storeWrite_sound h)
      · exact ih (storeByte_sound h)

theorem storeReadBytes_sound {q : List Instr} {req : Nat} {a : Nat} {nn : Nat} {s : State} (h : Sound q s) :
    Sound q (storeReadBytes req a nn s).2 := by
  unfold storeReadBytes
  repeat' first
      | with_reducible assumption
      | with_reducible refine storeReadWords_sound ?_
      | intro _
      | extract_lets
      | with_reducible refine Sound.ite ?_ ?_
      | split

theorem allocNone_sound {q : List Instr} {nn : Nat} {s : State} (h : Sound q s) :
    Sound q (allocNone nn s) := by
  unfold allocNone
  repeat' first
      | with_reducible assumption
      | with_reducible refine raiseEvt0_sound ?_
      | with_reducible refine State.modSto_sound rfl ?_
      | intro _
      | split

theorem allocAvail_sound {q : List Instr} {nn : Nat} {s : State} (h : Sound q s) :
    Sound q (allocAvail nn s) := by
  unfold allocAvail
  repeat' first
      | with_reducible assumption
      | with_reducible refine State.modSto_sound rfl ?_

theorem allocPage_sound {q : List Instr} {nn : Nat} {s : State} (h : Sound q s) :
    Sound q (allocPage nn s).2 := by
  unfold allocPage
  repeat' first
      | with_reducible assumption
      | with_reducible refine allocNone_sound ?_
      | with_reducible refine State.modSto_sound rfl ?_
      | with_reducible refine allocAvail_sound ?_
      | intro _
      | split

theorem freePageOf_sound {q : List Instr} {p : Nat} {s : State} (h : Sound q s) :
    Sound q (freePageOf p s) := by
  unfold freePageOf
  repeat' first
      | with_reducible assumption
      | with_reducible refine State.modSto_sound rfl ?_
      | with_reducible refine allocAvail_sound ?_
      | intro _
      | extract_lets
      | with_reducible refine Sound.ite ?_ ?_

theorem allocPages_sound {q : List Instr} {nn : Nat} {x1 : Nat} {s : State} (h : Sound q s) :
    Sound q (allocPages nn x1 s).2 := by
  induction x1 generalizing s with
  | zero =>
    unfold allocPages
    repeat' first
          | with_reducible assumption
  | succ n ih =>
    unfold allocPages
    repeat' first
          | with_reducible assumption
          | (with_reducible refine ih ?_)
          | with_reducible refine allocPage_sound ?_
          | with_reducible refine freePageOf_sound ?_
          | intro _
          | split
          | dsimp only
          | (apply Sound.of_pair; assumption)

theorem storeFill_sound {q : List Instr} {s : State} (h : Sound q s) : Sound q (storeFill s) :=
  Sound.withMem (s := s) rfl rfl rfl rfl rfl h

theorem storeDown_sound {q : List Instr} {s : State} (h : Sound q s) : Sound q (storeDown s) := by
  unfold storeDown
  exact Sound.withMem (s := evqCountLost _ s) rfl rfl rfl rfl rfl (evqCountLost_sound h)

theorem State.modTarget_sound {q : List Instr} {s : State} {i : Nat} {f : Target → Target} (h : Sound q s) :
    Sound q (State.modTarget s i f) := by
  unfold State.modTarget
  repeat' first
      | with_reducible assumption
      | with_reducible refine State.modPmb_sound ?_

theorem pmbPump_sound {q : List Instr} {s : State} (h : Sound q s) :
    Sound q (pmbPump s) := by
  unfold pmbPump
  repeat' first
      | with_reducible assumption
      | with_reducible refine State.modPmb_sound ?_
      | intro _
      | split

theorem pmbIssue_sound {q : List Instr} {t : Txn} {s : State} (h : Sound q s) :
    Sound q (pmbIssue t s) := by
  unfold pmbIssue
  repeat' first
      | with_reducible assumption
      | with_reducible refine pmbPump_sound ?_
      | with_reducible refine State.modPmb_sound ?_

theorem pmbRaise_sound {q : List Instr} {t : Txn} {s : State} (h : Sound q s) :
    Sound q (pmbRaise t s) := by
  unfold pmbRaise
  repeat' first
      | with_reducible assumption
      | with_reducible refine pmbIssue_sound ?_
      | with_reducible refine State.modPmb_sound ?_
      | intro _
      | split

theorem pmbNext_sound {q : List Instr} {i : Nat} {s : State} (h : Sound q s) :
    Sound q (pmbNext i s) := by
  unfold pmbNext
  repeat' first
      | with_reducible assumption
      | with_reducible refine pmbPump_sound ?_
      | with_reducible refine pmbIssue_sound ?_
      | with_reducible refine State.modPmb_sound ?_
      | intro _
      | split

theorem pmbCut_sound {q : List Instr} {i : Nat} {s : State} (h : Sound q s) :
    Sound q (pmbCut i s) := by
  unfold pmbCut
  repeat' first
      | with_reducible assumption
      | with_reducible refine State.modTarget_sound ?_
      | with_reducible refine State.modPmb_sound ?_
      | intro _
      | extract_lets
      | with_reducible refine Sound.ite ?_ ?_

theorem pmbOff_sound {q : List Instr} {cls : Fin 7} {i : Nat} {why : PmbWhy} {s : State} (h : Sound q s) :
    Sound q (pmbOff cls i why s) := by
  unfold pmbOff
  repeat' first
      | with_reducible assumption
      | with_reducible refine pmbRaise_sound ?_
      | with_reducible refine State.modTarget_sound ?_
      | with_reducible refine pmbCut_sound ?_

theorem pmbOn_sound {q : List Instr} {i : Nat} {why : PmbWhy} {s : State} (h : Sound q s) :
    Sound q (pmbOn i why s) := by
  unfold pmbOn
  repeat' first
      | with_reducible assumption
      | with_reducible refine pmbRaise_sound ?_

theorem pmbVout_sound {q : List Instr} {i : Nat} {mv : Nat} {why : PmbWhy} {s : State} (h : Sound q s) :
    Sound q (pmbVout i mv why s) := by
  unfold pmbVout
  repeat' first
      | with_reducible assumption
      | with_reducible refine pmbRaise_sound ?_

theorem pmbVerify_sound {q : List Instr} {i : Nat} {s : State} (h : Sound q s) :
    Sound q (pmbVerify i s) := by
  unfold pmbVerify
  repeat' first
      | with_reducible assumption
      | with_reducible refine pmbRaise_sound ?_
      | intro _
      | split

theorem pmbVerifyAll_sound {q : List Instr} {s : State} (h : Sound q s) :
    Sound q (pmbVerifyAll s) := by
  unfold pmbVerifyAll
  repeat' first
      | with_reducible assumption
      | with_reducible refine forEach_sound ?_ ?_
      | with_reducible refine pmbVerify_sound ?_
      | intro _

theorem convOff_sound {q : List Instr} {p : PortId} {s : State} (h : Sound q s) :
    Sound q (convOff p s) := by
  unfold convOff
  repeat' first
      | with_reducible assumption
      | with_reducible refine pmbCut_sound ?_
      | with_reducible refine pmbOff_sound ?_
      | intro _
      | split

theorem convOn_sound {q : List Instr} {p : PortId} {s : State} (h : Sound q s) :
    Sound q (convOn p s) := by
  unfold convOn
  repeat' first
      | with_reducible assumption
      | with_reducible refine pmbOn_sound ?_
      | intro _
      | split

theorem pmbAllOff_sound {q : List Instr} {s : State} (h : Sound q s) :
    Sound q (pmbAllOff s) := by
  unfold pmbAllOff
  repeat' first
      | with_reducible assumption
      | with_reducible refine forEach_sound ?_ ?_
      | with_reducible refine pmbOff_sound ?_
      | intro _
      | split

theorem ppPairOff_sound {q : List Instr} {p : PortId} {s : State} (h : Sound q s) :
    Sound q (ppPairOff p s) := by
  unfold ppPairOff
  repeat' first
      | with_reducible assumption
      | with_reducible refine State.modPp_sound ?_
      | intro _
      | split

theorem ppKick_sound {q : List Instr} {p : PortId} {s : State} (h : Sound q s) :
    Sound q (ppKick p s) := by
  unfold ppKick
  repeat' first
      | with_reducible assumption
      | with_reducible refine convOn_sound ?_
      | intro _
      | split

theorem ppKickAll_sound {q : List Instr} {s : State} (h : Sound q s) :
    Sound q (ppKickAll s) := by
  unfold ppKickAll
  repeat' first
      | with_reducible assumption
      | with_reducible refine forEach_sound ?_ ?_
      | with_reducible refine ppKick_sound ?_
      | intro _

theorem ppOff_sound {q : List Instr} {p : PortId} {s : State} (h : Sound q s) :
    Sound q (ppOff p s) := by
  unfold ppOff
  repeat' first
      | with_reducible assumption
      | with_reducible refine ppPairOff_sound ?_
      | with_reducible refine convOff_sound ?_
      | with_reducible refine State.modPp_sound ?_
      | with_reducible refine pmbOff_sound ?_
      | intro _
      | extract_lets
      | with_reducible refine Sound.ite ?_ ?_
      | split

theorem ppEvt_sound {q : List Instr} {p : PortId} {k : Nat} {s : State} (h : Sound q s) :
    Sound q (ppEvt p k s) := by
  unfold ppEvt
  repeat' first
      | with_reducible assumption
      | with_reducible refine noticeIf_sound ?_
      | with_reducible refine notice_sound ?_
      | with_reducible refine raiseEvt0_sound ?_

theorem ppTripState_sound {q : List Instr} {p : PortId} {c : PpCause} {s : State} (h : Sound q s) :
    Sound q (ppTripState p c s) := by
  unfold ppTripState
  repeat' first
      | with_reducible assumption
      | with_reducible refine ppPairOff_sound ?_
      | with_reducible refine State.modPp_sound ?_
      | with_reducible refine ppEvt_sound ?_
      | intro _
      | extract_lets
      | with_reducible refine Sound.ite ?_ ?_

theorem ppLockState_sound {q : List Instr} {p : PortId} {c : PpCause} {s : State} (h : Sound q s) :
    Sound q (ppLockState p c s) := by
  unfold ppLockState
  repeat' first
      | with_reducible assumption
      | with_reducible refine ppPairOff_sound ?_
      | with_reducible refine State.modPp_sound ?_
      | with_reducible refine convOff_sound ?_
      | with_reducible refine ppEvt_sound ?_
      | intro _
      | extract_lets
      | with_reducible refine Sound.ite ?_ ?_

theorem ppShortedOff_sound {q : List Instr} {p : PortId} {s : State} (h : Sound q s) :
    Sound q (ppShortedOff p s) := by
  unfold ppShortedOff
  repeat' first
      | with_reducible assumption
      | with_reducible refine pmbOff_sound ?_
      | intro _
      | split

theorem ppEnterRamp_sound {q : List Instr} {p : PortId} {vsns : Nat} {s : State} (h : Sound q s) :
    Sound q (ppEnterRamp p vsns s) := by
  unfold ppEnterRamp
  repeat' first
      | with_reducible assumption
      | with_reducible refine State.modPp_sound ?_

theorem axTripState_sound {q : List Instr} {a : AxId} {c : FeedCause} {counted : Bool} {s : State} (h : Sound q s) :
    Sound q (axTripState a c counted s) := by
  unfold axTripState
  repeat' first
      | with_reducible assumption
      | with_reducible refine State.modAx_sound ?_
      | intro _
      | split

theorem pdSend_sound {q : List Instr} {p : PortId} {m : PdMsg} {s : State} (h : Sound q s) :
    Sound q (pdSend p m s) := by
  unfold pdSend
  repeat' first
      | with_reducible assumption
      | with_reducible refine State.modPd_sound ?_
      | intro _
      | split

theorem pdStart_sound {q : List Instr} {p : PortId} {m : PdMsg} {s : State} (h : Sound q s) :
    Sound q (pdStart p m s) := by
  unfold pdStart
  repeat' first
      | with_reducible assumption
      | with_reducible refine State.modPd_sound ?_
      | with_reducible refine pdSend_sound ?_
      | intro _
      | extract_lets
      | with_reducible refine Sound.ite ?_ ?_

theorem pdHeard_sound {q : List Instr} {p : PortId} {s : State} (h : Sound q s) :
    Sound q (pdHeard p s) := by
  unfold pdHeard
  repeat' first
      | with_reducible assumption
      | with_reducible refine State.modPd_sound ?_

theorem pdRevise_sound {q : List Instr} {p : PortId} {rev2 : Bool} {s : State} (h : Sound q s) :
    Sound q (pdRevise p rev2 s) := by
  unfold pdRevise
  repeat' first
      | with_reducible assumption
      | with_reducible refine State.modPd_sound ?_

theorem pdEvt_sound {q : List Instr} {p : PortId} {k : Nat} {s : State} (h : Sound q s) :
    Sound q (pdEvt p k s) := by
  unfold pdEvt
  repeat' first
      | with_reducible assumption
      | with_reducible refine raiseEvt0_sound ?_

theorem pdSendCapsAs_sound {q : List Instr} {p : PortId} {eprMsg : Bool} {s : State} (h : Sound q s) :
    Sound q (pdSendCapsAs p eprMsg s) := by
  unfold pdSendCapsAs pdCapsVia
  repeat' first
      | with_reducible assumption
      | with_reducible refine pdSend_sound ?_
      | with_reducible refine State.modPd_sound ?_
      | extract_lets

theorem pdSendCaps_sound {q : List Instr} {p : PortId} {s : State} (h : Sound q s) :
    Sound q (pdSendCaps p s) := by
  unfold pdSendCaps pdCapsVia
  repeat' first
      | with_reducible assumption
      | with_reducible refine pdStart_sound ?_
      | with_reducible refine State.modPd_sound ?_
      | extract_lets
      | split

theorem bmHardLimit_sound {q : List Instr} {p : PortId} {s : State} (h : Sound q s) :
    Sound q (bmHardLimit p s) := by
  unfold bmHardLimit
  repeat' first
      | with_reducible assumption
      | with_reducible refine State.modPp_sound ?_
      | with_reducible refine pdEvt_sound ?_
      | with_reducible refine State.modPd_sound ?_

theorem bmRelease_sound {q : List Instr} {p : PortId} {s : State} (h : Sound q s) :
    Sound q (bmRelease p s) := by
  unfold bmRelease
  repeat' first
      | with_reducible assumption
      | with_reducible refine State.modPp_sound ?_
      | with_reducible refine State.modPd_sound ?_
      | intro _
      | extract_lets
      | with_reducible refine Sound.ite ?_ ?_

theorem bmOffer_sound {q : List Instr} {p : PortId} {s : State} (h : Sound q s) :
    Sound q (bmOffer p s) := by
  unfold bmOffer
  repeat' first
      | with_reducible assumption
      | with_reducible refine pdSendCaps_sound ?_
      | with_reducible refine bmHardLimit_sound ?_
      | intro _
      | extract_lets
      | with_reducible refine Sound.ite ?_ ?_

theorem bmTake_sound {q : List Instr} {x0 : List PortId} {x1 : Nat} {s : State} (h : Sound q s) :
    Sound q (bmTake x0 x1 s) := by
  induction x0 generalizing s x1 with
  | nil =>
    unfold bmTake
    repeat' first
          | with_reducible assumption
  | cons x l ih =>
    unfold bmTake
    repeat' first
          | with_reducible assumption
          | (with_reducible refine ih ?_)
          | with_reducible refine bmOffer_sound ?_
          | with_reducible refine State.modPd_sound ?_
          | intro _
          | extract_lets
          | with_reducible refine Sound.ite ?_ ?_

theorem bmWalk_sound {q : List Instr} {s : State} (h : Sound q s) :
    Sound q (bmWalk s) := by
  unfold bmWalk
  repeat' first
      | with_reducible assumption
      | with_reducible refine bmTake_sound ?_
      | intro _
      | split

theorem bmSettle_sound {q : List Instr} {s : State} (h : Sound q s) :
    Sound q (bmSettle s) := by
  unfold bmSettle
  repeat' first
      | with_reducible assumption
      | with_reducible refine forEach_sound ?_ ?_
      | with_reducible refine State.modPd_sound ?_
      | intro _
      | split

theorem bmRegrant_sound {q : List Instr} {p : PortId} {s : State} (h : Sound q s) :
    Sound q (bmRegrant p s) := by
  unfold bmRegrant
  repeat' first
      | with_reducible assumption
      | with_reducible refine State.modPd_sound ?_

theorem pdEndContract_sound {q : List Instr} {p : PortId} {s : State} (h : Sound q s) :
    Sound q (pdEndContract p s) := by
  unfold pdEndContract
  repeat' first
      | with_reducible assumption
      | with_reducible refine State.modPd_sound ?_
      | with_reducible refine bmRelease_sound ?_
      | with_reducible refine bmRegrant_sound ?_

theorem pdTakeContract_sound {q : List Instr} {p : PortId} {c : Contract} {s : State} (h : Sound q s) :
    Sound q (pdTakeContract p c s) := by
  unfold pdTakeContract
  repeat' first
      | with_reducible assumption
      | with_reducible refine State.modPd_sound ?_
      | with_reducible refine pdEvt_sound ?_
      | with_reducible refine bmSettle_sound ?_
      | with_reducible refine bmRelease_sound ?_
      | with_reducible refine bmRegrant_sound ?_

theorem pdSoftReset_sound {q : List Instr} {p : PortId} {s : State} (h : Sound q s) :
    Sound q (pdSoftReset p s) := by
  unfold pdSoftReset
  repeat' first
      | with_reducible assumption
      | with_reducible refine State.modPd_sound ?_
      | with_reducible refine pdEvt_sound ?_
      | with_reducible refine pdSend_sound ?_

theorem pdHardResetTx_sound {q : List Instr} {p : PortId} {s : State} (h : Sound q s) :
    Sound q (pdHardResetTx p s) := by
  unfold pdHardResetTx
  repeat' first
      | with_reducible assumption
      | with_reducible refine pdEndContract_sound ?_
      | with_reducible refine State.modPd_sound ?_
      | with_reducible refine pdEvt_sound ?_

theorem pdHardResetRxCore_sound {q : List Instr} {p : PortId} {s : State} (h : Sound q s) :
    Sound q (pdHardResetRxCore p s) := by
  unfold pdHardResetRxCore
  repeat' first
      | with_reducible assumption
      | with_reducible refine pdEndContract_sound ?_
      | with_reducible refine State.modPd_sound ?_
      | with_reducible refine pdEvt_sound ?_

theorem pdPage_sound {q : List Instr} {g : Nat} {s : State} (h : Sound q s) :
    Sound q (pdPage g s).2 := by
  unfold pdPage
  repeat' first
      | with_reducible assumption
      | with_reducible refine allocPage_sound ?_
      | with_reducible refine freePageOf_sound ?_
      | intro _
      | extract_lets
      | with_reducible refine Sound.ite ?_ ?_
      | split

theorem pdPages_sound {q : List Instr} {x0 : List Nat} {s : State} (h : Sound q s) :
    Sound q (pdPages x0 s).2 := by
  induction x0 generalizing s with
  | nil =>
    unfold pdPages
    repeat' first
          | with_reducible assumption
  | cons x l ih =>
    unfold pdPages
    repeat' first
          | with_reducible assumption
          | (with_reducible refine ih ?_)
          | with_reducible refine pdPage_sound ?_

theorem pdReset_sound {q : List Instr} {p : PortId} {s : State} (h : Sound q s) :
    Sound q (pdReset p s) := by
  unfold pdReset
  repeat' first
      | with_reducible assumption
      | with_reducible refine pdPages_sound ?_
      | with_reducible refine State.modPd_sound ?_
      | with_reducible refine bmRelease_sound ?_
      | with_reducible refine State.modPp_sound ?_
      | with_reducible refine State.setReg_sound ?_

theorem pdDiscEnd_sound {q : List Instr} {p : PortId} {s : State} (h : Sound q s) :
    Sound q (pdDiscEnd p s) := by
  unfold pdDiscEnd
  repeat' first
      | with_reducible assumption
      | with_reducible refine State.modPd_sound ?_
      | with_reducible refine State.wr_sound ?_
      | with_reducible refine pdSendCapsAs_sound ?_

theorem pdContractStart_sound {q : List Instr} {p : PortId} {s : State} (h : Sound q s) :
    Sound q (pdContractStart p s) := by
  unfold pdContractStart
  repeat' first
      | with_reducible assumption
      | with_reducible refine State.modPd_sound ?_
      | with_reducible refine pdSendCapsAs_sound ?_
      | with_reducible refine pdSend_sound ?_
      | with_reducible refine pdDiscEnd_sound ?_
      | intro _
      | extract_lets
      | with_reducible refine Sound.ite ?_ ?_

theorem pdAlert_sound {q : List Instr} {p : PortId} {ado : Word} {flag : BitVec 3} {s : State} (h : Sound q s) :
    Sound q (pdAlert p ado flag s) := by
  unfold pdAlert
  repeat' first
      | with_reducible assumption
      | with_reducible refine State.modPd_sound ?_
      | with_reducible refine pdSend_sound ?_
      | intro _
      | extract_lets
      | with_reducible refine Sound.ite ?_ ?_

end Sys2Proof.Machine
end

