-- ==== Sys2Proof/Laws/Sound2.lean ====
section
/-! SUPPORT. Soundness, carried through CadCore.lean, HubCore.lean, CadSend.lean, TcCore.lean, Level.lean, FeedCore.lean. -/

namespace Sys2Proof.Machine


theorem clEvt_sound {q : List Instr} {p : PortId} {k : Nat} {s : State} (h : Sound q s) :
    Sound q (clEvt p k s) := by
  unfold clEvt
  repeat' first
      | with_reducible assumption
      | with_reducible refine raiseEvt0_sound ?_

theorem cadEvt_sound {q : List Instr} {k : Nat} {s : State} (h : Sound q s) :
    Sound q (cadEvt k s) := by
  unfold cadEvt
  repeat' first
      | with_reducible assumption
      | with_reducible refine raiseEvt0_sound ?_

theorem setTier_sound {q : List Instr} {t : Fin 6} {s : State} (h : Sound q s) :
    Sound q (setTier t s) := by
  unfold setTier
  repeat' first
      | with_reducible assumption
      | with_reducible refine cadEvt_sound ?_
      | with_reducible refine State.modCad_sound ?_
      | intro _
      | split

theorem takeFwdSlot_sound {q : List Instr} {s : State} (h : Sound q s) :
    Sound q (takeFwdSlot s).2 := by
  unfold takeFwdSlot
  repeat' first
      | with_reducible assumption
      | with_reducible refine allocPage_sound ?_
      | with_reducible refine State.modCad_sound ?_
      | intro _
      | extract_lets
      | with_reducible refine Sound.ite ?_ ?_
      | split

theorem takePoolSlot_sound {q : List Instr} {s : State} (h : Sound q s) :
    Sound q (takePoolSlot s).2 := by
  unfold takePoolSlot
  repeat' first
      | with_reducible assumption
      | with_reducible refine allocPage_sound ?_
      | with_reducible refine State.modCad_sound ?_
      | intro _
      | extract_lets
      | with_reducible refine Sound.ite ?_ ?_
      | split

theorem freeIdle_sound {q : List Instr} {s : State} (h : Sound q s) :
    Sound q (freeIdle s) := by
  unfold freeIdle
  repeat' first
      | with_reducible assumption
      | with_reducible refine State.modCad_sound ?_
      | with_reducible refine forEach_sound ?_ ?_
      | with_reducible refine freePageOf_sound ?_
      | intro _

theorem State.modLq_sound {q : List Instr} {s : State} {qi : Fin 18} {f : LaunchQ → LaunchQ} (h : Sound q s) :
    Sound q (State.modLq s qi f) := by
  unfold State.modLq
  repeat' first
      | with_reducible assumption
      | with_reducible refine State.modCl_sound ?_
      | with_reducible refine State.modCad_sound ?_
      | intro _
      | split

theorem pushCompletion_sound {q : List Instr} {r : List Byte} {slot : Option (Fin 18 × BitVec 16)} {s : State} (h : Sound q s) :
    Sound q (pushCompletion r slot s) := by
  unfold pushCompletion
  repeat' first
      | with_reducible assumption
      | with_reducible refine State.modCad_sound ?_

theorem completeDesc_sound {q : List Instr} {qi : Fin 18} {d : HeadDesc} {s : State} (h : Sound q s) :
    Sound q (completeDesc qi d s) := by
  unfold completeDesc
  repeat' first
      | with_reducible assumption
      | with_reducible refine storeWrite_sound ?_
      | with_reducible refine State.modLq_sound ?_
      | with_reducible refine pushCompletion_sound ?_
      | with_reducible refine raiseEvt_sound ?_
      | intro _
      | extract_lets
      | with_reducible refine Sound.ite ?_ ?_
      | split

theorem haltQueue_sound {q : List Instr} {qi : Fin 18} {s : State} (h : Sound q s) :
    Sound q (haltQueue qi s) := by
  unfold haltQueue
  repeat' first
      | with_reducible assumption
      | with_reducible refine State.modLq_sound ?_
      | with_reducible refine clEvt_sound ?_
      | with_reducible refine cadEvt_sound ?_
      | intro _
      | extract_lets
      | with_reducible refine Sound.ite ?_ ?_
      | split

theorem completeFlight_sound {q : List Instr} {qi : Fin 18} {s : State} (h : Sound q s) :
    Sound q (completeFlight qi s) := by
  unfold completeFlight
  repeat' first
      | with_reducible assumption
      | with_reducible refine completeDesc_sound ?_
      | with_reducible refine State.modLq_sound ?_
      | with_reducible refine haltQueue_sound ?_
      | intro _
      | extract_lets
      | with_reducible refine Sound.ite ?_ ?_
      | split

theorem readDesc_sound {q : List Instr} {qi : Fin 18} {c : Nat} {s : State} (h : Sound q s) :
    Sound q (readDesc qi c s).2 := by
  unfold readDesc
  repeat' first
      | with_reducible assumption
      | with_reducible refine storeReadWords_sound ?_

theorem completeUnread_sound {q : List Instr} {qi : Fin 18} {st : Byte} {s : State} (h : Sound q s) :
    Sound q (completeUnread qi st s) := by
  unfold completeUnread
  repeat' first
      | with_reducible assumption
      | with_reducible refine readDesc_sound ?_
      | with_reducible refine completeDesc_sound ?_

theorem completeUnreads_sound {q : List Instr} {qi : Fin 18} {st : Byte} {x2 : Nat} {s : State} (h : Sound q s) :
    Sound q (completeUnreads qi st x2 s) := by
  induction x2 generalizing s with
  | zero =>
    unfold completeUnreads
    repeat' first
          | with_reducible assumption
  | succ n ih =>
    unfold completeUnreads
    repeat' first
          | with_reducible assumption
          | (with_reducible refine ih ?_)
          | with_reducible refine completeUnread_sound ?_

theorem completeList_sound {q : List Instr} {qi : Fin 18} {st : Byte} {x2 : List HeadDesc} {s : State} (h : Sound q s) :
    Sound q (completeList qi st x2 s) := by
  induction x2 generalizing s with
  | nil =>
    unfold completeList
    repeat' first
          | with_reducible assumption
  | cons x l ih =>
    unfold completeList
    repeat' first
          | with_reducible assumption
          | (with_reducible refine ih ?_)
          | with_reducible refine completeDesc_sound ?_

theorem completeAll_sound {q : List Instr} {qi : Fin 18} {st : Byte} {s : State} (h : Sound q s) :
    Sound q (completeAll qi st s) := by
  unfold completeAll
  repeat' first
      | with_reducible assumption
      | with_reducible refine State.modLq_sound ?_
      | with_reducible refine completeList_sound ?_
      | with_reducible refine completeUnreads_sound ?_

theorem rxOwn_sound {q : List Instr} {p : PortId} {s : State} (h : Sound q s) :
    Sound q (rxOwn p s) := by
  unfold rxOwn
  repeat' first
      | with_reducible assumption
      | with_reducible refine State.modCl_sound ?_
      | intro _
      | split

theorem settleHead_sound {q : List Instr} {qi : Fin 18} {s : State} (h : Sound q s) :
    Sound q (settleHead qi s) := by
  unfold settleHead
  repeat' first
      | with_reducible assumption
      | with_reducible refine State.modLq_sound ?_
      | intro _
      | split

theorem excuseBroadcast_sound {q : List Instr} {p : PortId} {s : State} (h : Sound q s) :
    Sound q (excuseBroadcast p s) := by
  unfold excuseBroadcast
  repeat' first
      | with_reducible assumption
      | with_reducible refine State.modCad_sound ?_
      | with_reducible refine settleHead_sound ?_

theorem linkDown_sound {q : List Instr} {p : PortId} {c : LCause} {dst : LState} {s : State} (h : Sound q s) :
    Sound q (linkDown p c dst s) := by
  unfold linkDown
  repeat' first
      | with_reducible assumption
      | with_reducible refine State.modCl_sound ?_
      | with_reducible refine freeIdle_sound ?_
      | with_reducible refine completeAll_sound ?_
      | with_reducible refine excuseBroadcast_sound ?_
      | with_reducible refine raiseEvt_sound ?_
      | intro _
      | extract_lets
      | with_reducible refine Sound.ite ?_ ?_

theorem cadLeave_sound {q : List Instr} {p : PortId} {c : LCause} {s : State} (h : Sound q s) :
    Sound q (cadLeave p c s) := by
  unfold cadLeave
  repeat' first
      | with_reducible assumption
      | with_reducible refine State.modCl_sound ?_
      | with_reducible refine linkDown_sound ?_

theorem sendVdm_sound {q : List Instr} {p : PortId} {svid : Nat} {obj : Nat} {ct : Nat} {cmd : Nat} {vdos : List Word} {s : State} (h : Sound q s) :
    Sound q (sendVdm p svid obj ct cmd vdos s) := by
  unfold sendVdm
  repeat' first
      | with_reducible assumption
      | with_reducible refine pdSend_sound ?_

theorem startVdm_sound {q : List Instr} {p : PortId} {svid : Nat} {obj : Nat} {cmd : Nat} {vdos : List Word} {s : State} (h : Sound q s) :
    Sound q (startVdm p svid obj cmd vdos s) := by
  unfold startVdm
  repeat' first
      | with_reducible assumption
      | with_reducible refine pdStart_sound ?_

theorem cadExit_sound {q : List Instr} {p : PortId} {s : State} (h : Sound q s) :
    Sound q (cadExit p s) := by
  unfold cadExit
  repeat' first
      | with_reducible assumption
      | with_reducible refine startVdm_sound ?_
      | with_reducible refine State.modCl_sound ?_
      | intro _
      | split

theorem hpEvt_sound {q : List Instr} {p : PortId} {k : Nat} {s : State} (h : Sound q s) :
    Sound q (hpEvt p k s) := by
  unfold hpEvt
  repeat' first
      | with_reducible assumption
      | with_reducible refine raiseEvt0_sound ?_

theorem hubEvt_sound {q : List Instr} {k : Nat} {s : State} (h : Sound q s) :
    Sound q (hubEvt k s) := by
  unfold hubEvt
  repeat' first
      | with_reducible assumption
      | with_reducible refine raiseEvt0_sound ?_

theorem ocTrack_sound {q : List Instr} {p : PortId} {s : State} (h : Sound q s) :
    Sound q (ocTrack p s) := by
  unfold ocTrack
  repeat' first
      | with_reducible assumption
      | with_reducible refine hpEvt_sound ?_
      | with_reducible refine State.modU_sound ?_
      | intro _
      | extract_lets
      | with_reducible refine Sound.ite ?_ ?_

theorem localTrack_sound {q : List Instr} {s : State} (h : Sound q s) :
    Sound q (localTrack s) := by
  unfold localTrack
  repeat' first
      | with_reducible assumption
      | with_reducible refine State.modHub_sound ?_
      | intro _
      | split

theorem ttEvt_sound {q : List Instr} {p : PortId} {k : Nat} {s : State} (h : Sound q s) :
    Sound q (ttEvt p k s) := by
  unfold ttEvt
  repeat' first
      | with_reducible assumption
      | with_reducible refine raiseEvt0_sound ?_

theorem ttDiscard_sound {q : List Instr} {p : PortId} {cut : Bool} {s : State} (h : Sound q s) :
    Sound q (ttDiscard p cut s) := by
  unfold ttDiscard
  repeat' first
      | with_reducible assumption
      | with_reducible refine State.modTt_sound ?_

theorem ttReplace_sound {q : List Instr} {x0 : List Nat} {s : State} (h : Sound q s) :
    Sound q (ttReplace x0 s).2 := by
  induction x0 generalizing s with
  | nil =>
    unfold ttReplace
    repeat' first
          | with_reducible assumption
  | cons x l ih =>
    unfold ttReplace
    repeat' first
          | with_reducible assumption
          | (with_reducible refine ih ?_)
          | with_reducible refine allocPage_sound ?_
          | with_reducible refine freePageOf_sound ?_
          | intro _
          | extract_lets
          | with_reducible refine Sound.ite ?_ ?_
          | split

theorem ttTake_sound {q : List Instr} {s : State} (h : Sound q s) :
    Sound q (ttTake s).2 := by
  unfold ttTake
  repeat' first
      | with_reducible assumption
      | with_reducible refine allocPages_sound ?_
      | intro _
      | extract_lets
      | with_reducible refine Sound.ite ?_ ?_
      | split

theorem ttNoPage_sound {q : List Instr} {p : PortId} {s : State} (h : Sound q s) :
    Sound q (ttNoPage p s) := by
  unfold ttNoPage
  repeat' first
      | with_reducible assumption
      | with_reducible refine raiseAt_sound ?_
      | with_reducible refine ttEvt_sound ?_
      | with_reducible refine State.modTt_sound ?_

theorem ttReset_sound {q : List Instr} {p : PortId} {cut : Bool} {s : State} (h : Sound q s) :
    Sound q (ttReset p cut s) := by
  unfold ttReset
  repeat' first
      | with_reducible assumption
      | with_reducible refine ttDiscard_sound ?_
      | with_reducible refine ttTake_sound ?_
      | with_reducible refine ttReplace_sound ?_
      | with_reducible refine State.modTt_sound ?_
      | with_reducible refine ttEvt_sound ?_
      | with_reducible refine ttNoPage_sound ?_
      | intro _
      | extract_lets
      | with_reducible refine Sound.ite ?_ ?_
      | split
      | dsimp only
      | (apply Sound.of_pair; assumption)
      | (apply Sound.of; assumption; rfl; rfl; rfl; rfl; rfl)
      | (dsimp +zetaDelta only; split)

theorem ttResetAll_sound {q : List Instr} {s : State} (h : Sound q s) :
    Sound q (ttResetAll s) := by
  unfold ttResetAll
  repeat' first
      | with_reducible assumption
      | with_reducible refine forEach_sound ?_ ?_
      | with_reducible refine ttReset_sound ?_
      | intro _

theorem ttIdle_sound {q : List Instr} {p : PortId} {s : State} (h : Sound q s) :
    Sound q (ttIdle p s) := by
  unfold ttIdle
  repeat' first
      | with_reducible assumption
      | with_reducible refine State.modTt_sound ?_
      | with_reducible refine ttDiscard_sound ?_

theorem ttRunAll_sound {q : List Instr} {s : State} (h : Sound q s) :
    Sound q (ttRunAll s) := by
  unfold ttRunAll
  repeat' first
      | with_reducible assumption
      | with_reducible refine forEach_sound ?_ ?_
      | with_reducible refine State.modTt_sound ?_
      | intro _
      | split

theorem uDisconnect_sound {q : List Instr} {p : PortId} {s : State} (h : Sound q s) :
    Sound q (uDisconnect p s) := by
  unfold uDisconnect
  repeat' first
      | with_reducible assumption
      | with_reducible refine State.modU_sound ?_
      | with_reducible refine hpEvt_sound ?_
      | intro _
      | extract_lets
      | with_reducible refine Sound.ite ?_ ?_

theorem gateClose_sound {q : List Instr} {p : PortId} {s : State} (h : Sound q s) :
    Sound q (gateClose p s) := by
  unfold gateClose
  repeat' first
      | with_reducible assumption
      | with_reducible refine ttReset_sound ?_
      | with_reducible refine uDisconnect_sound ?_

theorem withGate_sound {q : List Instr} {p : PortId} {f : State → State} {s : State}
    (hf : ∀ t, Sound q t → Sound q (f t)) (h : Sound q s) : Sound q (withGate p f s) := by
  unfold withGate
  dsimp only
  split
  · exact gateClose_sound (hf s h)
  · exact hf s h

theorem hubPortsOff_sound {q : List Instr} {s : State} (h : Sound q s) :
    Sound q (hubPortsOff s) := by
  unfold hubPortsOff
  repeat' first
      | with_reducible assumption
      | with_reducible refine forEach_sound ?_ ?_
      | with_reducible refine State.setReg_sound ?_
      | with_reducible refine State.modU_sound ?_
      | with_reducible refine State.modHub_sound ?_
      | with_reducible refine ttResetAll_sound ?_
      | intro _

theorem efnEvt_sound {q : List Instr} {k : Nat} {s : State} (h : Sound q s) :
    Sound q (efnEvt k s) := by
  unfold efnEvt
  repeat' first
      | with_reducible assumption
      | with_reducible refine raiseEvt0_sound ?_

theorem mtrLost_sound {q : List Instr} {nn : Nat} {s : State} (h : Sound q s) :
    Sound q (mtrLost nn s) := by
  unfold mtrLost
  repeat' first
      | with_reducible assumption
      | with_reducible refine efnEvt_sound ?_
      | with_reducible refine State.modEfn_sound ?_
      | with_reducible refine State.addSat_sound ?_
      | intro _
      | split

theorem epsClear_sound {q : List Instr} {s : State} (h : Sound q s) :
    Sound q (epsClear s) := by
  unfold epsClear
  repeat' first
      | with_reducible assumption
      | with_reducible refine State.modEfn_sound ?_

theorem batchCut_sound {q : List Instr} {s : State} (h : Sound q s) :
    Sound q (batchCut s) := by
  unfold batchCut
  repeat' first
      | with_reducible assumption
      | with_reducible refine State.modEfn_sound ?_
      | intro _
      | split

theorem efnDown_sound {q : List Instr} {st : EfnState} {nn : Nat} {s : State} (h : Sound q s) :
    Sound q (efnDown st nn s) := by
  unfold efnDown
  repeat' first
      | with_reducible assumption
      | with_reducible refine State.modPath_sound ?_
      | with_reducible refine batchCut_sound ?_
      | with_reducible refine mtrLost_sound ?_
      | with_reducible refine epsClear_sound ?_
      | with_reducible refine freeIdle_sound ?_
      | with_reducible refine State.modCad_sound ?_
      | with_reducible refine forEach_sound ?_ ?_
      | with_reducible refine rxOwn_sound ?_
      | with_reducible refine State.modEfn_sound ?_
      | intro _

theorem tb2Lose_sound {q : List Instr} {s : State} (h : Sound q s) :
    Sound q (tb2Lose s) := by
  unfold tb2Lose
  repeat' first
      | with_reducible assumption
      | with_reducible refine raiseEvt0_sound ?_
      | with_reducible refine State.modTim_sound ?_
      | intro _
      | split

theorem hubUnconfigure_sound {q : List Instr} {s : State} (h : Sound q s) :
    Sound q (hubUnconfigure s) := by
  unfold hubUnconfigure
  repeat' first
      | with_reducible assumption
      | with_reducible refine State.modHub_sound ?_
      | with_reducible refine hubPortsOff_sound ?_
      | with_reducible refine efnDown_sound ?_

theorem hubBusReset_sound {q : List Instr} {sp : UsbSpeed} {s : State} (h : Sound q s) :
    Sound q (hubBusReset sp s) := by
  unfold hubBusReset
  repeat' first
      | with_reducible assumption
      | with_reducible refine tb2Lose_sound ?_
      | with_reducible refine State.modHub_sound ?_
      | with_reducible refine hubEvt_sound ?_
      | with_reducible refine hubUnconfigure_sound ?_

theorem hubDetach_sound {q : List Instr} {s : State} (h : Sound q s) :
    Sound q (hubDetach s) := by
  unfold hubDetach
  repeat' first
      | with_reducible assumption
      | with_reducible refine State.modHub_sound ?_
      | with_reducible refine hubBusReset_sound ?_
      | intro _
      | split

theorem modOutcome_sound {q : List Instr} {qi : Fin 18} {p : PortId} {f : PortOutcome → Bool} {o : PortOutcome → PortOutcome} {s : State} (h : Sound q s) :
    Sound q (modOutcome qi p f o s) := by
  unfold modOutcome
  repeat' first
      | with_reducible assumption
      | with_reducible refine State.modLq_sound ?_

theorem lateFault_sound {q : List Instr} {qi : Fin 18} {s : State} (h : Sound q s) :
    Sound q (lateFault qi s) := by
  unfold lateFault
  repeat' first
      | with_reducible assumption
      | with_reducible refine raiseAt_sound ?_

theorem lateStarts_sound {q : List Instr} {qi : Fin 18} {p : PortId} {s : State} (h : Sound q s) :
    Sound q (lateStarts qi p s) := by
  unfold lateStarts
  repeat' first
      | with_reducible assumption
      | with_reducible refine State.modLq_sound ?_
      | intro _
      | extract_lets
      | with_reducible refine Sound.ite ?_ ?_

theorem reActual_sound {q : List Instr} {qi : Fin 18} {s : State} (h : Sound q s) :
    Sound q (reActual qi s) := by
  unfold reActual
  repeat' first
      | with_reducible assumption
      | with_reducible refine State.modLq_sound ?_

theorem launchAborted_sound {q : List Instr} {qi : Fin 18} {p : PortId} {s : State} (h : Sound q s) :
    Sound q (launchAborted qi p s) := by
  unfold launchAborted
  repeat' first
      | with_reducible assumption
      | with_reducible refine reActual_sound ?_
      | with_reducible refine State.modCl_sound ?_
      | with_reducible refine modOutcome_sound ?_
      | with_reducible refine lateFault_sound ?_
      | intro _
      | split

theorem cadAbort_sound {q : List Instr} {p : PortId} {s : State} (h : Sound q s) :
    Sound q (cadAbort p s) := by
  unfold cadAbort
  repeat' first
      | with_reducible assumption
      | with_reducible refine State.modCl_sound ?_
      | with_reducible refine launchAborted_sound ?_
      | intro _
      | extract_lets
      | with_reducible refine Sound.ite ?_ ?_
      | split

theorem fwdDrop_sound {q : List Instr} {p : PortId} {s : State} (h : Sound q s) :
    Sound q (fwdDrop p s) := by
  unfold fwdDrop
  repeat' first
      | with_reducible assumption
      | with_reducible refine State.bump_sound ?_

theorem dropStale_sound {q : List Instr} {p : PortId} {s : State} (h : Sound q s) :
    Sound q (dropStale p s) := by
  unfold dropStale
  repeat' first
      | with_reducible assumption
      | with_reducible refine freeIdle_sound ?_
      | with_reducible refine State.modCl_sound ?_
      | with_reducible refine State.addSat_sound ?_
      | intro _
      | extract_lets
      | with_reducible refine Sound.ite ?_ ?_

theorem cadStart_sound {q : List Instr} {p : PortId} {f : OutFrame} {s : State} (h : Sound q s) :
    Sound q (cadStart p f s) := by
  unfold cadStart
  repeat' first
      | with_reducible assumption
      | with_reducible refine lateStarts_sound ?_
      | with_reducible refine State.modCl_sound ?_
      | with_reducible refine storeReadBytes_sound ?_
      | with_reducible refine raiseFault_sound ?_
      | intro _
      | extract_lets
      | with_reducible refine Sound.ite ?_ ?_
      | split
      | dsimp only
      | (apply Sound.of_pair; assumption)
      | (apply Sound.of; assumption; rfl; rfl; rfl; rfl; rfl)
      | (dsimp +zetaDelta only; split)

theorem cadPump_sound {q : List Instr} {p : PortId} {s : State} (h : Sound q s) :
    Sound q (cadPump p s) := by
  unfold cadPump
  repeat' first
      | with_reducible assumption
      | with_reducible refine dropStale_sound ?_
      | with_reducible refine cadStart_sound ?_
      | with_reducible refine State.modCl_sound ?_
      | intro _
      | extract_lets
      | with_reducible refine Sound.ite ?_ ?_
      | split
      | dsimp only
      | (apply Sound.of_pair; assumption)
      | (apply Sound.of; assumption; rfl; rfl; rfl; rfl; rfl)
      | (dsimp +zetaDelta only; split)

theorem cadQueue_sound {q : List Instr} {p : PortId} {k : FrameKind} {tstamp : Bool} {rx1 : BitVec 64} {l : List Byte} {s : State} (h : Sound q s) :
    Sound q (cadQueue p k tstamp rx1 l s) := by
  unfold cadQueue
  repeat' first
      | with_reducible assumption
      | with_reducible refine fwdDrop_sound ?_
      | with_reducible refine State.modCl_sound ?_
      | with_reducible refine takeFwdSlot_sound ?_
      | with_reducible refine State.storeWords_sound ?_
      | with_reducible refine cadPump_sound ?_
      | intro _
      | extract_lets
      | with_reducible refine Sound.ite ?_ ?_
      | split
      | dsimp only
      | (apply Sound.of_pair; assumption)
      | (apply Sound.of; assumption; rfl; rfl; rfl; rfl; rfl)
      | (dsimp +zetaDelta only; split)

theorem cadQueueOwn_sound {q : List Instr} {p : PortId} {k : FrameKind} {l : List Byte} {s : State} (h : Sound q s) :
    Sound q (cadQueueOwn p k l s) := by
  unfold cadQueueOwn
  repeat' first
      | with_reducible assumption
      | with_reducible refine cadPump_sound ?_
      | with_reducible refine State.modCl_sound ?_

theorem sendBell_sound {q : List Instr} {clear : Bool} {p : PortId} {s : State} (h : Sound q s) :
    Sound q (sendBell clear p s) := by
  unfold sendBell
  repeat' first
      | with_reducible assumption
      | with_reducible refine State.modCad_sound ?_
      | with_reducible refine cadQueueOwn_sound ?_
      | with_reducible refine cadAbort_sound ?_
      | intro _
      | extract_lets
      | with_reducible refine Sound.ite ?_ ?_

theorem sendBells_sound {q : List Instr} {clear : Bool} {s : State} (h : Sound q s) :
    Sound q (sendBells clear s) := by
  unfold sendBells
  repeat' first
      | with_reducible assumption
      | with_reducible refine forEach_sound ?_ ?_
      | with_reducible refine sendBell_sound ?_
      | intro _

theorem cadTrain_sound {q : List Instr} {p : PortId} {ver : Fin 3} {s : State} (h : Sound q s) :
    Sound q (cadTrain p ver s) := by
  unfold cadTrain
  repeat' first
      | with_reducible assumption
      | with_reducible refine State.modCl_sound ?_

theorem cadRetrain_sound {q : List Instr} {p : PortId} {ver : Fin 3} {s : State} (h : Sound q s) :
    Sound q (cadRetrain p ver s) := by
  unfold cadRetrain
  repeat' first
      | with_reducible assumption
      | with_reducible refine cadAbort_sound ?_
      | with_reducible refine clEvt_sound ?_
      | with_reducible refine State.modCl_sound ?_

theorem cadAttention_sound {q : List Instr} {ver : Fin 3} {s : State} (h : Sound q s) :
    Sound q (cadAttention ver s) := by
  unfold cadAttention
  repeat' first
      | with_reducible assumption
      | with_reducible refine startVdm_sound ?_
      | with_reducible refine State.modCl_sound ?_

theorem cadAllowance_sound {q : List Instr} {s : State} (h : Sound q s) :
    Sound q (cadAllowance s) := by
  unfold cadAllowance
  repeat' first
      | with_reducible assumption
      | with_reducible refine forEach_sound ?_ ?_
      | with_reducible refine cadRetrain_sound ?_
      | with_reducible refine cadAttention_sound ?_
      | intro _
      | extract_lets
      | with_reducible refine Sound.ite ?_ ?_

theorem tcEvt_sound {q : List Instr} {p : PortId} {k : Nat} {s : State} (h : Sound q s) :
    Sound q (tcEvt p k s) := by
  unfold tcEvt
  repeat' first
      | with_reducible assumption
      | with_reducible refine raiseEvt0_sound ?_

theorem tcEnter_sound {q : List Instr} {p : PortId} {st : TcState} {s : State} (h : Sound q s) :
    Sound q (tcEnter p st s) := by
  unfold tcEnter
  repeat' first
      | with_reducible assumption
      | with_reducible refine noticeIf_sound ?_
      | with_reducible refine State.modPp_sound ?_
      | with_reducible refine withGate_sound ?_ ?_
      | with_reducible refine State.modTc_sound ?_
      | intro _
      | extract_lets
      | with_reducible refine Sound.ite ?_ ?_

theorem tcSinkOnly_sound {q : List Instr} {p : PortId} {s : State} (h : Sound q s) :
    Sound q (tcSinkOnly p s) := by
  unfold tcSinkOnly
  repeat' first
      | with_reducible assumption
      | with_reducible refine tcEnter_sound ?_
      | intro _
      | split

theorem rdTrack_sound {q : List Instr} {s : State} (h : Sound q s) :
    Sound q (rdTrack s) := by
  unfold rdTrack
  repeat' first
      | with_reducible assumption
      | with_reducible refine State.modFeed_sound ?_
      | with_reducible refine forEach_sound ?_ ?_
      | with_reducible refine tcSinkOnly_sound ?_
      | intro _

theorem vconnOff_sound {q : List Instr} {p : PortId} {s : State} (h : Sound q s) :
    Sound q (vconnOff p s) := by
  unfold vconnOff
  repeat' first
      | with_reducible assumption
      | with_reducible refine State.modTc_sound ?_

theorem vconnOn_sound {q : List Instr} {p : PortId} {s : State} (h : Sound q s) :
    Sound q (vconnOn p s) := by
  unfold vconnOn
  repeat' first
      | with_reducible assumption
      | with_reducible refine State.modTc_sound ?_
      | intro _
      | split

theorem tcLeave_sound {q : List Instr} {p : PortId} {c : LCause} {st : TcState} {s : State} (h : Sound q s) :
    Sound q (tcLeave p c st s) := by
  unfold tcLeave
  repeat' first
      | with_reducible assumption
      | with_reducible refine ppOff_sound ?_
      | with_reducible refine State.modPp_sound ?_
      | with_reducible refine ocTrack_sound ?_
      | with_reducible refine cadLeave_sound ?_
      | with_reducible refine pdReset_sound ?_
      | with_reducible refine tcEnter_sound ?_
      | with_reducible refine State.modTc_sound ?_

theorem tcDetach_sound {q : List Instr} {p : PortId} {s : State} (h : Sound q s) :
    Sound q (tcDetach p s) := by
  unfold tcDetach
  repeat' first
      | with_reducible assumption
      | with_reducible refine tcLeave_sound ?_
      | with_reducible refine tcEvt_sound ?_
      | with_reducible refine hubDetach_sound ?_
      | intro _
      | extract_lets
      | with_reducible refine Sound.ite ?_ ?_

theorem errRefused_sound {q : List Instr} {p : PortId} {s : State} (h : Sound q s) :
    Sound q (errRefused p s) := by
  unfold errRefused
  repeat' first
      | with_reducible assumption
      | with_reducible refine pushEvent_sound ?_

theorem tcRecoverNow_sound {q : List Instr} {p : PortId} {s : State} (h : Sound q s) :
    Sound q (tcRecoverNow p s) := by
  unfold tcRecoverNow
  repeat' first
      | with_reducible assumption
      | with_reducible refine tcLeave_sound ?_
      | with_reducible refine tcEvt_sound ?_
      | with_reducible refine hubDetach_sound ?_
      | intro _
      | extract_lets
      | with_reducible refine Sound.ite ?_ ?_

theorem tcErrRecovery_sound {q : List Instr} {p : PortId} {s : State} (h : Sound q s) :
    Sound q (tcErrRecovery p s) := by
  unfold tcErrRecovery
  repeat' first
      | with_reducible assumption
      | with_reducible refine errRefused_sound ?_
      | with_reducible refine tcRecoverNow_sound ?_
      | intro _
      | split

theorem tcHold_sound {q : List Instr} {p : PortId} {st : TcState} {s : State} (h : Sound q s) :
    Sound q (tcHold p st s) := by
  unfold tcHold
  repeat' first
      | with_reducible assumption
      | with_reducible refine tcEvt_sound ?_
      | with_reducible refine tcLeave_sound ?_
      | with_reducible refine hubDetach_sound ?_
      | with_reducible refine tcEnter_sound ?_
      | intro _
      | extract_lets
      | with_reducible refine Sound.ite ?_ ?_

theorem tcSourceCheck_sound {q : List Instr} {p : PortId} {s : State} (h : Sound q s) :
    Sound q (tcSourceCheck p s) := by
  unfold tcSourceCheck
  repeat' first
      | with_reducible assumption
      | with_reducible refine tcDetach_sound ?_
      | with_reducible refine tcSinkOnly_sound ?_
      | intro _
      | split

theorem tcApplyDisable_sound {q : List Instr} {p : PortId} {s : State} (h : Sound q s) :
    Sound q (tcApplyDisable p s) := by
  unfold tcApplyDisable
  repeat' first
      | with_reducible assumption
      | with_reducible refine tcHold_sound ?_
      | with_reducible refine tcEnter_sound ?_
      | intro _
      | split

theorem eprExitStart_sound {q : List Instr} {p : PortId} {s : State} (h : Sound q s) :
    Sound q (eprExitStart p s) := by
  unfold eprExitStart
  repeat' first
      | with_reducible assumption
      | with_reducible refine pdSendCaps_sound ?_
      | with_reducible refine State.modPd_sound ?_

theorem eprCheck_sound {q : List Instr} {s : State} (h : Sound q s) :
    Sound q (eprCheck s) := by
  unfold eprCheck
  repeat' first
      | with_reducible assumption
      | with_reducible refine forEach_sound ?_ ?_
      | with_reducible refine eprExitStart_sound ?_
      | intro _
      | split

theorem bmRecompute_sound {q : List Instr} {s : State} (h : Sound q s) :
    Sound q (bmRecompute s) := by
  unfold bmRecompute
  repeat' first
      | with_reducible assumption
      | with_reducible refine State.modBm_sound ?_
      | with_reducible refine eprCheck_sound ?_
      | with_reducible refine bmWalk_sound ?_

theorem discReached_sound {q : List Instr} {s : State} (h : Sound q s) :
    Sound q (discReached s) := by
  unfold discReached
  repeat' first
      | with_reducible assumption
      | with_reducible refine State.setReg_sound ?_
      | with_reducible refine State.modTim_sound ?_
      | intro _
      | extract_lets
      | with_reducible refine Sound.ite ?_ ?_
      | split

theorem levelEvent_sound {q : List Instr} {nn : Nat} {old : Nat} {s : State} (h : Sound q s) :
    Sound q (levelEvent nn old s) := by
  unfold levelEvent
  repeat' first
      | with_reducible assumption
      | with_reducible refine pushEvent_sound ?_

theorem setLevel_sound {q : List Instr} {nn : Fin 3} {s : State} (h : Sound q s) :
    Sound q (setLevel nn s) := by
  unfold setLevel
  repeat' first
      | with_reducible assumption
      | with_reducible refine levelEvent_sound ?_
      | with_reducible refine State.modGlb_sound ?_
      | with_reducible refine discReached_sound ?_
      | with_reducible refine cadAllowance_sound ?_
      | with_reducible refine bmRecompute_sound ?_
      | intro _
      | extract_lets
      | with_reducible refine Sound.ite ?_ ?_

theorem levelDown_sound {q : List Instr} {s : State} (h : Sound q s) :
    Sound q (levelDown s) := by
  unfold levelDown
  repeat' first
      | with_reducible assumption
      | with_reducible refine setLevel_sound ?_
      | intro _
      | split

theorem pdTableChanged_sound {q : List Instr} {p : PortId} {s : State} (h : Sound q s) :
    Sound q (pdTableChanged p s) := by
  unfold pdTableChanged
  repeat' first
      | with_reducible assumption
      | with_reducible refine pdSendCaps_sound ?_
      | intro _
      | split

theorem feedEvt_sound {q : List Instr} {k : Nat} {s : State} (h : Sound q s) :
    Sound q (feedEvt k s) := by
  unfold feedEvt
  repeat' first
      | with_reducible assumption
      | with_reducible refine noticeIf_sound ?_
      | with_reducible refine raiseEvt0_sound ?_

theorem feedPairOff_sound {q : List Instr} {f : FeedId} {s : State} (h : Sound q s) :
    Sound q (feedPairOff f s) := by
  unfold feedPairOff
  repeat' first
      | with_reducible assumption
      | with_reducible refine State.modLine_sound ?_
      | with_reducible refine ppOff_sound ?_
      | intro _
      | extract_lets
      | with_reducible refine Sound.ite ?_ ?_

theorem feedPairOn_sound {q : List Instr} {f : FeedId} {live : Bool} {s : State} (h : Sound q s) :
    Sound q (feedPairOn f live s) := by
  unfold feedPairOn
  repeat' first
      | with_reducible assumption
      | with_reducible refine State.modLine_sound ?_
      | with_reducible refine ppEnterRamp_sound ?_
      | intro _
      | extract_lets
      | with_reducible refine Sound.ite ?_ ?_

theorem dynEnd_sound {q : List Instr} {k : Nat} {s : State} (h : Sound q s) :
    Sound q (dynEnd k s) := by
  unfold dynEnd
  repeat' first
      | with_reducible assumption
      | with_reducible refine State.modDyn_sound ?_
      | with_reducible refine pushEvent_sound ?_

theorem dynAbandon_sound {q : List Instr} {s : State} (h : Sound q s) :
    Sound q (dynAbandon s) := by
  unfold dynAbandon
  repeat' first
      | with_reducible assumption
      | with_reducible refine dynEnd_sound ?_
      | with_reducible refine ppOff_sound ?_
      | with_reducible refine pushEvent_sound ?_

theorem feedConducts_sound {q : List Instr} {f : FeedId} {s : State} (h : Sound q s) :
    Sound q (feedConducts f s) := by
  unfold feedConducts
  repeat' first
      | with_reducible assumption
      | with_reducible refine State.modFeed_sound ?_
      | with_reducible refine State.modLine_sound ?_
      | with_reducible refine State.modPwr_sound ?_
      | with_reducible refine feedEvt_sound ?_
      | with_reducible refine ppKickAll_sound ?_
      | with_reducible refine localTrack_sound ?_
      | with_reducible refine rdTrack_sound ?_
      | with_reducible refine bmRecompute_sound ?_
      | intro _
      | extract_lets
      | with_reducible refine Sound.ite ?_ ?_

theorem feedStart_sound {q : List Instr} {f : FeedId} {first : Bool} {s : State} (h : Sound q s) :
    Sound q (feedStart f first s) := by
  unfold feedStart
  repeat' first
      | with_reducible assumption
      | with_reducible refine State.modLine_sound ?_
      | with_reducible refine State.modFeed_sound ?_
      | with_reducible refine dynEnd_sound ?_
      | with_reducible refine feedPairOn_sound ?_
      | with_reducible refine pmbVerifyAll_sound ?_
      | with_reducible refine feedConducts_sound ?_
      | intro _
      | extract_lets
      | with_reducible refine Sound.ite ?_ ?_

theorem feedSelect_sound {q : List Instr} {s : State} (h : Sound q s) :
    Sound q (feedSelect s) := by
  unfold feedSelect
  repeat' first
      | with_reducible assumption
      | with_reducible refine feedStart_sound ?_
      | intro _
      | split

theorem feedBreak_sound {q : List Instr} {f : FeedId} {next : FeedState} {s : State} (h : Sound q s) :
    Sound q (feedBreak f next s) := by
  unfold feedBreak
  repeat' first
      | with_reducible assumption
      | with_reducible refine State.modFeed_sound ?_
      | with_reducible refine levelDown_sound ?_
      | with_reducible refine feedPairOff_sound ?_
      | intro _
      | extract_lets
      | with_reducible refine Sound.ite ?_ ?_

theorem feedLockNow_sound {q : List Instr} {f : FeedId} {c : FeedCause} {s : State} (h : Sound q s) :
    Sound q (feedLockNow f c s) := by
  unfold feedLockNow
  repeat' first
      | with_reducible assumption
      | with_reducible refine State.modLine_sound ?_
      | with_reducible refine raiseAt_sound ?_
      | with_reducible refine feedEvt_sound ?_

theorem feedSettleOld_sound {q : List Instr} {f : FeedId} {next : FeedState} {s : State} (h : Sound q s) :
    Sound q (feedSettleOld f next s) := by
  unfold feedSettleOld
  repeat' first
      | with_reducible assumption
      | with_reducible refine State.modLine_sound ?_
      | with_reducible refine feedLockNow_sound ?_
      | intro _
      | extract_lets
      | with_reducible refine Sound.ite ?_ ?_

theorem feedTripNow_sound {q : List Instr} {f : FeedId} {c : FeedCause} {s : State} (h : Sound q s) :
    Sound q (feedTripNow f c s) := by
  unfold feedTripNow
  repeat' first
      | with_reducible assumption
      | with_reducible refine State.modLine_sound ?_
      | with_reducible refine feedBreak_sound ?_
      | with_reducible refine feedEvt_sound ?_

theorem tandemEnd_sound {q : List Instr} {s : State} (h : Sound q s) :
    Sound q (tandemEnd s) := by
  unfold tandemEnd
  repeat' first
      | with_reducible assumption
      | with_reducible refine State.modFeed_sound ?_
      | with_reducible refine feedEvt_sound ?_
      | with_reducible refine State.modPwr_sound ?_
      | intro _
      | extract_lets
      | with_reducible refine Sound.ite ?_ ?_

theorem feedReady_sound {q : List Instr} {f : FeedId} {s : State} (h : Sound q s) :
    Sound q (feedReady f s) := by
  unfold feedReady
  repeat' first
      | with_reducible assumption
      | with_reducible refine tandemEnd_sound ?_
      | with_reducible refine State.modLine_sound ?_
      | with_reducible refine State.modFeed_sound ?_
      | with_reducible refine dynEnd_sound ?_
      | with_reducible refine feedBreak_sound ?_
      | with_reducible refine feedSelect_sound ?_
      | intro _
      | extract_lets
      | with_reducible refine Sound.ite ?_ ?_

theorem fcLost_sound {q : List Instr} {s : State} (h : Sound q s) :
    Sound q (fcLost s) := by
  unfold fcLost
  repeat' first
      | with_reducible assumption
      | with_reducible refine State.modDyn_sound ?_
      | with_reducible refine ppOff_sound ?_
      | with_reducible refine pushEvent_sound ?_
      | with_reducible refine State.modLine_sound ?_
      | with_reducible refine feedBreak_sound ?_
      | with_reducible refine feedPairOff_sound ?_
      | intro _
      | extract_lets
      | with_reducible refine Sound.ite ?_ ?_
      | split

theorem bellNow_sound {q : List Instr} {s : State} (h : Sound q s) :
    Sound q (bellNow s) := by
  unfold bellNow
  repeat' first
      | with_reducible assumption
      | with_reducible refine State.modFeed_sound ?_
      | with_reducible refine sendBells_sound ?_
      | with_reducible refine forEach_sound ?_ ?_
      | with_reducible refine pdSend_sound ?_
      | with_reducible refine feedEvt_sound ?_
      | intro _
      | extract_lets
      | with_reducible refine Sound.ite ?_ ?_

theorem axOff_sound {q : List Instr} {a : AxId} {s : State} (h : Sound q s) :
    Sound q (axOff a s) := by
  unfold axOff
  repeat' first
      | with_reducible assumption
      | with_reducible refine State.modAx_sound ?_
      | intro _
      | split

theorem axLock_sound {q : List Instr} {a : AxId} {c : FeedCause} {s : State} (h : Sound q s) :
    Sound q (axLock a c s) := by
  unfold axLock
  repeat' first
      | with_reducible assumption
      | with_reducible refine raiseAt_sound ?_
      | with_reducible refine State.modAx_sound ?_

theorem axTrip_sound {q : List Instr} {a : AxId} {c : FeedCause} {counted : Bool} {s : State} (h : Sound q s) :
    Sound q (axTrip a c counted s) := by
  unfold axTrip
  repeat' first
      | with_reducible assumption
      | with_reducible refine feedEvt_sound ?_
      | with_reducible refine axTripState_sound ?_
      | intro _
      | split

theorem frsSignal_sound {q : List Instr} {p : PortId} {s : State} (h : Sound q s) :
    Sound q (frsSignal p s) := by
  unfold frsSignal
  repeat' first
      | with_reducible assumption
      | with_reducible refine ppOff_sound ?_
      | with_reducible refine State.modPp_sound ?_
      | with_reducible refine pdEndContract_sound ?_
      | with_reducible refine State.modPd_sound ?_
      | with_reducible refine pdSend_sound ?_
      | with_reducible refine State.modFeed_sound ?_
      | with_reducible refine tcEnter_sound ?_

theorem totalLossPort_sound {q : List Instr} {p : PortId} {s : State} (h : Sound q s) :
    Sound q (totalLossPort p s) := by
  unfold totalLossPort
  repeat' first
      | with_reducible assumption
      | with_reducible refine State.modPp_sound ?_
      | with_reducible refine frsSignal_sound ?_
      | with_reducible refine tcEvt_sound ?_
      | with_reducible refine tcLeave_sound ?_
      | with_reducible refine ocTrack_sound ?_
      | with_reducible refine ppOff_sound ?_
      | intro _
      | extract_lets
      | with_reducible refine Sound.ite ?_ ?_

theorem totalLossNow_sound {q : List Instr} {s : State} (h : Sound q s) :
    Sound q (totalLossNow s) := by
  unfold totalLossNow
  repeat' first
      | with_reducible assumption
      | with_reducible refine State.modFeed_sound ?_
      | with_reducible refine pmbAllOff_sound ?_
      | with_reducible refine feedEvt_sound ?_
      | with_reducible refine bellNow_sound ?_
      | with_reducible refine forEach_sound ?_ ?_
      | with_reducible refine axOff_sound ?_
      | with_reducible refine ppOff_sound ?_
      | with_reducible refine totalLossPort_sound ?_
      | with_reducible refine bmRegrant_sound ?_
      | with_reducible refine bmRecompute_sound ?_
      | with_reducible refine localTrack_sound ?_
      | with_reducible refine rdTrack_sound ?_
      | intro _

theorem feedChoose_sound {q : List Instr} {first : Bool} {s : State} (h : Sound q s) :
    Sound q (feedChoose first s) := by
  unfold feedChoose
  repeat' first
      | with_reducible assumption
      | with_reducible refine State.modFeed_sound ?_
      | with_reducible refine feedStart_sound ?_
      | with_reducible refine totalLossNow_sound ?_
      | intro _
      | split

theorem feedApplyEn_sound {q : List Instr} {f : FeedId} {s : State} (h : Sound q s) :
    Sound q (feedApplyEn f s) := by
  unfold feedApplyEn
  repeat' first
      | with_reducible assumption
      | with_reducible refine State.modLine_sound ?_
      | with_reducible refine feedBreak_sound ?_
      | with_reducible refine ppOff_sound ?_
      | intro _
      | extract_lets
      | with_reducible refine Sound.ite ?_ ?_
      | split

theorem feedReorder_sound {q : List Instr} {s : State} (h : Sound q s) :
    Sound q (feedReorder s) := by
  unfold feedReorder
  repeat' first
      | with_reducible assumption
      | with_reducible refine feedBreak_sound ?_
      | intro _
      | split

theorem feedApplyCtrl_sound {q : List Instr} {moved : Bool} {s : State} (h : Sound q s) :
    Sound q (feedApplyCtrl moved s) := by
  unfold feedApplyCtrl
  repeat' first
      | with_reducible assumption
      | with_reducible refine forEach_sound ?_ ?_
      | with_reducible refine feedApplyEn_sound ?_
      | with_reducible refine axOff_sound ?_
      | with_reducible refine State.modFeed_sound ?_
      | with_reducible refine dynAbandon_sound ?_
      | with_reducible refine feedReorder_sound ?_
      | intro _
      | extract_lets
      | with_reducible refine Sound.ite ?_ ?_

theorem feedUnlock_sound {q : List Instr} {v : Word} {s : State} (h : Sound q s) :
    Sound q (feedUnlock v s) := by
  unfold feedUnlock
  repeat' first
      | with_reducible assumption
      | with_reducible refine forEach_sound ?_ ?_
      | with_reducible refine State.modLine_sound ?_
      | with_reducible refine State.modAx_sound ?_
      | intro _
      | extract_lets
      | with_reducible refine Sound.ite ?_ ?_

end Sys2Proof.Machine
end

