-- ==== Sys2Proof/Laws/Sound3.lean ====
section
/-! SUPPORT. Soundness, carried through PortOps.lean, Resets.lean, Faults.lean, EvqCore.lean, StoAct.lean, PmbCore.lean, EfnCore.lean, NvmCore.lean. -/

namespace Sys2Proof.Machine


theorem puVbusGone_sound {q : List Instr} {s : State} (h : Sound q s) :
    Sound q (puVbusGone s) := by
  unfold puVbusGone
  repeat' first
      | with_reducible assumption
      | with_reducible refine State.modPwr_sound ?_
      | intro _
      | split

theorem portDetach_sound {q : List Instr} {p : PortId} {s : State} (h : Sound q s) :
    Sound q (portDetach p s) := by
  unfold portDetach
  repeat' first
      | with_reducible assumption
      | with_reducible refine puVbusGone_sound ?_
      | with_reducible refine tcDetach_sound ?_
      | with_reducible refine fcLost_sound ?_
      | intro _
      | split

theorem portErrRecovery_sound {q : List Instr} {p : PortId} {s : State} (h : Sound q s) :
    Sound q (portErrRecovery p s) := by
  unfold portErrRecovery
  repeat' first
      | with_reducible assumption
      | with_reducible refine tcErrRecovery_sound ?_
      | with_reducible refine fcLost_sound ?_
      | intro _
      | split

theorem portHold_sound {q : List Instr} {p : PortId} {st : TcState} {s : State} (h : Sound q s) :
    Sound q (portHold p st s) := by
  unfold portHold
  repeat' first
      | with_reducible assumption
      | with_reducible refine tcHold_sound ?_
      | with_reducible refine fcLost_sound ?_
      | intro _
      | split

theorem portSourceCheck_sound {q : List Instr} {p : PortId} {s : State} (h : Sound q s) :
    Sound q (portSourceCheck p s) := by
  unfold portSourceCheck
  repeat' first
      | with_reducible assumption
      | with_reducible refine tcSourceCheck_sound ?_

theorem portApplyDisable_sound {q : List Instr} {p : PortId} {s : State} (h : Sound q s) :
    Sound q (portApplyDisable p s) := by
  unfold portApplyDisable
  repeat' first
      | with_reducible assumption
      | with_reducible refine portHold_sound ?_
      | with_reducible refine tcEnter_sound ?_
      | intro _
      | split

theorem hardResetCommon_sound {q : List Instr} {p : PortId} {s : State} (h : Sound q s) :
    Sound q (hardResetCommon p s) := by
  unfold hardResetCommon
  repeat' first
      | with_reducible assumption
      | with_reducible refine cadLeave_sound ?_
      | with_reducible refine State.modPd_sound ?_
      | with_reducible refine ppOff_sound ?_
      | with_reducible refine State.modPp_sound ?_
      | with_reducible refine fcLost_sound ?_
      | intro _
      | extract_lets
      | with_reducible refine Sound.ite ?_ ?_

theorem hardResetNow_sound {q : List Instr} {p : PortId} {s : State} (h : Sound q s) :
    Sound q (hardResetNow p s) := by
  unfold hardResetNow
  repeat' first
      | with_reducible assumption
      | with_reducible refine State.modPd_sound ?_
      | with_reducible refine pdHardResetTx_sound ?_
      | with_reducible refine hardResetCommon_sound ?_

theorem hardReset_sound {q : List Instr} {p : PortId} {s : State} (h : Sound q s) :
    Sound q (hardReset p s) := by
  unfold hardReset
  repeat' first
      | with_reducible assumption
      | with_reducible refine State.modPd_sound ?_
      | with_reducible refine pdEndContract_sound ?_
      | with_reducible refine pdSoftReset_sound ?_
      | with_reducible refine pdEvt_sound ?_
      | with_reducible refine portErrRecovery_sound ?_
      | with_reducible refine hardResetNow_sound ?_
      | intro _
      | extract_lets
      | with_reducible refine Sound.ite ?_ ?_

theorem pdEscalate_sound {q : List Instr} {p : PortId} {s : State} (h : Sound q s) :
    Sound q (pdEscalate p s) := by
  unfold pdEscalate
  repeat' first
      | with_reducible assumption
      | with_reducible refine hardReset_sound ?_
      | with_reducible refine pdSoftReset_sound ?_
      | intro _
      | extract_lets
      | with_reducible refine Sound.ite ?_ ?_

theorem pdPathTrip_sound {q : List Instr} {p : PortId} {s : State} (h : Sound q s) :
    Sound q (pdPathTrip p s) := by
  unfold pdPathTrip
  repeat' first
      | with_reducible assumption
      | with_reducible refine State.modPd_sound ?_
      | with_reducible refine hardReset_sound ?_

theorem pathTrip_sound {q : List Instr} {p : PortId} {c : PpCause} {s : State} (h : Sound q s) :
    Sound q (pathTrip p c s) := by
  unfold pathTrip
  repeat' first
      | with_reducible assumption
      | with_reducible refine ocTrack_sound ?_
      | with_reducible refine pdPathTrip_sound ?_
      | with_reducible refine pdEndContract_sound ?_
      | with_reducible refine ppTripState_sound ?_
      | intro _
      | split

theorem pathLock_sound {q : List Instr} {p : PortId} {c : PpCause} {s : State} (h : Sound q s) :
    Sound q (pathLock p c s) := by
  unfold pathLock
  repeat' first
      | with_reducible assumption
      | with_reducible refine raiseAt_sound ?_
      | with_reducible refine pdEndContract_sound ?_
      | with_reducible refine ppLockState_sound ?_
      | with_reducible refine ocTrack_sound ?_
      | with_reducible refine hardReset_sound ?_
      | with_reducible refine pdEvt_sound ?_
      | with_reducible refine portSourceCheck_sound ?_
      | with_reducible refine State.modPd_sound ?_
      | with_reducible refine tcSinkOnly_sound ?_
      | intro _
      | extract_lets
      | with_reducible refine Sound.ite ?_ ?_

theorem pathCool_sound {q : List Instr} {p : PortId} {s : State} (h : Sound q s) :
    Sound q (pathCool p s) := by
  unfold pathCool
  repeat' first
      | with_reducible assumption
      | with_reducible refine pathLock_sound ?_
      | with_reducible refine State.modPp_sound ?_
      | with_reducible refine ppOff_sound ?_
      | with_reducible refine pmbVout_sound ?_
      | intro _
      | extract_lets
      | with_reducible refine Sound.ite ?_ ?_
      | split

theorem tripPath_sound {q : List Instr} {x : PathRef} {c : PpCause} {fc : FeedCause} {s : State} (h : Sound q s) :
    Sound q (tripPath x c fc s) := by
  unfold tripPath
  repeat' first
      | with_reducible assumption
      | with_reducible refine pathTrip_sound ?_
      | with_reducible refine axTrip_sound ?_
      | intro _
      | split

theorem ppUnlock_sound {q : List Instr} {p : PortId} {s : State} (h : Sound q s) :
    Sound q (ppUnlock p s) := by
  unfold ppUnlock
  repeat' first
      | with_reducible assumption
      | with_reducible refine ppKick_sound ?_
      | with_reducible refine State.modPp_sound ?_
      | intro _
      | split

theorem ppForceOff_sound {q : List Instr} {p : PortId} {s : State} (h : Sound q s) :
    Sound q (ppForceOff p s) := by
  unfold ppForceOff
  repeat' first
      | with_reducible assumption
      | with_reducible refine fcLost_sound ?_
      | with_reducible refine ppOff_sound ?_
      | intro _
      | split

-- outside: see the resets

theorem setCause_sound {q : List Instr} {c : Nat} {port : Nat} {s : State} (h : Sound q s) :
    Sound q (setCause c port s) := by
  unfold setCause
  repeat' first
      | with_reducible assumption
      | with_reducible refine State.setReg_sound ?_

theorem coldReset_sound {q : List Instr} {cause : Nat} {s : State} (h : Sound q s) : Sound q (coldReset cause s) := by
  unfold coldReset
  refine setCause_sound ?_
  exact ⟨h.1, canonical_iff.2 ⟨rfl, rfl, h.flash, h.otp⟩⟩

theorem warmReset_sound {q : List Instr} {cause : Nat} {s : State} (h : Sound q s) : Sound q (warmReset cause s) := by
  have h' := evqCountLost_sound (nn := (s.evq.held.filter fun m => m.lost.isNone).length) h
  unfold warmReset
  refine feedSelect_sound (setCause_sound ?_)
  exact ⟨h'.1, canonical_iff.2 ⟨SMap.wf_keep h'.regs, rfl, h'.flash, h'.otp⟩⟩

theorem powerLost_sound {q : List Instr} {s : State} (h : Sound q s) : Sound q (powerLost s) :=
  ⟨h.1, canonical_iff.2 ⟨rfl, rfl, h.flash, h.otp⟩⟩

theorem faultCapture_sound {q : List Instr} {d : FaultDue} {s : State} (h : Sound q s) :
    Sound q (faultCapture d s) := by
  unfold faultCapture
  repeat' first
      | with_reducible assumption
      | with_reducible refine State.bump_sound ?_
      | with_reducible refine State.wr_sound ?_
      | with_reducible refine State.setReg_sound ?_
      | intro _
      | extract_lets
      | with_reducible refine Sound.ite ?_ ?_

theorem faultCount_sound {q : List Instr} {d : FaultDue} {s : State} (h : Sound q s) :
    Sound q (faultCount d s) := by
  unfold faultCount
  repeat' first
      | with_reducible assumption
      | with_reducible refine State.bump_sound ?_
      | intro _
      | split

theorem safeStateAll_sound {q : List Instr} {s : State} (h : Sound q s) :
    Sound q (safeStateAll s) := by
  unfold safeStateAll
  repeat' first
      | with_reducible assumption
      | with_reducible refine forEach_sound ?_ ?_
      | with_reducible refine tripPath_sound ?_
      | intro _

theorem reactWarm_sound {q : List Instr} {d : FaultDue} {s : State} (h : Sound q s) :
    Sound q (reactWarm d s) := by
  unfold reactWarm
  repeat' first
      | with_reducible assumption
      | with_reducible refine State.modFlt_sound ?_
      | with_reducible refine safeStateAll_sound ?_
      | with_reducible refine pushEvent_sound ?_
      | with_reducible refine warmReset_sound ?_
      | intro _
      | extract_lets
      | with_reducible refine Sound.ite ?_ ?_

theorem faultEvent_sound {q : List Instr} {d : FaultDue} {s : State} (h : Sound q s) :
    Sound q (faultEvent d s) := by
  unfold faultEvent
  repeat' first
      | with_reducible assumption
      | with_reducible refine pushEvent_sound ?_

theorem safeStatePort_sound {q : List Instr} {d : FaultDue} {s : State} (h : Sound q s) :
    Sound q (safeStatePort d s) := by
  unfold safeStatePort
  repeat' first
      | with_reducible assumption
      | with_reducible refine pathTrip_sound ?_
      | intro _
      | split

theorem faultReact_sound {q : List Instr} {r : Nat} {d : FaultDue} {s : State} (h : Sound q s) :
    Sound q (faultReact r d s) := by
  unfold faultReact
  repeat' first
      | with_reducible assumption
      | with_reducible refine faultEvent_sound ?_
      | with_reducible refine State.modFlt_sound ?_
      | with_reducible refine safeStatePort_sound ?_
      | with_reducible refine safeStateAll_sound ?_
      | with_reducible refine reactWarm_sound ?_
      | intro _
      | extract_lets
      | with_reducible refine Sound.ite ?_ ?_
      | split

theorem feedsClassA_sound {q : List Instr} {s : State} (h : Sound q s) :
    Sound q (feedsClassA s) := by
  unfold feedsClassA
  repeat' first
      | with_reducible assumption
      | with_reducible refine State.modFeed_sound ?_
      | with_reducible refine bmRecompute_sound ?_
      | with_reducible refine localTrack_sound ?_
      | with_reducible refine rdTrack_sound ?_

theorem classAFault_sound {q : List Instr} {s : State} (h : Sound q s) :
    Sound q (classAFault s) := by
  unfold classAFault
  repeat' first
      | with_reducible assumption
      | with_reducible refine State.modFlt_sound ?_
      | with_reducible refine feedsClassA_sound ?_
      | with_reducible refine forEach_sound ?_ ?_
      | with_reducible refine tripPath_sound ?_
      | intro _

theorem faultOne_sound {q : List Instr} {d : FaultDue} {s : State} (h : Sound q s) :
    Sound q (faultOne d s) := by
  unfold faultOne
  repeat' first
      | with_reducible assumption
      | with_reducible refine faultCount_sound ?_
      | with_reducible refine faultCapture_sound ?_
      | with_reducible refine classAFault_sound ?_
      | with_reducible refine faultReact_sound ?_
      | intro _
      | extract_lets
      | with_reducible refine Sound.ite ?_ ?_

theorem settleN_sound {q : List Instr} {x0 : Nat} {s : State} (h : Sound q s) :
    Sound q (settleN x0 s) := by
  induction x0 generalizing s with
  | zero =>
    unfold settleN
    repeat' first
          | with_reducible assumption
  | succ n ih =>
    unfold settleN
    repeat' first
          | with_reducible assumption
          | (with_reducible refine ih ?_)
          | with_reducible refine faultOne_sound ?_
          | with_reducible refine State.modFlt_sound ?_
          | intro _
          | split

theorem settle_sound {q : List Instr} {s : State} (h : Sound q s) :
    Sound q (settle s) := by
  unfold settle
  repeat' first
      | with_reducible assumption
      | with_reducible refine settleN_sound ?_

theorem releaseNext_sound {q : List Instr} {s : State} (h : Sound q s) :
    Sound q (releaseNext s) := by
  unfold releaseNext
  repeat' first
      | with_reducible assumption
      | with_reducible refine State.modFlt_sound ?_
      | with_reducible refine pushEvent_sound ?_
      | with_reducible refine ppKickAll_sound ?_
      | intro _
      | extract_lets
      | with_reducible refine Sound.ite ?_ ?_
      | split

theorem releaseAll_sound {q : List Instr} {x0 : Nat} {s : State} (h : Sound q s) :
    Sound q (releaseAll x0 s) := by
  induction x0 generalizing s with
  | zero =>
    unfold releaseAll
    repeat' first
          | with_reducible assumption
  | succ n ih =>
    unfold releaseAll
    repeat' first
          | with_reducible assumption
          | (with_reducible refine ih ?_)
          | with_reducible refine releaseNext_sound ?_
          | intro _
          | split

theorem recoveryEnd_sound {q : List Instr} {s : State} (h : Sound q s) :
    Sound q (recoveryEnd s) := by
  unfold recoveryEnd
  repeat' first
      | with_reducible assumption
      | with_reducible refine State.modFlt_sound ?_
      | with_reducible refine releaseAll_sound ?_
      | with_reducible refine releaseNext_sound ?_
      | intro _
      | extract_lets
      | with_reducible refine Sound.ite ?_ ?_

theorem evqEntryWords_sound {q : List Instr} {a : Nat} {s : State} (h : Sound q s) :
    Sound q (evqEntryWords a s).2 := by
  unfold evqEntryWords
  repeat' first
      | with_reducible assumption
      | with_reducible refine storeReadWords_sound ?_
      | with_reducible refine raiseFault_sound ?_
      | intro _
      | extract_lets
      | with_reducible refine Sound.ite ?_ ?_
      | split

theorem evqTake_sound {q : List Instr} {s : State} (h : Sound q s) :
    Sound q (evqTake s).2 := by
  unfold evqTake
  repeat' first
      | with_reducible assumption
      | with_reducible refine evqEntryWords_sound ?_
      | with_reducible refine evqDropOldest_sound ?_
      | intro _
      | extract_lets
      | with_reducible refine Sound.ite ?_ ?_
      | split

theorem evqPopRead_sound {q : List Instr} {p : Path} {s : State} (h : Sound q s) :
    Sound q (evqPopRead p s).2 := by
  unfold evqPopRead
  repeat' first
      | with_reducible assumption
      | with_reducible refine evqTake_sound ?_
      | with_reducible refine latchPop_sound ?_
      | with_reducible refine State.modPath_sound ?_
      | intro _
      | extract_lets
      | with_reducible refine Sound.ite ?_ ?_
      | split

theorem evqFlush_sound {q : List Instr} {s : State} (h : Sound q s) :
    Sound q (evqFlush s) := by
  unfold evqFlush
  repeat' first
      | with_reducible assumption
      | with_reducible refine State.modEvq_sound ?_
      | with_reducible refine evqOwe_sound ?_
      | with_reducible refine evqCountLost_sound ?_

theorem windowRead_sound {q : List Instr} {p : Path} {a : Nat} {s : State} (h : Sound q s) :
    Sound q (windowRead p a s).2 := by
  unfold windowRead
  repeat' first
      | with_reducible assumption
      | with_reducible refine storeRead_sound ?_

theorem windowWrite_sound {q : List Instr} {p : Path} {a : Nat} {v : Word} {s : State} (h : Sound q s) :
    Sound q (windowWrite p a v s) := by
  unfold windowWrite
  repeat' first
      | with_reducible assumption
      | with_reducible refine State.setCell_sound ?_
      | with_reducible refine raiseEvt0_sound ?_
      | with_reducible refine State.modSto_sound rfl ?_
      | with_reducible refine storeWrite_sound ?_
      | intro _
      | extract_lets
      | with_reducible refine Sound.ite ?_ ?_

theorem stoClrLog_sound {q : List Instr} {s : State} (h : Sound q s) :
    Sound q (stoClrLog s) := by
  unfold stoClrLog
  repeat' first
      | with_reducible assumption
      | with_reducible refine State.wr_sound ?_
      | with_reducible refine forEach_sound ?_ ?_
      | with_reducible refine State.setReg_sound ?_
      | intro _

theorem stoClrCnt_sound {q : List Instr} {s : State} (h : Sound q s) :
    Sound q (stoClrCnt s) := by
  unfold stoClrCnt
  repeat' first
      | with_reducible assumption
      | with_reducible refine forEach_sound ?_ ?_
      | with_reducible refine State.setReg_sound ?_
      | intro _

theorem stoCmd_sound {q : List Instr} {v : Word} {s : State} (h : Sound q s) :
    Sound q (stoCmd v s) := by
  unfold stoCmd
  repeat' first
      | with_reducible assumption
      | with_reducible refine stoClrCnt_sound ?_
      | with_reducible refine stoClrLog_sound ?_
      | intro _
      | extract_lets
      | with_reducible refine Sound.ite ?_ ?_

theorem ecclogClear_sound {q : List Instr} {k : Nat} {v : Word} {s : State} (h : Sound q s) :
    Sound q (ecclogClear k v s) := by
  unfold ecclogClear
  repeat' first
      | with_reducible assumption
      | with_reducible refine State.setReg_sound ?_
      | intro _
      | split

theorem flipArm_sound {q : List Instr} {p : Path} {v : Word} {s : State} (h : Sound q s) :
    Sound q (flipArm p v s) := by
  unfold flipArm
  repeat' first
      | with_reducible assumption
      | with_reducible refine State.modSto_sound rfl ?_
      | with_reducible refine State.wr_sound ?_
      | intro _
      | split

theorem retireWrite_sound {q : List Instr} {k : Nat} {v : Word} {s : State} (h : Sound q s) :
    Sound q (retireWrite k v s) := by
  unfold retireWrite
  repeat' first
      | with_reducible assumption
      | with_reducible refine State.setReg_sound ?_

theorem scrubSlot_sound {q : List Instr} {s : State} (h : Sound q s) :
    Sound q (scrubSlot s) := by
  unfold scrubSlot
  repeat' first
      | with_reducible assumption
      | with_reducible refine storeRead_sound ?_
      | with_reducible refine State.modSto_sound rfl ?_
      | with_reducible refine raiseEvt0_sound ?_
      | with_reducible refine State.bumpWrap_sound ?_
      | intro _
      | extract_lets
      | with_reducible refine Sound.ite ?_ ?_

theorem pmbEvt_sound {q : List Instr} {k : Nat} {detail : Word} {s : State} (h : Sound q s) :
    Sound q (pmbEvt k detail s) := by
  unfold pmbEvt
  repeat' first
      | with_reducible assumption
      | with_reducible refine raiseEvt_sound ?_

theorem pmbFree_sound {q : List Instr} {s : State} (h : Sound q s) :
    Sound q (pmbFree s) := by
  unfold pmbFree
  repeat' first
      | with_reducible assumption
      | with_reducible refine State.modPmb_sound ?_

theorem pmbMark_sound {q : List Instr} {i : Nat} {t : Target} {c : TgtCause} {s : State} (h : Sound q s) :
    Sound q (pmbMark i t c s) := by
  unfold pmbMark
  repeat' first
      | with_reducible assumption
      | with_reducible refine pmbEvt_sound ?_
      | with_reducible refine State.modTarget_sound ?_
      | with_reducible refine raiseAt_sound ?_
      | intro _
      | extract_lets
      | with_reducible refine Sound.ite ?_ ?_

theorem pmbFaulty_sound {q : List Instr} {i : Nat} {c : TgtCause} {s : State} (h : Sound q s) :
    Sound q (pmbFaulty i c s) := by
  unfold pmbFaulty
  repeat' first
      | with_reducible assumption
      | with_reducible refine pmbMark_sound ?_
      | with_reducible refine portSourceCheck_sound ?_
      | with_reducible refine ppOff_sound ?_
      | with_reducible refine levelDown_sound ?_
      | intro _
      | extract_lets
      | with_reducible refine Sound.ite ?_ ?_
      | split
      | dsimp only
      | (apply Sound.of_pair; assumption)
      | (apply Sound.of; assumption; rfl; rfl; rfl; rfl; rfl)
      | (dsimp +zetaDelta only; split)

theorem pmbFail_sound {q : List Instr} {t : Txn} {c : TgtCause} {s : State} (h : Sound q s) :
    Sound q (pmbFail t c s) := by
  unfold pmbFail
  repeat' first
      | with_reducible assumption
      | with_reducible refine State.modPmb_sound ?_
      | with_reducible refine pmbFaulty_sound ?_
      | with_reducible refine raiseAt_sound ?_
      | with_reducible refine pmbNext_sound ?_
      | intro _
      | extract_lets
      | with_reducible refine Sound.ite ?_ ?_

theorem pmbRepeat_sound {q : List Instr} {t : Txn} {c : TgtCause} {s : State} (h : Sound q s) :
    Sound q (pmbRepeat t c s) := by
  unfold pmbRepeat
  repeat' first
      | with_reducible assumption
      | with_reducible refine pmbFail_sound ?_
      | with_reducible refine pmbPump_sound ?_
      | with_reducible refine State.modPmb_sound ?_
      | intro _
      | split

theorem pmbReread_sound {q : List Instr} {t : Txn} {s : State} (h : Sound q s) :
    Sound q (pmbReread t s) := by
  unfold pmbReread
  repeat' first
      | with_reducible assumption
      | with_reducible refine pmbPump_sound ?_
      | with_reducible refine State.modPmb_sound ?_

theorem pmbVerified_sound {q : List Instr} {i : Nat} {s : State} (h : Sound q s) :
    Sound q (pmbVerified i s) := by
  unfold pmbVerified
  repeat' first
      | with_reducible assumption
      | with_reducible refine pmbEvt_sound ?_
      | with_reducible refine State.modTarget_sound ?_

theorem pmbVerifyNext_sound {q : List Instr} {t : Txn} {k : Nat} {s : State} (h : Sound q s) :
    Sound q (pmbVerifyNext t k s) := by
  unfold pmbVerifyNext
  repeat' first
      | with_reducible assumption
      | with_reducible refine pmbIssue_sound ?_
      | with_reducible refine pmbVerified_sound ?_
      | intro _
      | extract_lets
      | with_reducible refine Sound.ite ?_ ?_
      | split

theorem pmbSucceed_sound {q : List Instr} {t : Txn} {s : State} (h : Sound q s) :
    Sound q (pmbSucceed t s) := by
  unfold pmbSucceed
  repeat' first
      | with_reducible assumption
      | with_reducible refine pmbVerifyNext_sound ?_
      | with_reducible refine State.modTarget_sound ?_
      | with_reducible refine State.modPd_sound ?_
      | with_reducible refine pmbNext_sound ?_
      | intro _
      | extract_lets
      | with_reducible refine Sound.ite ?_ ?_
      | split

theorem pmbClear_sound {q : List Instr} {i : Nat} {s : State} (h : Sound q s) :
    Sound q (pmbClear i s) := by
  unfold pmbClear
  repeat' first
      | with_reducible assumption
      | with_reducible refine pmbRaise_sound ?_

theorem alertAct_sound {q : List Instr} {i : Nat} {v : BitVec 16} {s : State} (h : Sound q s) :
    Sound q (alertAct i v s) := by
  unfold alertAct
  repeat' first
      | with_reducible assumption
      | with_reducible refine pmbEvt_sound ?_
      | with_reducible refine State.modTarget_sound ?_
      | with_reducible refine raiseAt_sound ?_
      | with_reducible refine pmbClear_sound ?_
      | with_reducible refine pmbFaulty_sound ?_
      | intro _
      | extract_lets
      | with_reducible refine Sound.ite ?_ ?_
      | split

theorem alertPolled_sound {q : List Instr} {t : Txn} {v : BitVec 16} {s : State} (h : Sound q s) :
    Sound q (alertPolled t v s) := by
  unfold alertPolled
  repeat' first
      | with_reducible assumption
      | with_reducible refine State.modTarget_sound ?_
      | with_reducible refine pmbNext_sound ?_
      | with_reducible refine alertAct_sound ?_
      | intro _
      | extract_lets
      | with_reducible refine Sound.ite ?_ ?_

theorem alertRound_sound {q : List Instr} {s : State} (h : Sound q s) :
    Sound q (alertRound s) := by
  unfold alertRound
  repeat' first
      | with_reducible assumption
      | with_reducible refine forEach_sound ?_ ?_
      | with_reducible refine pmbRaise_sound ?_
      | intro _
      | split

theorem alertServe_sound {q : List Instr} {addr : BitVec 7} {pecOk : Bool} {ack : PmbAck} {status : BitVec 16} {s : State} (h : Sound q s) :
    Sound q (alertServe addr pecOk ack status s) := by
  unfold alertServe
  repeat' first
      | with_reducible assumption
      | with_reducible refine pmbEvt_sound ?_
      | with_reducible refine State.modPmb_sound ?_
      | with_reducible refine alertAct_sound ?_
      | with_reducible refine State.bump_sound ?_
      | with_reducible refine pmbRaise_sound ?_
      | intro _
      | extract_lets
      | with_reducible refine Sound.ite ?_ ?_
      | split

theorem swResult_sound {q : List Instr} {r : Nat} {s : State} (h : Sound q s) :
    Sound q (swResult r s) := by
  unfold swResult
  repeat' first
      | with_reducible assumption
      | with_reducible refine State.wr_sound ?_

theorem pmbSwGo_sound {q : List Instr} {s : State} (h : Sound q s) :
    Sound q (pmbSwGo s) := by
  unfold pmbSwGo
  repeat' first
      | with_reducible assumption
      | with_reducible refine swResult_sound ?_
      | with_reducible refine pmbRaise_sound ?_
      | with_reducible refine State.modPmb_sound ?_
      | intro _
      | extract_lets
      | with_reducible refine Sound.ite ?_ ?_
      | split

theorem swRecord_sound {q : List Instr} {i : Nat} {code : Nat} {data : BitVec 16} {s : State} (h : Sound q s) :
    Sound q (swRecord i code data s) := by
  unfold swRecord
  repeat' first
      | with_reducible assumption
      | with_reducible refine State.modTarget_sound ?_
      | intro _
      | split

theorem pmbSwDone_sound {q : List Instr} {t : Txn} {ack : PmbAck} {data : BitVec 16} {s : State} (h : Sound q s) :
    Sound q (pmbSwDone t ack data s) := by
  unfold pmbSwDone
  repeat' first
      | with_reducible assumption
      | with_reducible refine State.modPmb_sound ?_
      | with_reducible refine swRecord_sound ?_
      | with_reducible refine State.wr_sound ?_
      | with_reducible refine pmbNext_sound ?_
      | with_reducible refine pmbEvt_sound ?_
      | with_reducible refine swResult_sound ?_
      | intro _
      | extract_lets
      | with_reducible refine Sound.ite ?_ ?_
      | split

theorem pmbJudge_sound {q : List Instr} {t : Txn} {data : BitVec 16} {s : State} (h : Sound q s) :
    Sound q (pmbJudge t data s) := by
  unfold pmbJudge
  repeat' first
      | with_reducible assumption
      | with_reducible refine pmbPump_sound ?_
      | with_reducible refine pmbSucceed_sound ?_
      | with_reducible refine State.modTarget_sound ?_
      | with_reducible refine pmbFail_sound ?_
      | with_reducible refine pmbReread_sound ?_
      | with_reducible refine alertPolled_sound ?_
      | with_reducible refine pmbIssue_sound ?_
      | intro _
      | extract_lets
      | with_reducible refine Sound.ite ?_ ?_
      | split

theorem pmbMiss_sound {q : List Instr} {t : Txn} {c : TgtCause} {s : State} (h : Sound q s) :
    Sound q (pmbMiss t c s) := by
  unfold pmbMiss
  repeat' first
      | with_reducible assumption
      | with_reducible refine State.bump_sound ?_
      | with_reducible refine pmbRepeat_sound ?_
      | intro _
      | extract_lets
      | with_reducible refine Sound.ite ?_ ?_

theorem pmbEnd_sound {q : List Instr} {ack : PmbAck} {data : BitVec 16} {s : State} (h : Sound q s) :
    Sound q (pmbEnd ack data s) := by
  unfold pmbEnd
  repeat' first
      | with_reducible assumption
      | with_reducible refine pmbFree_sound ?_
      | with_reducible refine State.bump_sound ?_
      | with_reducible refine pmbSwDone_sound ?_
      | with_reducible refine pmbNext_sound ?_
      | with_reducible refine pmbIssue_sound ?_
      | with_reducible refine pmbMiss_sound ?_
      | with_reducible refine pmbJudge_sound ?_
      | intro _
      | extract_lets
      | with_reducible refine Sound.ite ?_ ?_
      | split
      | dsimp only
      | (apply Sound.of_pair; assumption)
      | (apply Sound.of; assumption; rfl; rfl; rfl; rfl; rfl)
      | (dsimp +zetaDelta only; split)

theorem pmbBusHeld_sound {q : List Instr} {s : State} (h : Sound q s) :
    Sound q (pmbBusHeld s) := by
  unfold pmbBusHeld
  repeat' first
      | with_reducible assumption
      | with_reducible refine pmbEvt_sound ?_
      | with_reducible refine State.modPmb_sound ?_
      | with_reducible refine raiseAt_sound ?_
      | with_reducible refine forEach_sound ?_ ?_
      | with_reducible refine ppOff_sound ?_
      | intro _
      | extract_lets
      | with_reducible refine Sound.ite ?_ ?_

theorem pmbBusFree_sound {q : List Instr} {s : State} (h : Sound q s) :
    Sound q (pmbBusFree s) := by
  unfold pmbBusFree
  repeat' first
      | with_reducible assumption
      | with_reducible refine ppKickAll_sound ?_
      | with_reducible refine pmbPump_sound ?_
      | with_reducible refine State.modPmb_sound ?_

theorem pmbSlew_sound {q : List Instr} {p : PortId} {s : State} (h : Sound q s) :
    Sound q (pmbSlew p s) := by
  unfold pmbSlew
  repeat' first
      | with_reducible assumption
      | with_reducible refine State.modPd_sound ?_
      | with_reducible refine pmbRaise_sound ?_
      | intro _
      | split

theorem pmbVerifyBits_sound {q : List Instr} {v : Word} {s : State} (h : Sound q s) :
    Sound q (pmbVerifyBits v s) := by
  unfold pmbVerifyBits
  repeat' first
      | with_reducible assumption
      | with_reducible refine forEach_sound ?_ ?_
      | with_reducible refine pmbVerify_sound ?_
      | intro _

theorem State.modEp_sound {q : List Instr} {s : State} {e : Fin 7} {f : EpBuf → EpBuf} (h : Sound q s) :
    Sound q (State.modEp s e f) := by
  unfold State.modEp
  repeat' first
      | with_reducible assumption
      | with_reducible refine State.modEfn_sound ?_

theorem epEmpty_sound {q : List Instr} {e : Fin 7} {s : State} (h : Sound q s) :
    Sound q (epEmpty e s) := by
  unfold epEmpty
  repeat' first
      | with_reducible assumption
      | with_reducible refine State.modEp_sound ?_
      | with_reducible refine State.modCad_sound ?_
      | intro _
      | extract_lets
      | with_reducible refine Sound.ite ?_ ?_

theorem carveTake_sound {q : List Instr} {e : Fin 7} {s : State} (h : Sound q s) :
    Sound q (carveTake e s) := by
  unfold carveTake
  repeat' first
      | with_reducible assumption
      | with_reducible refine epEmpty_sound ?_
      | with_reducible refine State.wr_sound ?_
      | intro _
      | extract_lets
      | with_reducible refine Sound.ite ?_ ?_

theorem carveResult_sound {q : List Instr} {r : Nat} {e : Nat} {s : State} (h : Sound q s) :
    Sound q (carveResult r e s) := by
  unfold carveResult
  repeat' first
      | with_reducible assumption
      | with_reducible refine State.wr_sound ?_
      | with_reducible refine efnEvt_sound ?_
      | intro _
      | extract_lets
      | with_reducible refine Sound.ite ?_ ?_

theorem carveApply_sound {q : List Instr} {s : State} (h : Sound q s) :
    Sound q (carveApply s) := by
  unfold carveApply
  repeat' first
      | with_reducible assumption
      | with_reducible refine carveResult_sound ?_
      | with_reducible refine forEach_sound ?_ ?_
      | with_reducible refine carveTake_sound ?_
      | intro _
      | extract_lets
      | with_reducible refine Sound.ite ?_ ?_
      | split

theorem carveSet_sound {q : List Instr} {c : Carving} {s : State} (h : Sound q s) :
    Sound q (carveSet c s) := by
  unfold carveSet
  repeat' first
      | with_reducible assumption
      | with_reducible refine forEach_sound ?_ ?_
      | with_reducible refine State.wr_sound ?_
      | intro _

theorem epPut_sound {q : List Instr} {e : Fin 7} {l : List Byte} {s : State} (h : Sound q s) :
    Sound q (epPut e l s) := by
  unfold epPut
  repeat' first
      | with_reducible assumption
      | with_reducible refine storeBytes_sound ?_
      | with_reducible refine State.modEp_sound ?_
      | intro _
      | extract_lets
      | with_reducible refine Sound.ite ?_ ?_

theorem epPeek_sound {q : List Instr} {e : Fin 7} {off : Nat} {nn : Nat} {s : State} (h : Sound q s) :
    Sound q (epPeek e off nn s).2 := by
  unfold epPeek
  repeat' first
      | with_reducible assumption
      | with_reducible refine storeReadBytes_sound ?_
      | intro _
      | extract_lets
      | with_reducible refine Sound.ite ?_ ?_
      | split

theorem epDrop_sound {q : List Instr} {e : Fin 7} {nn : Nat} {s : State} (h : Sound q s) :
    Sound q (epDrop e nn s) := by
  unfold epDrop
  repeat' first
      | with_reducible assumption
      | with_reducible refine State.modEp_sound ?_

theorem epQueueIn_sound {q : List Instr} {e : Fin 7} {l : List Byte} {s : State} (h : Sound q s) :
    Sound q (epQueueIn e l s).2 := by
  unfold epQueueIn
  repeat' first
      | with_reducible assumption
      | with_reducible refine State.modEp_sound ?_
      | with_reducible refine epPut_sound ?_
      | intro _
      | split

theorem flashProgram_wf {a : Nat} {l : List Byte} {m : SMap Byte} (h : m.wf flashReset = true) :
    (flashProgram a l m).wf flashReset = true := by
  induction l generalizing a m with
  | nil => exact h
  | cons b l ih => exact ih (SMap.wf_set h)

theorem flashErase_wf {a n : Nat} {m : SMap Byte} (h : m.wf flashReset = true) : (flashErase a n m).wf flashReset = true :=
  SMap.wf_keep h

theorem State.modFlash_program {q : List Instr} {a : Nat} {l : List Byte} {s : State} (h : Sound q s) :
    Sound q (s.modFlash (flashProgram a l)) := Sound.withNvm (s := s) (flashProgram_wf h.flash) h.otp rfl rfl rfl h

theorem State.modFlash_erase {q : List Instr} {a n : Nat} {s : State} (h : Sound q s) :
    Sound q (s.modFlash (flashErase a n)) := Sound.withNvm (s := s) (flashErase_wf h.flash) h.otp rfl rfl rfl h

theorem causeProgram_sound {q : List Instr} {s : State} (h : Sound q s) :
    Sound q (causeProgram s) := by
  unfold causeProgram
  repeat' first
      | with_reducible assumption
      | with_reducible refine State.modFlash_program ?_
      | with_reducible refine State.modFlash_erase ?_
      | with_reducible refine State.modNvm_sound rfl rfl ?_
      | intro _
      | extract_lets
      | with_reducible refine Sound.ite ?_ ?_
      | split

theorem causeConsume_sound {q : List Instr} {k : Nat} {s : State} (h : Sound q s) :
    Sound q (causeConsume k s) := by
  unfold causeConsume
  repeat' first
      | with_reducible assumption
      | with_reducible refine State.modFlash_program ?_

theorem nvmResult_sound {q : List Instr} {r : Nat} {s : State} (h : Sound q s) :
    Sound q (nvmResult r s) := by
  unfold nvmResult
  repeat' first
      | with_reducible assumption
      | with_reducible refine State.wr_sound ?_

theorem nvmBufSet_sound {q : List Instr} {l : List Byte} {s : State} (h : Sound q s) :
    Sound q (nvmBufSet l s) := by
  unfold nvmBufSet
  repeat' first
      | with_reducible assumption
      | with_reducible refine forEach_sound ?_ ?_
      | with_reducible refine State.setReg_sound ?_
      | intro _

theorem nvmBegin_sound {q : List Instr} {op : NvmOp} {s : State} (h : Sound q s) :
    Sound q (nvmBegin op s) := by
  unfold nvmBegin
  repeat' first
      | with_reducible assumption
      | with_reducible refine State.modNvm_sound rfl rfl ?_
      | with_reducible refine nvmResult_sound ?_

theorem nvmErase_sound {q : List Instr} {size : Nat} {s : State} (h : Sound q s) :
    Sound q (nvmErase size s) := by
  unfold nvmErase
  repeat' first
      | with_reducible assumption
      | with_reducible refine nvmResult_sound ?_
      | with_reducible refine nvmBegin_sound ?_
      | intro _
      | extract_lets
      | with_reducible refine Sound.ite ?_ ?_

theorem nvmStart_sound {q : List Instr} {op : Nat} {s : State} (h : Sound q s) :
    Sound q (nvmStart op s) := by
  unfold nvmStart
  repeat' first
      | with_reducible assumption
      | with_reducible refine nvmResult_sound ?_
      | with_reducible refine nvmBegin_sound ?_
      | with_reducible refine nvmErase_sound ?_
      | intro _
      | extract_lets
      | with_reducible refine Sound.ite ?_ ?_
      | split

theorem nvmFinish_sound {q : List Instr} {jedec : BitVec 24} {stuck : Word} {s : State} (h : Sound q s) :
    Sound q (nvmFinish jedec stuck s) := by
  unfold nvmFinish
  have h' : Sound q (s.modNvm fun n => { n with op := none }) := State.modNvm_sound rfl rfl h
  split
  · exact h
  · dsimp only
    split
    · exact nvmResult_sound (nvmBufSet_sound h')
    · exact nvmResult_sound (State.modFlash_program h')
    · exact nvmResult_sound (State.modFlash_erase h')
    · exact nvmResult_sound (State.wr_sound h')
    · exact nvmResult_sound (nvmBufSet_sound (State.modNvm_sound rfl rfl h'))
    · refine nvmResult_sound ?_
      exact Sound.withNvm (s := s) h.flash (SMap.wf_set h.otp) rfl rfl rfl h

theorem causeRaise_sound {q : List Instr} {p : PortId} {s : State} (h : Sound q s) :
    Sound q (causeRaise p s) := by
  unfold causeRaise
  repeat' first
      | with_reducible assumption
      | with_reducible refine nvmResult_sound ?_
      | with_reducible refine State.modNvm_sound rfl rfl ?_
      | intro _
      | extract_lets
      | with_reducible refine Sound.ite ?_ ?_
      | split

end Sys2Proof.Machine
end

