-- ==== Sys2Proof/Laws/Sound4.lean ====
section
/-! SUPPORT. Soundness, carried through PdAct.lean. -/

namespace Sys2Proof.Machine


theorem pdIn_sound {q : List Instr} {p : PortId} {rev2 : Bool} {s : State} (h : Sound q s) :
    Sound q (pdIn p rev2 s) := by
  unfold pdIn
  repeat' first
      | with_reducible assumption
      | with_reducible refine pdHeard_sound ?_
      | with_reducible refine pdRevise_sound ?_
      | intro _
      | extract_lets
      | with_reducible refine Sound.ite ?_ ?_

theorem pdRx_sound {q : List Instr} {p : PortId} {rev2 : Bool} {f : State → State} {s : State}
    (hf : ∀ t, Sound q t → Sound q (f t)) (h : Sound q s) : Sound q (pdRx p rev2 f s) := by
  unfold pdRx
  exact Sound.ite (hf _ (pdIn_sound h)) h

theorem pdSettled_sound {q : List Instr} {p : PortId} {s : State} (h : Sound q s) :
    Sound q (pdSettled p s) := by
  unfold pdSettled
  repeat' first
      | with_reducible assumption
      | with_reducible refine State.modPd_sound ?_

theorem pdRest_sound {q : List Instr} {p : PortId} {s : State} (h : Sound q s) :
    Sound q (pdRest p s) := by
  unfold pdRest
  repeat' first
      | with_reducible assumption
      | with_reducible refine State.modPd_sound ?_

theorem srcFloor_sound {q : List Instr} {p : PortId} {s : State} (h : Sound q s) :
    Sound q (srcFloor p s) := by
  unfold srcFloor
  repeat' first
      | with_reducible assumption
      | with_reducible refine State.modPd_sound ?_

theorem cableStart_sound {q : List Instr} {p : PortId} {s : State} (h : Sound q s) :
    Sound q (cableStart p s) := by
  unfold cableStart
  repeat' first
      | with_reducible assumption
      | with_reducible refine pdSend_sound ?_
      | with_reducible refine State.modPd_sound ?_
      | intro _
      | split

theorem cableIdentity_sound {q : List Instr} {p : PortId} {vdos : List Word} {s : State} (h : Sound q s) :
    Sound q (cableIdentity p vdos s) := by
  unfold cableIdentity
  repeat' first
      | with_reducible assumption
      | with_reducible refine State.wr_sound ?_

theorem cableEnd_sound {q : List Instr} {p : PortId} {s : State} (h : Sound q s) :
    Sound q (cableEnd p s) := by
  unfold cableEnd
  repeat' first
      | with_reducible assumption
      | with_reducible refine pdDiscEnd_sound ?_
      | with_reducible refine State.modPd_sound ?_
      | with_reducible refine State.wr_sound ?_
      | intro _
      | split

theorem pdCableIdentity_sound {q : List Instr} {p : PortId} {vdos : List Word} {s : State} (h : Sound q s) :
    Sound q (pdCableIdentity p vdos s) := by
  unfold pdCableIdentity
  repeat' first
      | with_reducible assumption
      | with_reducible refine cableEnd_sound ?_
      | with_reducible refine cableIdentity_sound ?_
      | intro _
      | extract_lets
      | with_reducible refine Sound.ite ?_ ?_

theorem pdCableRetry_sound {q : List Instr} {p : PortId} {s : State} (h : Sound q s) :
    Sound q (pdCableRetry p s) := by
  unfold pdCableRetry
  repeat' first
      | with_reducible assumption
      | with_reducible refine State.modPd_sound ?_
      | with_reducible refine pdSend_sound ?_
      | with_reducible refine cableEnd_sound ?_
      | intro _
      | extract_lets
      | with_reducible refine Sound.ite ?_ ?_

theorem pdAccept_sound {q : List Instr} {p : PortId} {c : Contract} {s : State} (h : Sound q s) :
    Sound q (pdAccept p c s) := by
  unfold pdAccept
  repeat' first
      | with_reducible assumption
      | with_reducible refine State.modPd_sound ?_
      | with_reducible refine pdSend_sound ?_

theorem pdRequest_sound {q : List Instr} {p : PortId} {rdo : Word} {s : State} (h : Sound q s) :
    Sound q (pdRequest p rdo s) := by
  unfold pdRequest
  repeat' first
      | with_reducible assumption
      | with_reducible refine pdSettled_sound ?_
      | with_reducible refine pdSend_sound ?_
      | with_reducible refine pdAccept_sound ?_
      | with_reducible refine bmWalk_sound ?_
      | with_reducible refine State.modPd_sound ?_
      | with_reducible refine pdSendCaps_sound ?_
      | with_reducible refine pdSendCapsAs_sound ?_
      | intro _
      | extract_lets
      | with_reducible refine Sound.ite ?_ ?_
      | split

theorem pdRequestRx_sound {q : List Instr} {p : PortId} {rev2 : Bool} {rdo : Word} {s : State} (h : Sound q s) :
    Sound q (pdRequestRx p rev2 rdo s) := by
  unfold pdRequestRx
  repeat' first
      | with_reducible assumption
      | with_reducible refine pdRx_sound ?_ ?_
      | with_reducible refine pdRequest_sound ?_
      | intro _
      | split

theorem pdEprRequestRx_sound {q : List Instr} {p : PortId} {rdo : Word} {pdo : Word} {s : State} (h : Sound q s) :
    Sound q (pdEprRequestRx p rdo pdo s) := by
  unfold pdEprRequestRx
  repeat' first
      | with_reducible assumption
      | with_reducible refine pdRx_sound ?_ ?_
      | with_reducible refine pdRequest_sound ?_
      | with_reducible refine pdSend_sound ?_
      | with_reducible refine pdSettled_sound ?_
      | intro _
      | split

theorem pdSrcTransition_sound {q : List Instr} {p : PortId} {s : State} (h : Sound q s) :
    Sound q (pdSrcTransition p s) := by
  unfold pdSrcTransition
  repeat' first
      | with_reducible assumption
      | with_reducible refine State.modPd_sound ?_
      | with_reducible refine pmbVout_sound ?_
      | intro _
      | extract_lets
      | with_reducible refine Sound.ite ?_ ?_
      | split

theorem pdAskSinkCap_sound {q : List Instr} {p : PortId} {first : Bool} {s : State} (h : Sound q s) :
    Sound q (pdAskSinkCap p first s) := by
  unfold pdAskSinkCap
  repeat' first
      | with_reducible assumption
      | with_reducible refine pdStart_sound ?_
      | intro _
      | split

theorem pdEprExitEnd_sound {q : List Instr} {p : PortId} {s : State} (h : Sound q s) :
    Sound q (pdEprExitEnd p s) := by
  unfold pdEprExitEnd
  repeat' first
      | with_reducible assumption
      | with_reducible refine pdSend_sound ?_
      | with_reducible refine State.modPd_sound ?_
      | with_reducible refine pdSendCapsAs_sound ?_
      | with_reducible refine pdEvt_sound ?_
      | intro _
      | extract_lets
      | with_reducible refine Sound.ite ?_ ?_

theorem pdAfterChange_sound {q : List Instr} {p : PortId} {s : State} (h : Sound q s) :
    Sound q (pdAfterChange p s) := by
  unfold pdAfterChange
  repeat' first
      | with_reducible assumption
      | with_reducible refine pmbSlew_sound ?_
      | with_reducible refine pdEprExitEnd_sound ?_
      | with_reducible refine pdSendCaps_sound ?_
      | with_reducible refine pdSendCapsAs_sound ?_
      | intro _
      | extract_lets
      | with_reducible refine Sound.ite ?_ ?_

theorem pdSettledVolt_sound {q : List Instr} {p : PortId} {s : State} (h : Sound q s) :
    Sound q (pdSettledVolt p s) := by
  unfold pdSettledVolt
  repeat' first
      | with_reducible assumption
      | with_reducible refine pdTakeContract_sound ?_
      | with_reducible refine pdSend_sound ?_
      | with_reducible refine pdAfterChange_sound ?_
      | with_reducible refine pdAskSinkCap_sound ?_
      | intro _
      | extract_lets
      | with_reducible refine Sound.ite ?_ ?_
      | split

theorem pdWindowExpire_sound {q : List Instr} {p : PortId} {s : State} (h : Sound q s) :
    Sound q (pdWindowExpire p s) := by
  unfold pdWindowExpire
  repeat' first
      | with_reducible assumption
      | with_reducible refine hardReset_sound ?_
      | with_reducible refine pdEvt_sound ?_
      | with_reducible refine pmbRaise_sound ?_
      | intro _
      | extract_lets
      | with_reducible refine Sound.ite ?_ ?_
      | split

theorem sinkAsk_sound {q : List Instr} {p : PortId} {pos : Nat} {mv : Nat} {ma : Nat} {s : State} (h : Sound q s) :
    Sound q (sinkAsk p pos mv ma s) := by
  unfold sinkAsk
  repeat' first
      | with_reducible assumption
      | with_reducible refine State.modPd_sound ?_
      | with_reducible refine pdSend_sound ?_

theorem puRequest_sound {q : List Instr} {s : State} (h : Sound q s) :
    Sound q (puRequest s) := by
  unfold puRequest
  repeat' first
      | with_reducible assumption
      | with_reducible refine sinkAsk_sound ?_
      | with_reducible refine State.modDyn_sound ?_
      | intro _
      | extract_lets
      | with_reducible refine Sound.ite ?_ ?_
      | split
      | dsimp only
      | (apply Sound.of_pair; assumption)
      | (apply Sound.of; assumption; rfl; rfl; rfl; rfl; rfl)
      | (dsimp +zetaDelta only; split)

theorem pdSourceCapsRx_sound {q : List Instr} {p : PortId} {rev2 : Bool} {epr : Bool} {pdos : List Word} {s : State} (h : Sound q s) :
    Sound q (pdSourceCapsRx p rev2 epr pdos s) := by
  unfold pdSourceCapsRx
  repeat' first
      | with_reducible assumption
      | with_reducible refine pdRx_sound ?_ ?_
      | with_reducible refine State.modPd_sound ?_
      | with_reducible refine pdSettled_sound ?_
      | with_reducible refine puRequest_sound ?_
      | with_reducible refine sinkAsk_sound ?_
      | intro _
      | extract_lets
      | with_reducible refine Sound.ite ?_ ?_

theorem puEnterEpr_sound {q : List Instr} {s : State} (h : Sound q s) :
    Sound q (puEnterEpr s) := by
  unfold puEnterEpr
  repeat' first
      | with_reducible assumption
      | with_reducible refine pdStart_sound ?_
      | intro _
      | extract_lets
      | with_reducible refine Sound.ite ?_ ?_

theorem puContract_sound {q : List Instr} {first : Bool} {s : State} (h : Sound q s) :
    Sound q (puContract first s) := by
  unfold puContract
  repeat' first
      | with_reducible assumption
      | with_reducible refine pdStart_sound ?_
      | with_reducible refine State.modDyn_sound ?_
      | with_reducible refine ppEnterRamp_sound ?_
      | with_reducible refine fcLost_sound ?_
      | with_reducible refine bmRecompute_sound ?_
      | with_reducible refine puEnterEpr_sound ?_
      | intro _
      | extract_lets
      | with_reducible refine Sound.ite ?_ ?_
      | split

theorem swapEnd_sound {q : List Instr} {p : PortId} {s : State} (h : Sound q s) :
    Sound q (swapEnd p s) := by
  unfold swapEnd
  repeat' first
      | with_reducible assumption
      | with_reducible refine pdRest_sound ?_
      | with_reducible refine State.modPd_sound ?_

theorem swapOldOff_sound {q : List Instr} {p : PortId} {s : State} (h : Sound q s) :
    Sound q (swapOldOff p s) := by
  unfold swapOldOff
  repeat' first
      | with_reducible assumption
      | with_reducible refine pdEndContract_sound ?_
      | with_reducible refine State.modPp_sound ?_
      | with_reducible refine ppOff_sound ?_
      | with_reducible refine State.modPd_sound ?_

theorem swapNewWait_sound {q : List Instr} {p : PortId} {s : State} (h : Sound q s) :
    Sound q (swapNewWait p s) := by
  unfold swapNewWait
  repeat' first
      | with_reducible assumption
      | with_reducible refine State.modPd_sound ?_
      | with_reducible refine pdEndContract_sound ?_

theorem swapOldDown_sound {q : List Instr} {p : PortId} {s : State} (h : Sound q s) :
    Sound q (swapOldDown p s) := by
  unfold swapOldDown
  repeat' first
      | with_reducible assumption
      | with_reducible refine tcEnter_sound ?_
      | with_reducible refine State.modPd_sound ?_
      | with_reducible refine pdSend_sound ?_

theorem swapNewUp_sound {q : List Instr} {p : PortId} {s : State} (h : Sound q s) :
    Sound q (swapNewUp p s) := by
  unfold swapNewUp
  repeat' first
      | with_reducible assumption
      | with_reducible refine srcFloor_sound ?_
      | with_reducible refine tcEnter_sound ?_
      | with_reducible refine State.modPd_sound ?_
      | with_reducible refine ppKick_sound ?_
      | with_reducible refine State.modPp_sound ?_

theorem swapNewOn_sound {q : List Instr} {p : PortId} {s : State} (h : Sound q s) :
    Sound q (swapNewOn p s) := by
  unfold swapNewOn
  repeat' first
      | with_reducible assumption
      | with_reducible refine pdEvt_sound ?_
      | with_reducible refine pdSend_sound ?_
      | with_reducible refine State.modPd_sound ?_
      | with_reducible refine pdContractStart_sound ?_

theorem vconnTake_sound {q : List Instr} {p : PortId} {s : State} (h : Sound q s) :
    Sound q (vconnTake p s) := by
  unfold vconnTake
  repeat' first
      | with_reducible assumption
      | with_reducible refine vconnOn_sound ?_
      | with_reducible refine State.modPd_sound ?_
      | with_reducible refine swapEnd_sound ?_
      | with_reducible refine cableStart_sound ?_
      | with_reducible refine pdEvt_sound ?_
      | with_reducible refine pdSend_sound ?_

theorem vconnGive_sound {q : List Instr} {p : PortId} {s : State} (h : Sound q s) :
    Sound q (vconnGive p s) := by
  unfold vconnGive
  repeat' first
      | with_reducible assumption
      | with_reducible refine eprCheck_sound ?_
      | with_reducible refine pdEvt_sound ?_
      | with_reducible refine vconnOff_sound ?_
      | with_reducible refine State.modPd_sound ?_
      | with_reducible refine swapEnd_sound ?_

theorem vconnSwapGo_sound {q : List Instr} {p : PortId} {s : State} (h : Sound q s) :
    Sound q (vconnSwapGo p s) := by
  unfold vconnSwapGo
  repeat' first
      | with_reducible assumption
      | with_reducible refine State.modPd_sound ?_
      | with_reducible refine vconnTake_sound ?_
      | intro _
      | split

theorem vconnSwapLost_sound {q : List Instr} {p : PortId} {s : State} (h : Sound q s) :
    Sound q (vconnSwapLost p s) := by
  unfold vconnSwapLost
  repeat' first
      | with_reducible assumption
      | with_reducible refine swapEnd_sound ?_
      | with_reducible refine pdDiscEnd_sound ?_
      | intro _
      | extract_lets
      | with_reducible refine Sound.ite ?_ ?_

theorem pdPrSwapRx_sound {q : List Instr} {p : PortId} {s : State} (h : Sound q s) :
    Sound q (pdPrSwapRx p s) := by
  unfold pdPrSwapRx
  repeat' first
      | with_reducible assumption
      | with_reducible refine pdRx_sound ?_ ?_
      | with_reducible refine pdSend_sound ?_
      | with_reducible refine pdSettled_sound ?_
      | with_reducible refine State.modPd_sound ?_
      | with_reducible refine swapNewWait_sound ?_
      | intro _
      | extract_lets
      | with_reducible refine Sound.ite ?_ ?_

theorem pdVconnSwapRx_sound {q : List Instr} {p : PortId} {s : State} (h : Sound q s) :
    Sound q (pdVconnSwapRx p s) := by
  unfold pdVconnSwapRx
  repeat' first
      | with_reducible assumption
      | with_reducible refine pdRx_sound ?_ ?_
      | with_reducible refine pdSend_sound ?_
      | with_reducible refine vconnSwapGo_sound ?_
      | intro _
      | split

theorem pdDrSwapRx_sound {q : List Instr} {p : PortId} {s : State} (h : Sound q s) :
    Sound q (pdDrSwapRx p s) := by
  unfold pdDrSwapRx
  repeat' first
      | with_reducible assumption
      | with_reducible refine pdRx_sound ?_ ?_
      | with_reducible refine pdSend_sound ?_
      | intro _

theorem pdFrSwapRx_sound {q : List Instr} {p : PortId} {s : State} (h : Sound q s) :
    Sound q (pdFrSwapRx p s) := by
  unfold pdFrSwapRx
  repeat' first
      | with_reducible assumption
      | with_reducible refine pdRx_sound ?_ ?_
      | with_reducible refine pdSend_sound ?_
      | with_reducible refine State.modPd_sound ?_
      | with_reducible refine pdEscalate_sound ?_
      | intro _
      | split

theorem frsDown_sound {q : List Instr} {p : PortId} {s : State} (h : Sound q s) :
    Sound q (frsDown p s) := by
  unfold frsDown
  repeat' first
      | with_reducible assumption
      | with_reducible refine pdSend_sound ?_
      | with_reducible refine State.modPd_sound ?_

theorem pdFrsNomsg_sound {q : List Instr} {p : PortId} {s : State} (h : Sound q s) :
    Sound q (pdFrsNomsg p s) := by
  unfold pdFrsNomsg
  repeat' first
      | with_reducible assumption
      | with_reducible refine pdEvt_sound ?_
      | with_reducible refine State.modPd_sound ?_
      | intro _
      | split

theorem pdPsSourceTimeout_sound {q : List Instr} {p : PortId} {s : State} (h : Sound q s) :
    Sound q (pdPsSourceTimeout p s) := by
  unfold pdPsSourceTimeout
  repeat' first
      | with_reducible assumption
      | with_reducible refine hardReset_sound ?_
      | intro _
      | split

theorem pdAcceptRx_sound {q : List Instr} {p : PortId} {s : State} (h : Sound q s) : Sound q (pdAcceptRx p s) := by
  unfold pdAcceptRx
  refine pdRx_sound (fun s h => ?_) h
  have h1 := pdSettled_sound (p := p) h
  dsimp only
  generalize (s.port p).pd.await = a
  cases a with
  | none => exact h1
  | some m =>
    cases m with
    | request _ => exact State.modPd_sound h1
    | eprRequest _ _ => exact State.modPd_sound h1
    | softReset =>
      have h2 := pdRest_sound (p := p) h1
      exact Sound.ite (pdSendCapsAs_sound h2) h2
    | prSwap => exact Sound.ite (swapOldOff_sound h1) (swapNewWait_sound h1)
    | vconnSwap => exact vconnSwapGo_sound h1
    | _ => exact h1

theorem pdRefused_sound {q : List Instr} {p : PortId} {s : State} (h : Sound q s) : Sound q (pdRefused p s) := by
  have h1 := pdSettled_sound (p := p) h
  unfold pdRefused
  dsimp only
  generalize (s.port p).pd.await = a
  cases a with
  | none => exact h1
  | some m =>
    cases m with
    | request _ => exact pdRest_sound (State.modPd_sound h1)
    | eprRequest _ _ => exact pdRest_sound (State.modPd_sound h1)
    | softReset => exact hardReset_sound h1
    | prSwap => exact swapEnd_sound h1
    | vconnSwap => exact vconnSwapLost_sound h1
    | _ => exact h1

theorem pdRejectRx_sound {q : List Instr} {p : PortId} {s : State} (h : Sound q s) :
    Sound q (pdRejectRx p s) := by
  unfold pdRejectRx
  repeat' first
      | with_reducible assumption
      | with_reducible refine pdRx_sound ?_ ?_
      | with_reducible refine pdRefused_sound ?_
      | intro _

theorem pdWaitRx_sound {q : List Instr} {p : PortId} {s : State} (h : Sound q s) :
    Sound q (pdWaitRx p s) := by
  unfold pdWaitRx
  repeat' first
      | with_reducible assumption
      | with_reducible refine pdRx_sound ?_ ?_
      | with_reducible refine pdRefused_sound ?_
      | with_reducible refine State.modPd_sound ?_
      | intro _
      | extract_lets
      | with_reducible refine Sound.ite ?_ ?_

theorem pdSinkRequestExpire_sound {q : List Instr} {s : State} (h : Sound q s) :
    Sound q (pdSinkRequestExpire s) := by
  unfold pdSinkRequestExpire
  repeat' first
      | with_reducible assumption
      | with_reducible refine pdSend_sound ?_
      | with_reducible refine State.modPd_sound ?_
      | intro _
      | split

theorem pdPsRdyRx_sound {q : List Instr} {p : PortId} {s : State} (h : Sound q s) :
    Sound q (pdPsRdyRx p s) := by
  unfold pdPsRdyRx
  repeat' first
      | with_reducible assumption
      | with_reducible refine pdRx_sound ?_ ?_
      | with_reducible refine vconnGive_sound ?_
      | with_reducible refine pdEvt_sound ?_
      | with_reducible refine State.modPd_sound ?_
      | with_reducible refine swapNewUp_sound ?_
      | with_reducible refine pdTakeContract_sound ?_
      | with_reducible refine puContract_sound ?_
      | intro _
      | extract_lets
      | with_reducible refine Sound.ite ?_ ?_
      | split

theorem pdResponseRx_sound {q : List Instr} {p : PortId} {r : PdResponse} {s : State} (h : Sound q s) :
    Sound q (pdResponseRx p r s) := by
  unfold pdResponseRx
  repeat' first
      | with_reducible assumption
      | with_reducible refine pdRx_sound ?_ ?_
      | with_reducible refine pdEvt_sound ?_
      | with_reducible refine State.modPd_sound ?_
      | with_reducible refine pdSettled_sound ?_
      | with_reducible refine pdRefused_sound ?_
      | intro _
      | split

theorem pdSinkCapsRx_sound {q : List Instr} {p : PortId} {pdo1 : Word} {s : State} (h : Sound q s) :
    Sound q (pdSinkCapsRx p pdo1 s) := by
  unfold pdSinkCapsRx
  repeat' first
      | with_reducible assumption
      | with_reducible refine pdRx_sound ?_ ?_
      | with_reducible refine State.modPd_sound ?_
      | with_reducible refine pdSettled_sound ?_
      | intro _
      | split

theorem pdSoftResetRx_sound {q : List Instr} {p : PortId} {s : State} (h : Sound q s) :
    Sound q (pdSoftResetRx p s) := by
  unfold pdSoftResetRx
  repeat' first
      | with_reducible assumption
      | with_reducible refine pdRx_sound ?_ ?_
      | with_reducible refine hardReset_sound ?_
      | with_reducible refine State.modPd_sound ?_
      | with_reducible refine pdSend_sound ?_
      | with_reducible refine pdRest_sound ?_
      | with_reducible refine pdEvt_sound ?_
      | with_reducible refine pdSendCaps_sound ?_
      | with_reducible refine pdSendCapsAs_sound ?_
      | intro _
      | extract_lets
      | with_reducible refine Sound.ite ?_ ?_

theorem pdHardResetRx_sound {q : List Instr} {p : PortId} {s : State} (h : Sound q s) :
    Sound q (pdHardResetRx p s) := by
  unfold pdHardResetRx
  repeat' first
      | with_reducible assumption
      | with_reducible refine causeRaise_sound ?_
      | with_reducible refine pdHardResetRxCore_sound ?_
      | with_reducible refine State.modPd_sound ?_
      | with_reducible refine hardResetCommon_sound ?_
      | intro _
      | extract_lets
      | with_reducible refine Sound.ite ?_ ?_

theorem pdPsHardReset_sound {q : List Instr} {p : PortId} {s : State} (h : Sound q s) :
    Sound q (pdPsHardReset p s) := by
  unfold pdPsHardReset
  repeat' first
      | with_reducible assumption
      | with_reducible refine ppOff_sound ?_
      | with_reducible refine State.modPd_sound ?_
      | with_reducible refine State.modPp_sound ?_
      | intro _
      | split

theorem pdSrcRecover_sound {q : List Instr} {p : PortId} {s : State} (h : Sound q s) :
    Sound q (pdSrcRecover p s) := by
  unfold pdSrcRecover
  repeat' first
      | with_reducible assumption
      | with_reducible refine ppKick_sound ?_
      | with_reducible refine State.modPd_sound ?_
      | with_reducible refine State.modPp_sound ?_
      | intro _
      | split

theorem pdVbusDown_sound {q : List Instr} {p : PortId} {l : VbusLevel} {s : State} (h : Sound q s) :
    Sound q (pdVbusDown p l s) := by
  unfold pdVbusDown
  repeat' first
      | with_reducible assumption
      | with_reducible refine State.modPd_sound ?_
      | with_reducible refine swapOldDown_sound ?_
      | with_reducible refine frsDown_sound ?_
      | intro _
      | extract_lets
      | with_reducible refine Sound.ite ?_ ?_
      | split

theorem pdSenderTimeout_sound {q : List Instr} {p : PortId} {s : State} (h : Sound q s) :
    Sound q (pdSenderTimeout p s) := by
  unfold pdSenderTimeout
  repeat' first
      | with_reducible assumption
      | with_reducible refine hardReset_sound ?_
      | with_reducible refine pdEscalate_sound ?_
      | with_reducible refine vconnSwapLost_sound ?_
      | with_reducible refine pdSettled_sound ?_
      | with_reducible refine State.modPd_sound ?_
      | intro _
      | extract_lets
      | with_reducible refine Sound.ite ?_ ?_
      | split

theorem pdCapsRepeat_sound {q : List Instr} {p : PortId} {s : State} (h : Sound q s) :
    Sound q (pdCapsRepeat p s) := by
  unfold pdCapsRepeat
  repeat' first
      | with_reducible assumption
      | with_reducible refine pdSendCapsAs_sound ?_
      | with_reducible refine State.modPd_sound ?_
      | intro _
      | extract_lets
      | with_reducible refine Sound.ite ?_ ?_

theorem pdNoGoodcrc_sound {q : List Instr} {p : PortId} {s : State} (h : Sound q s) :
    Sound q (pdNoGoodcrc p s) := by
  unfold pdNoGoodcrc
  repeat' first
      | with_reducible assumption
      | with_reducible refine State.modPd_sound ?_
      | with_reducible refine bmHardLimit_sound ?_
      | with_reducible refine pdEscalate_sound ?_
      | intro _
      | extract_lets
      | with_reducible refine Sound.ite ?_ ?_
      | split

theorem pdGoodcrc_sound {q : List Instr} {p : PortId} {s : State} (h : Sound q s) :
    Sound q (pdGoodcrc p s) := by
  unfold pdGoodcrc
  repeat' first
      | with_reducible assumption
      | with_reducible refine State.modPd_sound ?_
      | with_reducible refine swapOldOff_sound ?_
      | intro _
      | extract_lets
      | with_reducible refine Sound.ite ?_ ?_
      | split

theorem foldl_sound {q : List Instr} {α : Type} {l : List α} {f : State → α → State} {s : State}
    (hf : ∀ t x, Sound q t → Sound q (f t x)) (h : Sound q s) : Sound q (l.foldl f s) := by
  induction l generalizing s with
  | nil => exact h
  | cons x l ih => exact ih (hf s x h)

theorem pdSinkTx_sound {q : List Instr} {p : PortId} {s : State} (h : Sound q s) : Sound q (pdSinkTx p s) :=
  foldl_sound (fun _ _ ht => pdSend_sound ht) (State.modPd_sound h)

theorem pdKeepaliveLost_sound {q : List Instr} {p : PortId} {s : State} (h : Sound q s) :
    Sound q (pdKeepaliveLost p s) := by
  unfold pdKeepaliveLost
  repeat' first
      | with_reducible assumption
      | with_reducible refine State.modPd_sound ?_
      | with_reducible refine notice_sound ?_
      | with_reducible refine hardReset_sound ?_
      | with_reducible refine pdEvt_sound ?_
      | intro _
      | split

theorem puKeepalive_sound {q : List Instr} {s : State} (h : Sound q s) :
    Sound q (puKeepalive s) := by
  unfold puKeepalive
  repeat' first
      | with_reducible assumption
      | with_reducible refine pdSend_sound ?_
      | intro _
      | extract_lets
      | with_reducible refine Sound.ite ?_ ?_

theorem pdEprExitTimeout_sound {q : List Instr} {p : PortId} {s : State} (h : Sound q s) :
    Sound q (pdEprExitTimeout p s) := by
  unfold pdEprExitTimeout
  repeat' first
      | with_reducible assumption
      | with_reducible refine hardReset_sound ?_
      | intro _
      | split

theorem pdHrstWithheld_sound {q : List Instr} {s : State} (h : Sound q s) :
    Sound q (pdHrstWithheld s) := by
  unfold pdHrstWithheld
  repeat' first
      | with_reducible assumption
      | with_reducible refine hardReset_sound ?_
      | intro _
      | split

theorem pdGetSourceCapRx_sound {q : List Instr} {p : PortId} {epr : Bool} {s : State} (h : Sound q s) :
    Sound q (pdGetSourceCapRx p epr s) := by
  unfold pdGetSourceCapRx
  repeat' first
      | with_reducible assumption
      | with_reducible refine pdRx_sound ?_ ?_
      | with_reducible refine pdSendCapsAs_sound ?_
      | with_reducible refine pdSend_sound ?_
      | intro _
      | split

theorem pdGetSinkCapRx_sound {q : List Instr} {p : PortId} {epr : Bool} {s : State} (h : Sound q s) :
    Sound q (pdGetSinkCapRx p epr s) := by
  unfold pdGetSinkCapRx
  repeat' first
      | with_reducible assumption
      | with_reducible refine pdRx_sound ?_ ?_
      | with_reducible refine pdSend_sound ?_
      | intro _

theorem pdEprModeEnterRx_sound {q : List Instr} {p : PortId} {s : State} (h : Sound q s) :
    Sound q (pdEprModeEnterRx p s) := by
  unfold pdEprModeEnterRx
  repeat' first
      | with_reducible assumption
      | with_reducible refine pdRx_sound ?_ ?_
      | with_reducible refine pdSend_sound ?_
      | with_reducible refine pdSendCapsAs_sound ?_
      | with_reducible refine pdEvt_sound ?_
      | with_reducible refine State.modPd_sound ?_
      | intro _
      | extract_lets
      | with_reducible refine Sound.ite ?_ ?_
      | split
      | dsimp only
      | (apply Sound.of_pair; assumption)
      | (apply Sound.of; assumption; rfl; rfl; rfl; rfl; rfl)
      | (dsimp +zetaDelta only; split)

theorem pdEprModeExitRx_sound {q : List Instr} {p : PortId} {s : State} (h : Sound q s) :
    Sound q (pdEprModeExitRx p s) := by
  unfold pdEprModeExitRx
  repeat' first
      | with_reducible assumption
      | with_reducible refine pdRx_sound ?_ ?_
      | with_reducible refine pdEvt_sound ?_
      | with_reducible refine State.modPd_sound ?_
      | with_reducible refine pdSendCapsAs_sound ?_
      | intro _
      | extract_lets
      | with_reducible refine Sound.ite ?_ ?_

theorem pdEprKeepaliveRx_sound {q : List Instr} {p : PortId} {s : State} (h : Sound q s) :
    Sound q (pdEprKeepaliveRx p s) := by
  unfold pdEprKeepaliveRx
  repeat' first
      | with_reducible assumption
      | with_reducible refine pdRx_sound ?_ ?_
      | with_reducible refine pdSend_sound ?_
      | intro _

theorem pdAlertRx_sound {q : List Instr} {p : PortId} {ado : Word} {s : State} (h : Sound q s) :
    Sound q (pdAlertRx p ado s) := by
  unfold pdAlertRx
  repeat' first
      | with_reducible assumption
      | with_reducible refine pdRx_sound ?_ ?_
      | with_reducible refine State.modPd_sound ?_
      | with_reducible refine pdStart_sound ?_
      | intro _
      | extract_lets
      | with_reducible refine Sound.ite ?_ ?_

theorem pdGetStatusRx_sound {q : List Instr} {p : PortId} {s : State} (h : Sound q s) :
    Sound q (pdGetStatusRx p s) := by
  unfold pdGetStatusRx
  repeat' first
      | with_reducible assumption
      | with_reducible refine pdRx_sound ?_ ?_
      | with_reducible refine pdSend_sound ?_
      | with_reducible refine State.modPd_sound ?_
      | intro _
      | extract_lets
      | with_reducible refine Sound.ite ?_ ?_

theorem pdGetSourceInfoRx_sound {q : List Instr} {p : PortId} {s : State} (h : Sound q s) :
    Sound q (pdGetSourceInfoRx p s) := by
  unfold pdGetSourceInfoRx
  repeat' first
      | with_reducible assumption
      | with_reducible refine pdRx_sound ?_ ?_
      | with_reducible refine pdSend_sound ?_
      | intro _
      | split

theorem pdGetRevisionRx_sound {q : List Instr} {p : PortId} {s : State} (h : Sound q s) :
    Sound q (pdGetRevisionRx p s) := by
  unfold pdGetRevisionRx
  repeat' first
      | with_reducible assumption
      | with_reducible refine pdRx_sound ?_ ?_
      | with_reducible refine pdSend_sound ?_
      | intro _

theorem pdGetSrcCapExtRx_sound {q : List Instr} {p : PortId} {s : State} (h : Sound q s) :
    Sound q (pdGetSrcCapExtRx p s) := by
  unfold pdGetSrcCapExtRx
  repeat' first
      | with_reducible assumption
      | with_reducible refine pdRx_sound ?_ ?_
      | with_reducible refine pdSend_sound ?_
      | intro _

theorem pdGetSnkCapExtRx_sound {q : List Instr} {p : PortId} {s : State} (h : Sound q s) :
    Sound q (pdGetSnkCapExtRx p s) := by
  unfold pdGetSnkCapExtRx
  repeat' first
      | with_reducible assumption
      | with_reducible refine pdRx_sound ?_ ?_
      | with_reducible refine pdSend_sound ?_
      | intro _

theorem pdBistRx_sound {q : List Instr} {p : PortId} {carrier : Bool} {s : State} (h : Sound q s) :
    Sound q (pdBistRx p carrier s) := by
  unfold pdBistRx
  repeat' first
      | with_reducible assumption
      | with_reducible refine pdRx_sound ?_ ?_
      | with_reducible refine pdSend_sound ?_
      | with_reducible refine State.modPd_sound ?_
      | intro _
      | split

theorem pdUnsupportedRx_sound {q : List Instr} {p : PortId} {s : State} (h : Sound q s) :
    Sound q (pdUnsupportedRx p s) := by
  unfold pdUnsupportedRx
  repeat' first
      | with_reducible assumption
      | with_reducible refine pdRx_sound ?_ ?_
      | with_reducible refine pdSend_sound ?_
      | intro _

theorem pdIgnoredRx_sound {q : List Instr} {p : PortId} {s : State} (h : Sound q s) :
    Sound q (pdIgnoredRx p s) := by
  unfold pdIgnoredRx
  repeat' first
      | with_reducible assumption
      | with_reducible refine pdRx_sound ?_ ?_
      | intro _
      | split
      | dsimp only
      | (apply Sound.of_pair; assumption)
      | (apply Sound.of; assumption; rfl; rfl; rfl; rfl; rfl)

theorem pdSvdmRx_sound {q : List Instr} {p : PortId} {hh : Word} {s : State} (h : Sound q s) :
    Sound q (pdSvdmRx p hh s) := by
  unfold pdSvdmRx
  repeat' first
      | with_reducible assumption
      | with_reducible refine pdRx_sound ?_ ?_
      | with_reducible refine sendVdm_sound ?_
      | intro _
      | extract_lets
      | with_reducible refine Sound.ite ?_ ?_

theorem bmTick_sound {q : List Instr} {vin : Nat} {s : State} (h : Sound q s) :
    Sound q (bmTick vin s) := by
  unfold bmTick
  repeat' first
      | with_reducible assumption
      | with_reducible refine bmRecompute_sound ?_
      | with_reducible refine State.modBm_sound ?_
      | intro _
      | split

theorem bmRenegTimeout_sound {q : List Instr} {p : PortId} {s : State} (h : Sound q s) :
    Sound q (bmRenegTimeout p s) := by
  unfold bmRenegTimeout
  repeat' first
      | with_reducible assumption
      | with_reducible refine bmSettle_sound ?_
      | with_reducible refine bmHardLimit_sound ?_
      | intro _
      | extract_lets
      | with_reducible refine Sound.ite ?_ ?_
      | split

theorem bmRaise_sound {q : List Instr} {s : State} (h : Sound q s) :
    Sound q (bmRaise s) := by
  unfold bmRaise
  repeat' first
      | with_reducible assumption
      | with_reducible refine State.modBm_sound ?_
      | with_reducible refine forEach_sound ?_ ?_
      | with_reducible refine bmRelease_sound ?_
      | with_reducible refine pdSendCaps_sound ?_
      | with_reducible refine pdSendCapsAs_sound ?_
      | intro _
      | extract_lets
      | with_reducible refine Sound.ite ?_ ?_

theorem pdCmdRej_sound {q : List Instr} {p : PortId} {s : State} (h : Sound q s) :
    Sound q (pdCmdRej p s) := by
  unfold pdCmdRej
  repeat' first
      | with_reducible assumption
      | with_reducible refine pdEvt_sound ?_

theorem pdCmdSoftReset_sound {q : List Instr} {p : PortId} {s : State} (h : Sound q s) :
    Sound q (pdCmdSoftReset p s) := by
  unfold pdCmdSoftReset
  repeat' first
      | with_reducible assumption
      | with_reducible refine pdSoftReset_sound ?_
      | with_reducible refine pdCmdRej_sound ?_
      | intro _
      | split

theorem pdCmdHardReset_sound {q : List Instr} {p : PortId} {s : State} (h : Sound q s) :
    Sound q (pdCmdHardReset p s) := by
  unfold pdCmdHardReset
  repeat' first
      | with_reducible assumption
      | with_reducible refine pdCmdRej_sound ?_
      | with_reducible refine hardResetNow_sound ?_
      | intro _
      | extract_lets
      | with_reducible refine Sound.ite ?_ ?_

theorem pdPrSwapStart_sound {q : List Instr} {p : PortId} {s : State} (h : Sound q s) :
    Sound q (pdPrSwapStart p s) := by
  unfold pdPrSwapStart
  repeat' first
      | with_reducible assumption
      | with_reducible refine pdStart_sound ?_
      | with_reducible refine State.modPd_sound ?_

theorem pdCmdPrSwap_sound {q : List Instr} {p : PortId} {s : State} (h : Sound q s) :
    Sound q (pdCmdPrSwap p s) := by
  unfold pdCmdPrSwap
  repeat' first
      | with_reducible assumption
      | with_reducible refine pdPrSwapStart_sound ?_
      | with_reducible refine pdCmdRej_sound ?_
      | intro _
      | split

theorem pdCmdVconnSwap_sound {q : List Instr} {p : PortId} {s : State} (h : Sound q s) :
    Sound q (pdCmdVconnSwap p s) := by
  unfold pdCmdVconnSwap
  repeat' first
      | with_reducible assumption
      | with_reducible refine pdStart_sound ?_
      | with_reducible refine pdCmdRej_sound ?_
      | intro _
      | split

theorem pdCmdSendCaps_sound {q : List Instr} {p : PortId} {s : State} (h : Sound q s) :
    Sound q (pdCmdSendCaps p s) := by
  unfold pdCmdSendCaps
  repeat' first
      | with_reducible assumption
      | with_reducible refine pdSendCaps_sound ?_
      | with_reducible refine pdSendCapsAs_sound ?_
      | with_reducible refine pdCmdRej_sound ?_
      | intro _
      | extract_lets
      | with_reducible refine Sound.ite ?_ ?_

theorem pdCmdGetSinkCap_sound {q : List Instr} {p : PortId} {s : State} (h : Sound q s) :
    Sound q (pdCmdGetSinkCap p s) := by
  unfold pdCmdGetSinkCap
  repeat' first
      | with_reducible assumption
      | with_reducible refine pdStart_sound ?_
      | with_reducible refine pdCmdRej_sound ?_
      | intro _
      | split

theorem pdCmdEprExit_sound {q : List Instr} {p : PortId} {s : State} (h : Sound q s) :
    Sound q (pdCmdEprExit p s) := by
  unfold pdCmdEprExit
  repeat' first
      | with_reducible assumption
      | with_reducible refine eprExitStart_sound ?_
      | with_reducible refine pdCmdRej_sound ?_
      | intro _
      | extract_lets
      | with_reducible refine Sound.ite ?_ ?_

theorem pdCmd_sound {q : List Instr} {p : PortId} {v : Word} {s : State} (h : Sound q s) :
    Sound q (pdCmd p v s) := by
  unfold pdCmd
  repeat' first
      | with_reducible assumption
      | with_reducible refine pdCmdEprExit_sound ?_
      | with_reducible refine pdCmdGetSinkCap_sound ?_
      | with_reducible refine pdCmdSendCaps_sound ?_
      | with_reducible refine pdCmdVconnSwap_sound ?_
      | with_reducible refine pdCmdPrSwap_sound ?_
      | with_reducible refine pdCmdHardReset_sound ?_
      | with_reducible refine pdCmdSoftReset_sound ?_
      | intro _
      | extract_lets
      | with_reducible refine Sound.ite ?_ ?_

end Sys2Proof.Machine
end

