-- ==== Sys2Proof/Laws/Sound5.lean ====
section
/-! SUPPORT. Soundness, carried through TcAct.lean, CadQueue.lean, CadAct.lean. -/

namespace Sys2Proof.Machine


theorem tcAttach_sound {q : List Instr} {p : PortId} {st : TcState} {orient : Bool} {s : State} (h : Sound q s) :
    Sound q (tcAttach p st orient s) := by
  unfold tcAttach
  repeat' first
      | with_reducible assumption
      | with_reducible refine tcEnter_sound ?_
      | with_reducible refine State.setReg_sound ?_
      | with_reducible refine tcEvt_sound ?_
      | with_reducible refine State.modTc_sound ?_

theorem tcVconnTrack_sound {q : List Instr} {p : PortId} {s : State} (h : Sound q s) :
    Sound q (tcVconnTrack p s) := by
  unfold tcVconnTrack
  repeat' first
      | with_reducible assumption
      | with_reducible refine State.modTc_sound ?_
      | with_reducible refine vconnOn_sound ?_
      | intro _
      | extract_lets
      | with_reducible refine Sound.ite ?_ ?_

theorem attachSrc_sound {q : List Instr} {p : PortId} {s : State} (h : Sound q s) :
    Sound q (attachSrc p s) := by
  unfold attachSrc
  repeat' first
      | with_reducible assumption
      | with_reducible refine tcAttach_sound ?_
      | with_reducible refine State.modPd_sound ?_
      | with_reducible refine srcFloor_sound ?_
      | with_reducible refine tcVconnTrack_sound ?_
      | with_reducible refine State.modTc_sound ?_
      | with_reducible refine ppKick_sound ?_
      | with_reducible refine bmWalk_sound ?_
      | with_reducible refine State.modPp_sound ?_

theorem attachSnk_sound {q : List Instr} {p : PortId} {s : State} (h : Sound q s) :
    Sound q (attachSnk p s) := by
  unfold attachSnk
  repeat' first
      | with_reducible assumption
      | with_reducible refine tcAttach_sound ?_
      | with_reducible refine State.modPd_sound ?_

theorem tcUnattach_sound {q : List Instr} {p : PortId} {st : TcState} {s : State} (h : Sound q s) :
    Sound q (tcUnattach p st s) := by
  unfold tcUnattach
  repeat' first
      | with_reducible assumption
      | with_reducible refine State.modTc_sound ?_
      | with_reducible refine tcEnter_sound ?_
      | intro _
      | extract_lets
      | with_reducible refine Sound.ite ?_ ?_

theorem tcAccessory_sound {q : List Instr} {p : PortId} {s : State} (h : Sound q s) :
    Sound q (tcAccessory p s) := by
  unfold tcAccessory
  repeat' first
      | with_reducible assumption
      | with_reducible refine tcEvt_sound ?_
      | with_reducible refine State.modTc_sound ?_
      | intro _
      | split

theorem puSnkPartner_sound {q : List Instr} {s : State} (h : Sound q s) :
    Sound q (puSnkPartner s) := by
  unfold puSnkPartner
  repeat' first
      | with_reducible assumption
      | with_reducible refine tcUnattach_sound ?_
      | with_reducible refine tcEvt_sound ?_

theorem tcCcChange_sound {q : List Instr} {p : PortId} {cc1 : CcTerm} {cc2 : CcTerm} {s : State} (h : Sound q s) :
    Sound q (tcCcChange p cc1 cc2 s) := by
  unfold tcCcChange
  repeat' first
      | with_reducible assumption
      | with_reducible refine State.modTc_sound ?_
      | with_reducible refine tcEnter_sound ?_
      | with_reducible refine tcUnattach_sound ?_
      | with_reducible refine tcAccessory_sound ?_
      | with_reducible refine attachSrc_sound ?_
      | with_reducible refine puSnkPartner_sound ?_
      | with_reducible refine tcVconnTrack_sound ?_
      | with_reducible refine pdSinkTx_sound ?_
      | intro _
      | extract_lets
      | with_reducible refine Sound.ite ?_ ?_
      | split

theorem tcDrpToggle_sound {q : List Instr} {p : PortId} {s : State} (h : Sound q s) :
    Sound q (tcDrpToggle p s) := by
  unfold tcDrpToggle
  repeat' first
      | with_reducible assumption
      | with_reducible refine State.modTc_sound ?_
      | with_reducible refine tcEnter_sound ?_
      | intro _
      | extract_lets
      | with_reducible refine Sound.ite ?_ ?_
      | split

theorem tcDebounce_sound {q : List Instr} {p : PortId} {vbus : Nat} {s : State} (h : Sound q s) :
    Sound q (tcDebounce p vbus s) := by
  unfold tcDebounce
  repeat' first
      | with_reducible assumption
      | with_reducible refine tcEnter_sound ?_
      | with_reducible refine puSnkPartner_sound ?_
      | with_reducible refine attachSrc_sound ?_
      | with_reducible refine State.modTc_sound ?_
      | with_reducible refine attachSnk_sound ?_
      | intro _
      | extract_lets
      | with_reducible refine Sound.ite ?_ ?_
      | split

theorem tcDrpTry_sound {q : List Instr} {p : PortId} {s : State} (h : Sound q s) :
    Sound q (tcDrpTry p s) := by
  unfold tcDrpTry
  repeat' first
      | with_reducible assumption
      | with_reducible refine State.modTc_sound ?_
      | with_reducible refine tcEnter_sound ?_
      | intro _
      | extract_lets
      | with_reducible refine Sound.ite ?_ ?_
      | split

theorem tcTryTimeout_sound {q : List Instr} {p : PortId} {s : State} (h : Sound q s) :
    Sound q (tcTryTimeout p s) := by
  unfold tcTryTimeout
  repeat' first
      | with_reducible assumption
      | with_reducible refine State.modTc_sound ?_
      | with_reducible refine tcEnter_sound ?_
      | intro _
      | extract_lets
      | with_reducible refine Sound.ite ?_ ?_
      | split

theorem tcTryWait_sound {q : List Instr} {p : PortId} {s : State} (h : Sound q s) :
    Sound q (tcTryWait p s) := by
  unfold tcTryWait
  repeat' first
      | with_reducible assumption
      | with_reducible refine tcUnattach_sound ?_
      | intro _
      | split

theorem tcDetachRow_sound {q : List Instr} {p : PortId} {s : State} (h : Sound q s) :
    Sound q (tcDetachRow p s) := by
  unfold tcDetachRow
  repeat' first
      | with_reducible assumption
      | with_reducible refine portDetach_sound ?_
      | intro _
      | split

theorem tcVbusLate_sound {q : List Instr} {p : PortId} {s : State} (h : Sound q s) :
    Sound q (tcVbusLate p s) := by
  unfold tcVbusLate
  repeat' first
      | with_reducible assumption
      | with_reducible refine portErrRecovery_sound ?_
      | with_reducible refine tcEvt_sound ?_
      | intro _
      | split

theorem tcRecoveryEnd_sound {q : List Instr} {p : PortId} {s : State} (h : Sound q s) :
    Sound q (tcRecoveryEnd p s) := by
  unfold tcRecoveryEnd
  repeat' first
      | with_reducible assumption
      | with_reducible refine tcUnattach_sound ?_
      | intro _
      | split

theorem vconnCut_sound {q : List Instr} {p : PortId} {s : State} (h : Sound q s) :
    Sound q (vconnCut p s) := by
  unfold vconnCut
  repeat' first
      | with_reducible assumption
      | with_reducible refine State.modTc_sound ?_
      | with_reducible refine State.wr_sound ?_
      | with_reducible refine raiseAt_sound ?_
      | with_reducible refine tcEvt_sound ?_
      | with_reducible refine pdTableChanged_sound ?_
      | with_reducible refine eprCheck_sound ?_

theorem vconnOc_sound {q : List Instr} {p : PortId} {s : State} (h : Sound q s) :
    Sound q (vconnOc p s) := by
  unfold vconnOc
  repeat' first
      | with_reducible assumption
      | with_reducible refine vconnCut_sound ?_
      | intro _
      | split

theorem vconnTotalOc_sound {q : List Instr} {s : State} (h : Sound q s) :
    Sound q (vconnTotalOc s) := by
  unfold vconnTotalOc
  repeat' first
      | with_reducible assumption
      | with_reducible refine vconnCut_sound ?_
      | intro _
      | split

theorem ccOvp_sound {q : List Instr} {p : PortId} {s : State} (h : Sound q s) :
    Sound q (ccOvp p s) := by
  unfold ccOvp
  repeat' first
      | with_reducible assumption
      | with_reducible refine fcLost_sound ?_
      | with_reducible refine tcLeave_sound ?_
      | with_reducible refine State.modCl_sound ?_
      | with_reducible refine hubDetach_sound ?_
      | with_reducible refine raiseAt_sound ?_
      | with_reducible refine tcEvt_sound ?_
      | intro _
      | extract_lets
      | with_reducible refine Sound.ite ?_ ?_

theorem ccOvpClear_sound {q : List Instr} {p : PortId} {s : State} (h : Sound q s) :
    Sound q (ccOvpClear p s) := by
  unfold ccOvpClear
  repeat' first
      | with_reducible assumption
      | with_reducible refine tcRecoverNow_sound ?_
      | with_reducible refine State.modCl_sound ?_
      | intro _
      | split

theorem sbuOvp_sound {q : List Instr} {p : PortId} {s : State} (h : Sound q s) :
    Sound q (sbuOvp p s) := by
  unfold sbuOvp
  repeat' first
      | with_reducible assumption
      | with_reducible refine State.modCl_sound ?_
      | with_reducible refine linkDown_sound ?_
      | with_reducible refine raiseAt_sound ?_
      | with_reducible refine tcEvt_sound ?_
      | intro _
      | extract_lets
      | with_reducible refine Sound.ite ?_ ?_

theorem sbuOvpClear_sound {q : List Instr} {p : PortId} {s : State} (h : Sound q s) :
    Sound q (sbuOvpClear p s) := by
  unfold sbuOvpClear
  repeat' first
      | with_reducible assumption
      | with_reducible refine State.modCl_sound ?_
      | intro _
      | split

theorem moistDue_sound {q : List Instr} {p : PortId} {s : State} (h : Sound q s) :
    Sound q (moistDue p s) := by
  unfold moistDue
  repeat' first
      | with_reducible assumption
      | with_reducible refine tcEnter_sound ?_
      | with_reducible refine State.modTc_sound ?_
      | intro _
      | split

theorem moistCmd_sound {q : List Instr} {p : PortId} {s : State} (h : Sound q s) :
    Sound q (moistCmd p s) := by
  unfold moistCmd
  repeat' first
      | with_reducible assumption
      | with_reducible refine moistDue_sound ?_
      | intro _
      | split

theorem massPort_sound {q : List Instr} {p : PortId} {s : State} (h : Sound q s) :
    Sound q (massPort p s) := by
  unfold massPort
  repeat' first
      | with_reducible assumption
      | with_reducible refine portHold_sound ?_
      | with_reducible refine tcEnter_sound ?_
      | with_reducible refine State.modTc_sound ?_
      | intro _
      | extract_lets
      | with_reducible refine Sound.ite ?_ ?_
      | split

theorem massCheck_sound {q : List Instr} {s : State} (h : Sound q s) :
    Sound q (massCheck s) := by
  unfold massCheck
  repeat' first
      | with_reducible assumption
      | with_reducible refine forEach_sound ?_ ?_
      | with_reducible refine massPort_sound ?_
      | with_reducible refine raiseAt_sound ?_
      | intro _
      | extract_lets
      | with_reducible refine Sound.ite ?_ ?_
      | split
      | dsimp only
      | (apply Sound.of_pair; assumption)
      | (apply Sound.of; assumption; rfl; rfl; rfl; rfl; rfl)

theorem moistReadWet_sound {q : List Instr} {p : PortId} {s : State} (h : Sound q s) :
    Sound q (moistReadWet p s) := by
  unfold moistReadWet
  repeat' first
      | with_reducible assumption
      | with_reducible refine State.modTc_sound ?_
      | with_reducible refine massCheck_sound ?_
      | with_reducible refine tcEvt_sound ?_
      | with_reducible refine tcEnter_sound ?_
      | intro _
      | extract_lets
      | with_reducible refine Sound.ite ?_ ?_
      | split
      | dsimp only
      | (apply Sound.of_pair; assumption)
      | (apply Sound.of; assumption; rfl; rfl; rfl; rfl; rfl)

theorem moistReadDry_sound {q : List Instr} {p : PortId} {s : State} (h : Sound q s) :
    Sound q (moistReadDry p s) := by
  unfold moistReadDry
  repeat' first
      | with_reducible assumption
      | with_reducible refine tcEvt_sound ?_
      | with_reducible refine State.modTc_sound ?_
      | with_reducible refine tcEnter_sound ?_
      | with_reducible refine tcUnattach_sound ?_
      | intro _
      | extract_lets
      | with_reducible refine Sound.ite ?_ ?_
      | split

theorem moistDone_sound {q : List Instr} {p : PortId} {cc1 : Nat} {cc2 : Nat} {sbu1 : Nat} {sbu2 : Nat} {s : State} (h : Sound q s) :
    Sound q (moistDone p cc1 cc2 sbu1 sbu2 s) := by
  unfold moistDone
  repeat' first
      | with_reducible assumption
      | with_reducible refine State.setReg_sound ?_
      | with_reducible refine moistReadWet_sound ?_
      | with_reducible refine moistReadDry_sound ?_
      | intro _
      | extract_lets
      | with_reducible refine Sound.ite ?_ ?_

theorem massClear_sound {q : List Instr} {s : State} (h : Sound q s) :
    Sound q (massClear s) := by
  unfold massClear
  repeat' first
      | with_reducible assumption
      | with_reducible refine forEach_sound ?_ ?_
      | with_reducible refine State.modTc_sound ?_
      | with_reducible refine tcEnter_sound ?_
      | with_reducible refine pushEvent_sound ?_
      | intro _
      | extract_lets
      | with_reducible refine Sound.ite ?_ ?_
      | split
      | dsimp only
      | (apply Sound.of_pair; assumption)
      | (apply Sound.of; assumption; rfl; rfl; rfl; rfl; rfl)

theorem tcCmd_sound {q : List Instr} {p : PortId} {v : Word} {s : State} (h : Sound q s) :
    Sound q (tcCmd p v s) := by
  unfold tcCmd
  repeat' first
      | with_reducible assumption
      | with_reducible refine portErrRecovery_sound ?_
      | with_reducible refine moistCmd_sound ?_
      | intro _
      | extract_lets
      | with_reducible refine Sound.ite ?_ ?_

theorem tcApplyRp_sound {q : List Instr} {p : PortId} {s : State} (h : Sound q s) :
    Sound q (tcApplyRp p s) := by
  unfold tcApplyRp
  repeat' first
      | with_reducible assumption
      | with_reducible refine State.modTc_sound ?_
      | intro _
      | split

theorem takeRun_sound {q : List Instr} {k : Nat} {s : State} (h : Sound q s) :
    Sound q (takeRun k s).2 := by
  unfold takeRun
  repeat' first
      | with_reducible assumption
      | with_reducible refine allocNone_sound ?_
      | with_reducible refine State.modSto_sound rfl ?_
      | with_reducible refine allocAvail_sound ?_
      | intro _
      | split

theorem freeRunOf_sound {q : List Instr} {b : Nat} {k : Nat} {s : State} (h : Sound q s) :
    Sound q (freeRunOf b k s) := by
  unfold freeRunOf
  repeat' first
      | with_reducible assumption
      | with_reducible refine forEach_sound ?_ ?_
      | with_reducible refine freePageOf_sound ?_
      | intro _

theorem queueTake_sound {q : List Instr} {qi : Fin 18} {s : State} (h : Sound q s) :
    Sound q (queueTake qi s).2 := by
  unfold queueTake
  repeat' first
      | with_reducible assumption
      | with_reducible refine takeRun_sound ?_
      | with_reducible refine State.modLq_sound ?_
      | intro _
      | extract_lets
      | with_reducible refine Sound.ite ?_ ?_
      | split

theorem queueFree_sound {q : List Instr} {qi : Fin 18} {s : State} (h : Sound q s) :
    Sound q (queueFree qi s) := by
  unfold queueFree
  repeat' first
      | with_reducible assumption
      | with_reducible refine freeIdle_sound ?_
      | with_reducible refine freeRunOf_sound ?_
      | with_reducible refine State.modLq_sound ?_
      | intro _
      | split

theorem rxTake_sound {q : List Instr} {p : PortId} {s : State} (h : Sound q s) :
    Sound q (rxTake p s).2 := by
  unfold rxTake
  repeat' first
      | with_reducible assumption
      | with_reducible refine takeRun_sound ?_
      | with_reducible refine State.modCl_sound ?_
      | intro _
      | extract_lets
      | with_reducible refine Sound.ite ?_ ?_
      | split

theorem rxFree_sound {q : List Instr} {p : PortId} {s : State} (h : Sound q s) :
    Sound q (rxFree p s) := by
  unfold rxFree
  repeat' first
      | with_reducible assumption
      | with_reducible refine freeRunOf_sound ?_
      | with_reducible refine State.modCl_sound ?_
      | intro _
      | extract_lets
      | with_reducible refine Sound.ite ?_ ?_

theorem ringsTake_sound {q : List Instr} {p : PortId} {s : State} (h : Sound q s) :
    Sound q (ringsTake p s) := by
  unfold ringsTake
  repeat' first
      | with_reducible assumption
      | with_reducible refine queueTake_sound ?_
      | with_reducible refine rxTake_sound ?_
      | with_reducible refine queueFree_sound ?_
      | with_reducible refine rxFree_sound ?_
      | with_reducible refine raiseAt_sound ?_
      | with_reducible refine State.modCl_sound ?_
      | intro _
      | extract_lets
      | with_reducible refine Sound.ite ?_ ?_
      | split
      | dsimp only
      | (apply Sound.of_pair; assumption)
      | (apply Sound.of; assumption; rfl; rfl; rfl; rfl; rfl)
      | (dsimp +zetaDelta only; split)

theorem broadcastFree_sound {q : List Instr} {s : State} (h : Sound q s) :
    Sound q (broadcastFree s) := by
  unfold broadcastFree
  repeat' first
      | with_reducible assumption
      | with_reducible refine queueFree_sound ?_
      | intro _
      | split

theorem ringsFree_sound {q : List Instr} {p : PortId} {s : State} (h : Sound q s) :
    Sound q (ringsFree p s) := by
  unfold ringsFree
  repeat' first
      | with_reducible assumption
      | with_reducible refine broadcastFree_sound ?_
      | with_reducible refine queueFree_sound ?_
      | with_reducible refine completeAll_sound ?_
      | with_reducible refine rxFree_sound ?_
      | intro _
      | extract_lets
      | with_reducible refine Sound.ite ?_ ?_

theorem clEnabled_sound {q : List Instr} {p : PortId} {s : State} (h : Sound q s) :
    Sound q (clEnabled p s) := by
  unfold clEnabled
  repeat' first
      | with_reducible assumption
      | with_reducible refine ringsTake_sound ?_

theorem clDisabled_sound {q : List Instr} {p : PortId} {s : State} (h : Sound q s) :
    Sound q (clDisabled p s) := by
  unfold clDisabled
  repeat' first
      | with_reducible assumption
      | with_reducible refine ringsFree_sound ?_
      | with_reducible refine cadExit_sound ?_
      | with_reducible refine linkDown_sound ?_

theorem cadReject_sound {q : List Instr} {s : State} (h : Sound q s) :
    Sound q (cadReject s) := by
  unfold cadReject
  repeat' first
      | with_reducible assumption
      | with_reducible refine cadEvt_sound ?_
      | with_reducible refine State.bump_sound ?_

theorem ptrBad_sound {q : List Instr} {qi : Fin 18} {s : State} (h : Sound q s) :
    Sound q (ptrBad qi s) := by
  unfold ptrBad
  repeat' first
      | with_reducible assumption
      | with_reducible refine clEvt_sound ?_
      | with_reducible refine cadEvt_sound ?_
      | intro _
      | split

theorem handOver_sound {q : List Instr} {qi : Fin 18} {t : BitVec 16} {s : State} (h : Sound q s) :
    Sound q (handOver qi t s) := by
  unfold handOver
  repeat' first
      | with_reducible assumption
      | with_reducible refine State.modLq_sound ?_
      | with_reducible refine State.modCad_sound ?_

theorem cadTail_sound {q : List Instr} {qi : Fin 18} {v : Word} {s : State} (h : Sound q s) :
    Sound q (cadTail qi v s) := by
  unfold cadTail
  repeat' first
      | with_reducible assumption
      | with_reducible refine cadReject_sound ?_
      | with_reducible refine handOver_sound ?_
      | with_reducible refine ptrBad_sound ?_
      | intro _
      | extract_lets
      | with_reducible refine Sound.ite ?_ ?_

theorem dropLaunches_sound {q : List Instr} {qi : Fin 18} {s : State} (h : Sound q s) :
    Sound q (dropLaunches qi s) := by
  unfold dropLaunches
  repeat' first
      | with_reducible assumption
      | with_reducible refine forEach_sound ?_ ?_
      | with_reducible refine State.modCl_sound ?_
      | intro _

theorem cadFlush_sound {q : List Instr} {qi : Fin 18} {s : State} (h : Sound q s) :
    Sound q (cadFlush qi s) := by
  unfold cadFlush
  repeat' first
      | with_reducible assumption
      | with_reducible refine State.modLq_sound ?_
      | with_reducible refine dropLaunches_sound ?_
      | with_reducible refine completeAll_sound ?_
      | intro _
      | split

theorem cadResume_sound {q : List Instr} {qi : Fin 18} {s : State} (h : Sound q s) :
    Sound q (cadResume qi s) := by
  unfold cadResume
  repeat' first
      | with_reducible assumption
      | with_reducible refine State.modLq_sound ?_
      | intro _
      | split

theorem cadLqCmd_sound {q : List Instr} {qi : Fin 18} {v : Word} {s : State} (h : Sound q s) :
    Sound q (cadLqCmd qi v s) := by
  unfold cadLqCmd
  repeat' first
      | with_reducible assumption
      | with_reducible refine cadResume_sound ?_
      | with_reducible refine cadFlush_sound ?_
      | intro _
      | extract_lets
      | with_reducible refine Sound.ite ?_ ?_

theorem cadGoTransparent_sound {q : List Instr} {s : State} (h : Sound q s) :
    Sound q (cadGoTransparent s) := by
  unfold cadGoTransparent
  repeat' first
      | with_reducible assumption
      | with_reducible refine forEach_sound ?_ ?_
      | with_reducible refine dropLaunches_sound ?_
      | with_reducible refine completeAll_sound ?_
      | intro _
      | split

theorem launchPoison_sound {q : List Instr} {qi : Fin 18} {s0 : State} {k : Nat} {nn : Nat} {s : State} (h : Sound q s) :
    Sound q (launchPoison qi s0 k nn s) := by
  unfold launchPoison
  repeat' first
      | with_reducible assumption
      | with_reducible refine raiseFault_sound ?_

theorem prepareDesc_sound {q : List Instr} {qi : Fin 18} {s : State} (h : Sound q s) :
    Sound q (prepareDesc qi s) := by
  unfold prepareDesc
  repeat' first
      | with_reducible assumption
      | with_reducible refine readDesc_sound ?_
      | with_reducible refine launchPoison_sound ?_
      | with_reducible refine storeReadBytes_sound ?_
      | with_reducible refine settleHead_sound ?_
      | with_reducible refine State.modLq_sound ?_
      | intro _
      | extract_lets
      | with_reducible refine Sound.ite ?_ ?_
      | split

theorem lateLaunch_sound {q : List Instr} {qi : Fin 18} {p : PortId} {d : HeadDesc} {s : State} (h : Sound q s) :
    Sound q (lateLaunch qi p d s) := by
  unfold lateLaunch
  repeat' first
      | with_reducible assumption
      | with_reducible refine State.modLq_sound ?_
      | with_reducible refine cadPump_sound ?_
      | with_reducible refine State.modCl_sound ?_
      | intro _
      | extract_lets
      | with_reducible refine Sound.ite ?_ ?_
      | split

theorem launchPort_sound {q : List Instr} {qi : Fin 18} {d : HeadDesc} {p : PortId} {s : State} (h : Sound q s) :
    Sound q (launchPort qi d p s) := by
  unfold launchPort
  repeat' first
      | with_reducible assumption
      | with_reducible refine cadAbort_sound ?_
      | with_reducible refine State.modLq_sound ?_
      | with_reducible refine State.modCl_sound ?_
      | with_reducible refine lateLaunch_sound ?_
      | intro _
      | extract_lets
      | with_reducible refine Sound.ite ?_ ?_
      | split

theorem launchHead_sound {q : List Instr} {qi : Fin 18} {s : State} (h : Sound q s) :
    Sound q (launchHead qi s) := by
  unfold launchHead
  repeat' first
      | with_reducible assumption
      | with_reducible refine forEach_sound ?_ ?_
      | with_reducible refine launchPort_sound ?_
      | with_reducible refine settleHead_sound ?_
      | with_reducible refine lateFault_sound ?_
      | intro _
      | extract_lets
      | with_reducible refine Sound.ite ?_ ?_
      | split

theorem launchDone_sound {q : List Instr} {qi : Fin 18} {p : PortId} {s : State} (h : Sound q s) :
    Sound q (launchDone qi p s) := by
  unfold launchDone
  repeat' first
      | with_reducible assumption
      | with_reducible refine modOutcome_sound ?_

theorem descDone_sound {q : List Instr} {qi : Fin 18} {s : State} (h : Sound q s) :
    Sound q (descDone qi s) := by
  unfold descDone
  repeat' first
      | with_reducible assumption
      | with_reducible refine completeFlight_sound ?_
      | intro _
      | split

theorem rxDeliver_sound {q : List Instr} {p : PortId} {t : TbTime} {l : List Byte} {s : State} (h : Sound q s) :
    Sound q (rxDeliver p t l s) := by
  unfold rxDeliver
  repeat' first
      | with_reducible assumption
      | with_reducible refine clEvt_sound ?_
      | with_reducible refine State.modCl_sound ?_
      | with_reducible refine State.bump_sound ?_
      | with_reducible refine State.storeWords_sound ?_
      | intro _
      | extract_lets
      | with_reducible refine Sound.ite ?_ ?_

theorem cadRxRd_sound {q : List Instr} {p : PortId} {v : Word} {s : State} (h : Sound q s) :
    Sound q (cadRxRd p v s) := by
  unfold cadRxRd
  repeat' first
      | with_reducible assumption
      | with_reducible refine ringsFree_sound ?_
      | with_reducible refine State.modCl_sound ?_
      | with_reducible refine clEvt_sound ?_
      | intro _
      | extract_lets
      | with_reducible refine Sound.ite ?_ ?_

theorem rxRelease_sound {q : List Instr} {p : PortId} {s : State} (h : Sound q s) :
    Sound q (rxRelease p s) := by
  unfold rxRelease
  repeat' first
      | with_reducible assumption
      | with_reducible refine ringsFree_sound ?_
      | with_reducible refine rxOwn_sound ?_
      | with_reducible refine State.modCl_sound ?_

theorem completionFree_sound {q : List Instr} {c : Completion} {s : State} (h : Sound q s) :
    Sound q (completionFree c s) := by
  unfold completionFree
  repeat' first
      | with_reducible assumption
      | with_reducible refine freeIdle_sound ?_
      | with_reducible refine State.modLq_sound ?_
      | intro _
      | split

theorem completionRelease_sound {q : List Instr} {s : State} (h : Sound q s) :
    Sound q (completionRelease s) := by
  unfold completionRelease
  repeat' first
      | with_reducible assumption
      | with_reducible refine completionFree_sound ?_
      | with_reducible refine State.modCad_sound ?_
      | intro _
      | split

theorem epTakeOut_sound {q : List Instr} {e : Fin 7} {nn : Nat} {s : State} (h : Sound q s) :
    Sound q (epTakeOut e nn s) := by
  unfold epTakeOut
  repeat' first
      | with_reducible assumption
      | with_reducible refine State.modEp_sound ?_
      | with_reducible refine epDrop_sound ?_

theorem ep2Copy_sound {q : List Instr} {off : Nat} {k : Nat} {x2 : Nat} {s : State} (h : Sound q s) :
    Sound q (ep2Copy off k x2 s) := by
  induction x2 generalizing s off k with
  | zero =>
    unfold ep2Copy
    repeat' first
          | with_reducible assumption
  | succ n ih =>
    unfold ep2Copy
    repeat' first
          | with_reducible assumption
          | (with_reducible refine ih ?_)
          | with_reducible refine epPeek_sound ?_
          | with_reducible refine storeWrite_sound ?_

theorem ep2Malformed_sound {q : List Instr} {s : State} (h : Sound q s) :
    Sound q (ep2Malformed s) := by
  unfold ep2Malformed
  repeat' first
      | with_reducible assumption
      | with_reducible refine State.modEp_sound ?_
      | with_reducible refine epDrop_sound ?_
      | with_reducible refine State.modCad_sound ?_
      | with_reducible refine State.fresh_sound ?_
      | with_reducible refine cadReject_sound ?_
      | with_reducible refine pushCompletion_sound ?_

theorem ep2AtOnce_sound {q : List Instr} {qi : Nat} {status : Nat} {cookie : Nat} {size : Nat} {s : State} (h : Sound q s) :
    Sound q (ep2AtOnce qi status cookie size s) := by
  unfold ep2AtOnce
  repeat' first
      | with_reducible assumption
      | with_reducible refine State.fresh_sound ?_
      | with_reducible refine pushCompletion_sound ?_
      | with_reducible refine epTakeOut_sound ?_

theorem ep2Queue_sound {q : List Instr} {qi : Fin 18} {a : Option Nat} {len : Nat} {size : Nat} {s : State} (h : Sound q s) :
    Sound q (ep2Queue qi a len size s) := by
  unfold ep2Queue
  repeat' first
      | with_reducible assumption
      | with_reducible refine State.modLq_sound ?_
      | with_reducible refine ep2Copy_sound ?_
      | with_reducible refine State.setCell_sound ?_
      | with_reducible refine storeWrite_sound ?_
      | with_reducible refine epTakeOut_sound ?_
      | with_reducible refine handOver_sound ?_
      | intro _
      | extract_lets
      | with_reducible refine Sound.ite ?_ ?_
      | split

theorem ep2Take_sound {q : List Instr} {qi : Fin 18} {cookie : Nat} {len : Nat} {size : Nat} {s : State} (h : Sound q s) :
    Sound q (ep2Take qi cookie len size s) := by
  unfold ep2Take
  repeat' first
      | with_reducible assumption
      | with_reducible refine ep2AtOnce_sound ?_
      | with_reducible refine ep2Queue_sound ?_
      | with_reducible refine takePoolSlot_sound ?_
      | intro _
      | extract_lets
      | with_reducible refine Sound.ite ?_ ?_
      | split

theorem ep2Request_sound {q : List Instr} {s : State} (h : Sound q s) :
    Sound q (ep2Request s) := by
  unfold ep2Request
  repeat' first
      | with_reducible assumption
      | with_reducible refine epPeek_sound ?_
      | with_reducible refine ep2Malformed_sound ?_
      | with_reducible refine ep2Take_sound ?_
      | intro _
      | extract_lets
      | with_reducible refine Sound.ite ?_ ?_
      | split

theorem discSend_sound {q : List Instr} {p : PortId} {s : State} (h : Sound q s) :
    Sound q (discSend p s) := by
  unfold discSend
  repeat' first
      | with_reducible assumption
      | with_reducible refine startVdm_sound ?_
      | intro _
      | extract_lets
      | with_reducible refine Sound.ite ?_ ?_
      | split

theorem cadDiscover_sound {q : List Instr} {p : PortId} {s : State} (h : Sound q s) :
    Sound q (cadDiscover p s) := by
  unfold cadDiscover
  repeat' first
      | with_reducible assumption
      | with_reducible refine discSend_sound ?_
      | with_reducible refine State.modCl_sound ?_
      | intro _
      | split

theorem noMode_sound {q : List Instr} {p : PortId} {c : LCause} {s : State} (h : Sound q s) :
    Sound q (noMode p c s) := by
  unfold noMode
  repeat' first
      | with_reducible assumption
      | with_reducible refine State.modCl_sound ?_

theorem discNext_sound {q : List Instr} {p : PortId} {d : DiscStep} {s : State} (h : Sound q s) :
    Sound q (discNext p d s) := by
  unfold discNext
  repeat' first
      | with_reducible assumption
      | with_reducible refine discSend_sound ?_
      | with_reducible refine State.modCl_sound ?_

theorem cadEntered_sound {q : List Instr} {p : PortId} {ver : Fin 3} {s : State} (h : Sound q s) :
    Sound q (cadEntered p ver s) := by
  unfold cadEntered
  repeat' first
      | with_reducible assumption
      | with_reducible refine cadTrain_sound ?_
      | with_reducible refine State.modCl_sound ?_

theorem setPartner_sound {q : List Instr} {p : PortId} {w : Word} {s : State} (h : Sound q s) :
    Sound q (setPartner p w s) := by
  unfold setPartner
  repeat' first
      | with_reducible assumption
      | with_reducible refine State.modPd_sound ?_
      | with_reducible refine State.setReg_sound ?_

theorem discAck_sound {q : List Instr} {p : PortId} {vdos : List Word} {s : State} (h : Sound q s) :
    Sound q (discAck p vdos s) := by
  unfold discAck
  repeat' first
      | with_reducible assumption
      | with_reducible refine discNext_sound ?_
      | with_reducible refine noMode_sound ?_
      | with_reducible refine setPartner_sound ?_
      | with_reducible refine State.modCl_sound ?_
      | with_reducible refine cadEntered_sound ?_
      | intro _
      | split

theorem cadResponse_sound {q : List Instr} {p : PortId} {a : VdmAnswer} {s : State} (h : Sound q s) :
    Sound q (cadResponse p a s) := by
  unfold cadResponse
  repeat' first
      | with_reducible assumption
      | with_reducible refine State.modCl_sound ?_
      | with_reducible refine discAck_sound ?_
      | with_reducible refine noMode_sound ?_
      | intro _
      | extract_lets
      | with_reducible refine Sound.ite ?_ ?_
      | split

theorem cadNoResponse_sound {q : List Instr} {p : PortId} {s : State} (h : Sound q s) :
    Sound q (cadNoResponse p s) := by
  unfold cadNoResponse
  repeat' first
      | with_reducible assumption
      | with_reducible refine noMode_sound ?_
      | intro _
      | split

theorem cadBusyRetry_sound {q : List Instr} {p : PortId} {s : State} (h : Sound q s) :
    Sound q (cadBusyRetry p s) := by
  unfold cadBusyRetry
  repeat' first
      | with_reducible assumption
      | with_reducible refine discSend_sound ?_
      | intro _
      | split

theorem cadExitTimeout_sound {q : List Instr} {p : PortId} {s : State} (h : Sound q s) :
    Sound q (cadExitTimeout p s) := by
  unfold cadExitTimeout
  repeat' first
      | with_reducible assumption
      | with_reducible refine State.modCl_sound ?_
      | intro _
      | split

theorem cadEnterCmd_sound {q : List Instr} {p : PortId} {s : State} (h : Sound q s) :
    Sound q (cadEnterCmd p s) := by
  unfold cadEnterCmd
  repeat' first
      | with_reducible assumption
      | with_reducible refine State.modCl_sound ?_
      | intro _
      | split

theorem puAnswer_sound {q : List Instr} {ack : Bool} {svid : Nat} {obj : Nat} {cmd : Nat} {vdos : List Word} {s : State} (h : Sound q s) :
    Sound q (puAnswer ack svid obj cmd vdos s) := by
  unfold puAnswer
  repeat' first
      | with_reducible assumption
      | with_reducible refine pdRx_sound ?_ ?_
      | with_reducible refine sendVdm_sound ?_
      | intro _

theorem cadIdentity_sound {q : List Instr} {s : State} (h : Sound q s) :
    Sound q (cadIdentity s) := by
  unfold cadIdentity
  repeat' first
      | with_reducible assumption
      | with_reducible refine State.fresh_sound ?_
      | with_reducible refine puAnswer_sound ?_

theorem cadSvids_sound {q : List Instr} {s : State} (h : Sound q s) :
    Sound q (cadSvids s) := by
  unfold cadSvids
  repeat' first
      | with_reducible assumption
      | with_reducible refine puAnswer_sound ?_

theorem cadModes_sound {q : List Instr} {s : State} (h : Sound q s) :
    Sound q (cadModes s) := by
  unfold cadModes
  repeat' first
      | with_reducible assumption
      | with_reducible refine puAnswer_sound ?_

theorem cadEnterRx_sound {q : List Instr} {vdo : Word} {s : State} (h : Sound q s) :
    Sound q (cadEnterRx vdo s) := by
  unfold cadEnterRx
  repeat' first
      | with_reducible assumption
      | with_reducible refine puAnswer_sound ?_
      | with_reducible refine State.modCl_sound ?_
      | intro _
      | extract_lets
      | with_reducible refine Sound.ite ?_ ?_

theorem cadSent_sound {q : List Instr} {p : PortId} {m : Option PdMsg} {s : State} (h : Sound q s) :
    Sound q (cadSent p m s) := by
  unfold cadSent
  repeat' first
      | with_reducible assumption
      | with_reducible refine cadEntered_sound ?_
      | with_reducible refine State.modCl_sound ?_
      | intro _
      | split

theorem cadExitRx_sound {q : List Instr} {p : PortId} {s : State} (h : Sound q s) :
    Sound q (cadExitRx p s) := by
  unfold cadExitRx
  repeat' first
      | with_reducible assumption
      | with_reducible refine pdRx_sound ?_ ?_
      | with_reducible refine State.modCl_sound ?_
      | with_reducible refine linkDown_sound ?_
      | with_reducible refine sendVdm_sound ?_
      | intro _

theorem cadAttentionRx_sound {q : List Instr} {p : PortId} {vdo : Word} {s : State} (h : Sound q s) :
    Sound q (cadAttentionRx p vdo s) := by
  unfold cadAttentionRx
  repeat' first
      | with_reducible assumption
      | with_reducible refine pdRx_sound ?_ ?_
      | with_reducible refine cadRetrain_sound ?_
      | intro _
      | extract_lets
      | with_reducible refine Sound.ite ?_ ?_

theorem cadAttentionAgain_sound {q : List Instr} {s : State} (h : Sound q s) :
    Sound q (cadAttentionAgain s) := by
  unfold cadAttentionAgain
  repeat' first
      | with_reducible assumption
      | with_reducible refine cadAttention_sound ?_
      | intro _
      | split

theorem trainFrame_sound {q : List Instr} {p : PortId} {flags : Nat} {seq : BitVec 16} {payload : List Byte} {s : State} (h : Sound q s) :
    Sound q (trainFrame p flags seq payload s) := by
  unfold trainFrame
  repeat' first
      | with_reducible assumption
      | with_reducible refine cadQueueOwn_sound ?_

theorem trainEcho_sound {q : List Instr} {p : PortId} {s : State} (h : Sound q s) :
    Sound q (trainEcho p s) := by
  unfold trainEcho
  repeat' first
      | with_reducible assumption
      | with_reducible refine State.fresh_sound ?_
      | with_reducible refine trainFrame_sound ?_
      | with_reducible refine State.modCl_sound ?_

theorem cadLock_sound {q : List Instr} {p : PortId} {s : State} (h : Sound q s) :
    Sound q (cadLock p s) := by
  unfold cadLock
  repeat' first
      | with_reducible assumption
      | with_reducible refine State.modCl_sound ?_
      | with_reducible refine trainEcho_sound ?_
      | intro _
      | extract_lets
      | with_reducible refine Sound.ite ?_ ?_

theorem cadUp_sound {q : List Instr} {p : PortId} {s : State} (h : Sound q s) :
    Sound q (cadUp p s) := by
  unfold cadUp
  repeat' first
      | with_reducible assumption
      | with_reducible refine State.modCl_sound ?_
      | with_reducible refine setTier_sound ?_
      | with_reducible refine State.modCad_sound ?_
      | with_reducible refine cadPump_sound ?_
      | with_reducible refine clEvt_sound ?_
      | intro _
      | extract_lets
      | with_reducible refine Sound.ite ?_ ?_

theorem trainRx_sound {q : List Instr} {p : PortId} {ok : Bool} {l : List Byte} {s : State} (h : Sound q s) :
    Sound q (trainRx p ok l s) := by
  unfold trainRx
  repeat' first
      | with_reducible assumption
      | with_reducible refine trainFrame_sound ?_
      | with_reducible refine State.modCl_sound ?_
      | with_reducible refine trainEcho_sound ?_
      | with_reducible refine cadUp_sound ?_
      | intro _
      | extract_lets
      | with_reducible refine Sound.ite ?_ ?_

theorem cadFail_sound {q : List Instr} {p : PortId} {s : State} (h : Sound q s) :
    Sound q (cadFail p s) := by
  unfold cadFail
  repeat' first
      | with_reducible assumption
      | with_reducible refine cadExit_sound ?_
      | with_reducible refine raiseAt_sound ?_
      | with_reducible refine linkDown_sound ?_

theorem cadAttemptFail_sound {q : List Instr} {p : PortId} {s : State} (h : Sound q s) :
    Sound q (cadAttemptFail p s) := by
  unfold cadAttemptFail
  repeat' first
      | with_reducible assumption
      | with_reducible refine State.modCl_sound ?_
      | with_reducible refine cadFail_sound ?_
      | with_reducible refine cadTrain_sound ?_
      | intro _
      | extract_lets
      | with_reducible refine Sound.ite ?_ ?_

theorem cadLostLock_sound {q : List Instr} {p : PortId} {s : State} (h : Sound q s) :
    Sound q (cadLostLock p s) := by
  unfold cadLostLock
  repeat' first
      | with_reducible assumption
      | with_reducible refine cadRetrain_sound ?_
      | with_reducible refine cadAttention_sound ?_
      | intro _
      | extract_lets
      | with_reducible refine Sound.ite ?_ ?_

theorem cadRetrainRx_sound {q : List Instr} {ver : Fin 3} {s : State} (h : Sound q s) :
    Sound q (cadRetrainRx ver s) := by
  unfold cadRetrainRx
  repeat' first
      | with_reducible assumption
      | with_reducible refine cadRetrain_sound ?_
      | intro _
      | split

theorem cadRetrainFail_sound {q : List Instr} {p : PortId} {s : State} (h : Sound q s) :
    Sound q (cadRetrainFail p s) := by
  unfold cadRetrainFail
  repeat' first
      | with_reducible assumption
      | with_reducible refine cadTrain_sound ?_
      | with_reducible refine State.modCl_sound ?_
      | with_reducible refine linkDown_sound ?_
      | intro _
      | extract_lets
      | with_reducible refine Sound.ite ?_ ?_

theorem cadRetrainCmd_sound {q : List Instr} {p : PortId} {s : State} (h : Sound q s) :
    Sound q (cadRetrainCmd p s) := by
  unfold cadRetrainCmd
  repeat' first
      | with_reducible assumption
      | with_reducible refine cadRetrain_sound ?_
      | intro _
      | split

theorem cadReturn_sound {q : List Instr} {p : PortId} {s : State} (h : Sound q s) :
    Sound q (cadReturn p s) := by
  unfold cadReturn
  repeat' first
      | with_reducible assumption
      | with_reducible refine cadTrain_sound ?_
      | with_reducible refine State.modCl_sound ?_
      | intro _
      | extract_lets
      | with_reducible refine Sound.ite ?_ ?_

theorem routeErr_sound {q : List Instr} {p : PortId} {s : State} (h : Sound q s) :
    Sound q (routeErr p s) := by
  unfold routeErr
  repeat' first
      | with_reducible assumption
      | with_reducible refine State.bump_sound ?_

theorem cadDeliver_sound {q : List Instr} {p : PortId} {t : TbTime} {l : List Byte} {s : State} (h : Sound q s) :
    Sound q (cadDeliver p t l s) := by
  unfold cadDeliver
  repeat' first
      | with_reducible assumption
      | with_reducible refine rxDeliver_sound ?_
      | with_reducible refine State.bump_sound ?_
      | intro _
      | split

theorem cadSendOn_sound {q : List Instr} {p : PortId} {rx1 : BitVec 64} {l : List Byte} {s : State} (h : Sound q s) :
    Sound q (cadSendOn p rx1 l s) := by
  unfold cadSendOn
  repeat' first
      | with_reducible assumption
      | with_reducible refine cadQueue_sound ?_
      | with_reducible refine State.bump_sound ?_
      | intro _
      | split

theorem echoReply_sound {q : List Instr} {p : PortId} {route : Nat} {hop : Nat} {l : List Byte} {s : State} (h : Sound q s) :
    Sound q (echoReply p route hop l s) := by
  unfold echoReply
  repeat' first
      | with_reducible assumption
      | with_reducible refine cadSendOn_sound ?_

theorem puEnds_sound {q : List Instr} {t : TbTime} {l : List Byte} {s : State} (h : Sound q s) :
    Sound q (puEnds t l s) := by
  unfold puEnds
  repeat' first
      | with_reducible assumption
      | with_reducible refine echoReply_sound ?_
      | with_reducible refine cadDeliver_sound ?_
      | intro _
      | split

theorem puFan_sound {q : List Instr} {f : PortId → Bool} {t : TbTime} {rx1 : BitVec 64} {l : List Byte} {s : State} (h : Sound q s) :
    Sound q (puFan f t rx1 l s) := by
  unfold puFan
  repeat' first
      | with_reducible assumption
      | with_reducible refine cadDeliver_sound ?_
      | with_reducible refine forEach_sound ?_ ?_
      | with_reducible refine cadSendOn_sound ?_
      | intro _
      | extract_lets
      | with_reducible refine Sound.ite ?_ ?_

theorem syncRx_sound {q : List Instr} {t : TbTime} {rx1 : BitVec 64} {l : List Byte} {s : State} (h : Sound q s) :
    Sound q (syncRx t rx1 l s) := by
  unfold syncRx
  repeat' first
      | with_reducible assumption
      | with_reducible refine routeErr_sound ?_
      | with_reducible refine raiseAt_sound ?_
      | with_reducible refine cadEvt_sound ?_
      | with_reducible refine setTier_sound ?_
      | with_reducible refine State.modCad_sound ?_
      | with_reducible refine puFan_sound ?_
      | intro _
      | extract_lets
      | with_reducible refine Sound.ite ?_ ?_

theorem xsWrite_sound {q : List Instr} {x : Exchange} {t3 : TbTime} {t4 : TbTime} {c2 : Nat} {s : State} (h : Sound q s) :
    Sound q (xsWrite x t3 t4 c2 s) := by
  unfold xsWrite
  repeat' first
      | with_reducible assumption
      | with_reducible refine State.setReg_sound ?_

theorem xsMiss_sound {q : List Instr} {s : State} (h : Sound q s) :
    Sound q (xsMiss s) := by
  unfold xsMiss
  repeat' first
      | with_reducible assumption
      | with_reducible refine State.bump_sound ?_

theorem delayRespRx_sound {q : List Instr} {l : List Byte} {s : State} (h : Sound q s) :
    Sound q (delayRespRx l s) := by
  unfold delayRespRx
  repeat' first
      | with_reducible assumption
      | with_reducible refine xsMiss_sound ?_
      | with_reducible refine State.modCad_sound ?_
      | with_reducible refine xsWrite_sound ?_
      | with_reducible refine clEvt_sound ?_
      | with_reducible refine State.bumpWrap_sound ?_
      | intro _
      | extract_lets
      | with_reducible refine Sound.ite ?_ ?_
      | split

theorem delayAnswer_sound {q : List Instr} {p : PortId} {t : TbTime} {route : Nat} {l : List Byte} {s : State} (h : Sound q s) :
    Sound q (delayAnswer p t route l s) := by
  unfold delayAnswer
  repeat' first
      | with_reducible assumption
      | with_reducible refine cadSendOn_sound ?_
      | with_reducible refine State.modCad_sound ?_

theorem bellRx_sound {q : List Instr} {t : TbTime} {rx1 : BitVec 64} {l : List Byte} {s : State} (h : Sound q s) :
    Sound q (bellRx t rx1 l s) := by
  unfold bellRx
  repeat' first
      | with_reducible assumption
      | with_reducible refine clEvt_sound ?_
      | with_reducible refine cadDeliver_sound ?_
      | with_reducible refine forEach_sound ?_ ?_
      | with_reducible refine cadSendOn_sound ?_
      | intro _

theorem puPath_sound {q : List Instr} {hub : Bool} {d : Nat} {t : TbTime} {rx1 : BitVec 64} {l : List Byte} {s : State} (h : Sound q s) :
    Sound q (puPath hub d t rx1 l s) := by
  unfold puPath
  repeat' first
      | with_reducible assumption
      | with_reducible refine routeErr_sound ?_
      | with_reducible refine cadSendOn_sound ?_
      | with_reducible refine delayRespRx_sound ?_
      | with_reducible refine puEnds_sound ?_
      | intro _
      | extract_lets
      | with_reducible refine Sound.ite ?_ ?_

theorem downRx_sound {q : List Instr} {t : TbTime} {rx1 : BitVec 64} {l : List Byte} {s : State} (h : Sound q s) :
    Sound q (downRx t rx1 l s) := by
  unfold downRx
  repeat' first
      | with_reducible assumption
      | with_reducible refine syncRx_sound ?_
      | with_reducible refine routeErr_sound ?_
      | with_reducible refine bellRx_sound ?_
      | with_reducible refine puEnds_sound ?_
      | with_reducible refine puPath_sound ?_
      | with_reducible refine puFan_sound ?_
      | intro _
      | extract_lets
      | with_reducible refine Sound.ite ?_ ?_

theorem upRx_sound {q : List Instr} {p : PortId} {t : TbTime} {rx1 : BitVec 64} {l : List Byte} {s : State} (h : Sound q s) :
    Sound q (upRx p t rx1 l s) := by
  unfold upRx
  repeat' first
      | with_reducible assumption
      | with_reducible refine routeErr_sound ?_
      | with_reducible refine echoReply_sound ?_
      | with_reducible refine cadDeliver_sound ?_
      | with_reducible refine delayAnswer_sound ?_
      | with_reducible refine cadSendOn_sound ?_
      | intro _
      | extract_lets
      | with_reducible refine Sound.ite ?_ ?_

theorem cadRx_sound {q : List Instr} {p : PortId} {codeOk : Bool} {b : List Byte} {s : State} (h : Sound q s) :
    Sound q (cadRx p codeOk b s) := by
  unfold cadRx
  repeat' first
      | with_reducible assumption
      | with_reducible refine State.bump_sound ?_
      | with_reducible refine clEvt_sound ?_
      | with_reducible refine trainRx_sound ?_
      | with_reducible refine upRx_sound ?_
      | with_reducible refine downRx_sound ?_
      | intro _
      | extract_lets
      | with_reducible refine Sound.ite ?_ ?_
      | split
      | dsimp only
      | (apply Sound.of_pair; assumption)
      | (apply Sound.of; assumption; rfl; rfl; rfl; rfl; rfl)
      | (dsimp +zetaDelta only; split)

theorem cadRxOf_sound {q : List Instr} {ty : Nat} {p : PortId} {b : List Byte} {s : State} (h : Sound q s) :
    Sound q (cadRxOf ty p b s) := by
  unfold cadRxOf
  repeat' first
      | with_reducible assumption
      | with_reducible refine cadRx_sound ?_
      | intro _
      | split

theorem timedStart_sound {q : List Instr} {p : PortId} {k : FrameKind} {l : List Byte} {s : State} (h : Sound q s) :
    Sound q (timedStart p k l s) := by
  unfold timedStart
  repeat' first
      | with_reducible assumption
      | with_reducible refine State.modCl_sound ?_
      | with_reducible refine cadAbort_sound ?_
      | intro _
      | split

theorem cadSyncDue_sound {q : List Instr} {s : State} (h : Sound q s) :
    Sound q (cadSyncDue s) := by
  unfold cadSyncDue
  repeat' first
      | with_reducible assumption
      | with_reducible refine State.modCad_sound ?_
      | with_reducible refine forEach_sound ?_ ?_
      | with_reducible refine timedStart_sound ?_
      | intro _
      | split

theorem cadDelayDue_sound {q : List Instr} {s : State} (h : Sound q s) :
    Sound q (cadDelayDue s) := by
  unfold cadDelayDue
  repeat' first
      | with_reducible assumption
      | with_reducible refine State.modCad_sound ?_
      | with_reducible refine timedStart_sound ?_
      | intro _
      | extract_lets
      | with_reducible refine Sound.ite ?_ ?_
      | split

theorem cadDelayMiss_sound {q : List Instr} {s : State} (h : Sound q s) :
    Sound q (cadDelayMiss s) := by
  unfold cadDelayMiss
  repeat' first
      | with_reducible assumption
      | with_reducible refine xsMiss_sound ?_
      | with_reducible refine State.modCad_sound ?_
      | intro _
      | split

theorem cadNoSync_sound {q : List Instr} {s : State} (h : Sound q s) :
    Sound q (cadNoSync s) := by
  unfold cadNoSync
  repeat' first
      | with_reducible assumption
      | with_reducible refine State.modCad_sound ?_
      | intro _
      | split

theorem cadTxDone_sound {q : List Instr} {p : PortId} {s : State} (h : Sound q s) :
    Sound q (cadTxDone p s) := by
  unfold cadTxDone
  repeat' first
      | with_reducible assumption
      | with_reducible refine freeIdle_sound ?_
      | with_reducible refine State.modCl_sound ?_
      | with_reducible refine cadPump_sound ?_
      | with_reducible refine launchDone_sound ?_
      | with_reducible refine cadUp_sound ?_
      | intro _
      | extract_lets
      | with_reducible refine Sound.ite ?_ ?_
      | split

theorem cadModeMoved_sound {q : List Instr} {old : Nat} {s : State} (h : Sound q s) :
    Sound q (cadModeMoved old s) := by
  unfold cadModeMoved
  repeat' first
      | with_reducible assumption
      | with_reducible refine State.modCad_sound ?_
      | with_reducible refine setTier_sound ?_
      | with_reducible refine cadGoTransparent_sound ?_
      | intro _
      | extract_lets
      | with_reducible refine Sound.ite ?_ ?_

end Sys2Proof.Machine
end

