-- ==== Sys2Proof/Laws/Sound6.lean ====
section
/-! SUPPORT. Soundness, carried through Tick.lean, TimAct.lean, PwrAct.lean, HubAct.lean, TtAct.lean. -/

namespace Sys2Proof.Machine


theorem tickTime_sound {q : List Instr} {s : State} (h : Sound q s) :
    Sound q (tickTime s) := by
  unfold tickTime
  repeat' first
      | with_reducible assumption
      | with_reducible refine State.modTim_sound ?_

theorem tickX32_sound {q : List Instr} {up : Bool} {s : State} (h : Sound q s) :
    Sound q (tickX32 up s) := by
  unfold tickX32
  repeat' first
      | with_reducible assumption
      | with_reducible refine State.modTim_sound ?_

theorem tick_sound {q : List Instr} {s : State} (h : Sound q s) :
    Sound q (tick s) := by
  unfold tick
  repeat' first
      | with_reducible assumption
      | with_reducible refine tickTime_sound ?_
      | with_reducible refine State.modTim_sound ?_
      | with_reducible refine tickX32_sound ?_
      | intro _
      | extract_lets
      | with_reducible refine Sound.ite ?_ ?_

theorem timEvt_sound {q : List Instr} {k : Nat} {s : State} (h : Sound q s) :
    Sound q (timEvt k s) := by
  unfold timEvt
  repeat' first
      | with_reducible assumption
      | with_reducible refine raiseEvt0_sound ?_

theorem setUndisc_sound {q : List Instr} {s : State} (h : Sound q s) :
    Sound q (setUndisc s) := by
  unfold setUndisc
  repeat' first
      | with_reducible assumption
      | with_reducible refine timEvt_sound ?_
      | with_reducible refine State.modTim_sound ?_
      | intro _
      | split

theorem holdoverExpire_sound {q : List Instr} {s : State} (h : Sound q s) :
    Sound q (holdoverExpire s) := by
  unfold holdoverExpire
  repeat' first
      | with_reducible assumption
      | with_reducible refine setUndisc_sound ?_
      | intro _
      | split

theorem tpStart_sound {q : List Instr} {s : State} (h : Sound q s) :
    Sound q (tpStart s) := by
  unfold tpStart
  repeat' first
      | with_reducible assumption
      | with_reducible refine State.modTim_sound ?_
      | with_reducible refine State.wr_sound ?_
      | intro _
      | extract_lets
      | with_reducible refine Sound.ite ?_ ?_

theorem tpFire_sound {q : List Instr} {s : State} (h : Sound q s) :
    Sound q (tpFire s) := by
  unfold tpFire
  repeat' first
      | with_reducible assumption
      | with_reducible refine tpStart_sound ?_
      | intro _
      | split

theorem tpEnd_sound {q : List Instr} {s : State} (h : Sound q s) :
    Sound q (tpEnd s) := by
  unfold tpEnd
  repeat' first
      | with_reducible assumption
      | with_reducible refine State.modTim_sound ?_

theorem tpJump_sound {q : List Instr} {s : State} (h : Sound q s) :
    Sound q (tpJump s) := by
  unfold tpJump
  repeat' first
      | with_reducible assumption
      | with_reducible refine tpStart_sound ?_
      | with_reducible refine timEvt_sound ?_
      | with_reducible refine State.modTim_sound ?_
      | intro _
      | split

theorem tpModeMoved_sound {q : List Instr} {s : State} (h : Sound q s) :
    Sound q (tpModeMoved s) := by
  unfold tpModeMoved
  repeat' first
      | with_reducible assumption
      | with_reducible refine State.modTim_sound ?_

theorem tb0Step_sound {q : List Instr} {nn : Int} {s : State} (h : Sound q s) :
    Sound q (tb0Step nn s) := by
  unfold tb0Step
  repeat' first
      | with_reducible assumption
      | with_reducible refine State.modTim_sound ?_

theorem tb0Moved_sound {q : List Instr} {detail : Word} {s : State} (h : Sound q s) :
    Sound q (tb0Moved detail s) := by
  unfold tb0Moved
  repeat' first
      | with_reducible assumption
      | with_reducible refine tpJump_sound ?_
      | with_reducible refine raiseEvt_sound ?_
      | with_reducible refine State.modTim_sound ?_

theorem timCorrect_sound {q : List Instr} {s : State} (h : Sound q s) :
    Sound q (timCorrect s) := by
  unfold timCorrect
  repeat' first
      | with_reducible assumption
      | with_reducible refine State.wr_sound ?_
      | with_reducible refine State.setReg_sound ?_
      | with_reducible refine timEvt_sound ?_
      | with_reducible refine tb0Moved_sound ?_
      | with_reducible refine State.modTim_sound ?_
      | with_reducible refine tb0Step_sound ?_
      | intro _
      | extract_lets
      | with_reducible refine Sound.ite ?_ ?_

theorem timIncMoved_sound {q : List Instr} {s : State} (h : Sound q s) :
    Sound q (timIncMoved s) := by
  unfold timIncMoved
  repeat' first
      | with_reducible assumption
      | with_reducible refine State.setReg_sound ?_
      | with_reducible refine State.modTim_sound ?_
      | intro _
      | extract_lets
      | with_reducible refine Sound.ite ?_ ?_

theorem timCapture_sound {q : List Instr} {u : Fin 3} {aux : Word} {s : State} (h : Sound q s) :
    Sound q (timCapture u aux s) := by
  unfold timCapture
  repeat' first
      | with_reducible assumption
      | with_reducible refine State.setReg_sound ?_
      | with_reducible refine timEvt_sound ?_
      | intro _
      | extract_lets
      | with_reducible refine Sound.ite ?_ ?_

theorem tpEdge_sound {q : List Instr} {rising : Bool} {s : State} (h : Sound q s) :
    Sound q (tpEdge rising s) := by
  unfold tpEdge
  repeat' first
      | with_reducible assumption
      | with_reducible refine timEvt_sound ?_
      | with_reducible refine timCapture_sound ?_
      | intro _
      | split

theorem timSwCap_sound {q : List Instr} {v : Word} {s : State} (h : Sound q s) :
    Sound q (timSwCap v s) := by
  unfold timSwCap
  repeat' first
      | with_reducible assumption
      | with_reducible refine timCapture_sound ?_
      | intro _
      | split

theorem tbReadvance_sound {q : List Instr} {s : State} (h : Sound q s) :
    Sound q (tbReadvance s) := by
  unfold tbReadvance
  repeat' first
      | with_reducible assumption
      | with_reducible refine setUndisc_sound ?_
      | with_reducible refine State.modTim_sound ?_
      | intro _
      | extract_lets
      | with_reducible refine Sound.ite ?_ ?_

theorem tb3Alarm_sound {q : List Instr} {s : State} (h : Sound q s) :
    Sound q (tb3Alarm s) := by
  unfold tb3Alarm
  repeat' first
      | with_reducible assumption
      | with_reducible refine timEvt_sound ?_
      | with_reducible refine State.wr_sound ?_

theorem x32Fail_sound {q : List Instr} {s : State} (h : Sound q s) :
    Sound q (x32Fail s) := by
  unfold x32Fail
  repeat' first
      | with_reducible assumption
      | with_reducible refine raiseAt_sound ?_
      | with_reducible refine timEvt_sound ?_
      | with_reducible refine State.modTim_sound ?_
      | intro _
      | split

theorem pwrEvt_sound {q : List Instr} {k : Nat} {detail : Word} {s : State} (h : Sound q s) :
    Sound q (pwrEvt k detail s) := by
  unfold pwrEvt
  repeat' first
      | with_reducible assumption
      | with_reducible refine raiseEvt_sound ?_

theorem leaveIdle_sound {q : List Instr} {s : State} (h : Sound q s) :
    Sound q (leaveIdle s) := by
  unfold leaveIdle
  repeat' first
      | with_reducible assumption
      | with_reducible refine State.modPwr_sound ?_
      | intro _
      | split

theorem idleEnter_sound {q : List Instr} {s : State} (h : Sound q s) :
    Sound q (idleEnter s) := by
  unfold idleEnter
  repeat' first
      | with_reducible assumption
      | with_reducible refine State.modPwr_sound ?_
      | intro _
      | split

theorem linksDown_sound {q : List Instr} {s : State} (h : Sound q s) :
    Sound q (linksDown s) := by
  unfold linksDown
  repeat' first
      | with_reducible assumption
      | with_reducible refine forEach_sound ?_ ?_
      | with_reducible refine linkDown_sound ?_
      | intro _

theorem deepDetach_sound {q : List Instr} {s : State} (h : Sound q s) :
    Sound q (deepDetach s) := by
  unfold deepDetach
  repeat' first
      | with_reducible assumption
      | with_reducible refine forEach_sound ?_ ?_
      | with_reducible refine tcEvt_sound ?_
      | with_reducible refine tcLeave_sound ?_
      | intro _
      | split

theorem entryStart_sound {q : List Instr} {t : EntryTarget} {s : State} (h : Sound q s) :
    Sound q (entryStart t s) := by
  unfold entryStart
  repeat' first
      | with_reducible assumption
      | with_reducible refine State.modPwr_sound ?_
      | with_reducible refine linksDown_sound ?_
      | with_reducible refine deepDetach_sound ?_
      | intro _
      | extract_lets
      | with_reducible refine Sound.ite ?_ ?_

theorem autoSleep_sound {q : List Instr} {s : State} (h : Sound q s) :
    Sound q (autoSleep s) := by
  unfold autoSleep
  repeat' first
      | with_reducible assumption
      | with_reducible refine entryStart_sound ?_
      | intro _
      | split

theorem autoDeep_sound {q : List Instr} {s : State} (h : Sound q s) :
    Sound q (autoDeep s) := by
  unfold autoDeep
  repeat' first
      | with_reducible assumption
      | with_reducible refine entryStart_sound ?_
      | intro _
      | split

theorem requestTrack_sound {q : List Instr} {s : State} (h : Sound q s) :
    Sound q (requestTrack s) := by
  unfold requestTrack
  repeat' first
      | with_reducible assumption
      | with_reducible refine entryStart_sound ?_
      | with_reducible refine State.wr_sound ?_
      | intro _
      | split

theorem pwrCmd_sound {q : List Instr} {v : Word} {s : State} (h : Sound q s) :
    Sound q (pwrCmd v s) := by
  unfold pwrCmd
  repeat' first
      | with_reducible assumption
      | with_reducible refine State.modPwr_sound ?_
      | intro _
      | extract_lets
      | with_reducible refine Sound.ite ?_ ?_

theorem cmdBlocked_sound {q : List Instr} {s : State} (h : Sound q s) :
    Sound q (cmdBlocked s) := by
  unfold cmdBlocked
  repeat' first
      | with_reducible assumption
      | with_reducible refine State.wr_sound ?_
      | with_reducible refine pwrEvt_sound ?_
      | with_reducible refine State.modPwr_sound ?_
      | intro _
      | extract_lets
      | with_reducible refine Sound.ite ?_ ?_

theorem powerOff_sound {q : List Instr} {s : State} (h : Sound q s) : Sound q (powerOff s) := by
  unfold powerOff
  dsimp only
  refine State.modTim_sound ?_
  exact Sound.withRegs (s := storeDown s) (SMap.wf_keep h.regs) rfl rfl rfl rfl (storeDown_sound h)

theorem offState_sound {q : List Instr} {s : State} (h : Sound q s) : Sound q (offState s) :=
  ⟨h.1, canonical_iff.2 ⟨rfl, rfl, h.flash, h.otp⟩⟩

theorem wakeRecord_sound {q : List Instr} {w : WakeSrc} {p : Option PortId} {s : State} (h : Sound q s) :
    Sound q (wakeRecord w p s) := by
  unfold wakeRecord
  repeat' first
      | with_reducible assumption
      | with_reducible refine State.setReg_sound ?_
      | with_reducible refine State.modPwr_sound ?_
      | intro _
      | extract_lets
      | with_reducible refine Sound.ite ?_ ?_

theorem wakeAttempt_sound {q : List Instr} {s : State} (h : Sound q s) :
    Sound q (wakeAttempt s) := by
  unfold wakeAttempt
  repeat' first
      | with_reducible assumption
      | with_reducible refine State.modPwr_sound ?_
      | with_reducible refine State.wr_sound ?_

theorem wakeStart_sound {q : List Instr} {fr : PwrState} {s : State} (h : Sound q s) :
    Sound q (wakeStart fr s) := by
  unfold wakeStart
  repeat' first
      | with_reducible assumption
      | with_reducible refine State.modPwr_sound ?_
      | with_reducible refine wakeAttempt_sound ?_
      | with_reducible refine State.wr_sound ?_

theorem wakeSeen_sound {q : List Instr} {w : WakeSrc} {p : Option PortId} {s : State} (h : Sound q s) :
    Sound q (wakeSeen w p s) := by
  unfold wakeSeen
  repeat' first
      | with_reducible assumption
      | with_reducible refine State.setReg_sound ?_
      | with_reducible refine State.modPwr_sound ?_
      | with_reducible refine wakeRecord_sound ?_
      | with_reducible refine wakeStart_sound ?_
      | with_reducible refine wakeAttempt_sound ?_
      | intro _
      | extract_lets
      | with_reducible refine Sound.ite ?_ ?_
      | split

theorem wakeSourceAt_sound {q : List Instr} {w : WakeSrc} {p : Option PortId} {s : State} (h : Sound q s) :
    Sound q (wakeSourceAt w p s) := by
  unfold wakeSourceAt
  repeat' first
      | with_reducible assumption
      | with_reducible refine wakeSeen_sound ?_
      | intro _
      | split

theorem entryDone_sound {q : List Instr} {s : State} (h : Sound q s) :
    Sound q (entryDone s) := by
  unfold entryDone
  repeat' first
      | with_reducible assumption
      | with_reducible refine State.modPwr_sound ?_
      | with_reducible refine wakeStart_sound ?_
      | with_reducible refine powerOff_sound ?_
      | with_reducible refine offState_sound ?_
      | intro _
      | extract_lets
      | with_reducible refine Sound.ite ?_ ?_
      | split

theorem takeQuiet_sound {q : List Instr} {nn : Nat} {x1 : Nat} {s : State} (h : Sound q s) :
    Sound q (takeQuiet nn x1 s).2 := by
  induction x1 generalizing s with
  | zero =>
    unfold takeQuiet
    repeat' first
          | with_reducible assumption
  | succ n ih =>
    unfold takeQuiet
    repeat' first
          | with_reducible assumption
          | (with_reducible refine ih ?_)
          | with_reducible refine State.modSto_sound rfl ?_
          | intro _
          | extract_lets
          | with_reducible refine Sound.ite ?_ ?_
          | split

theorem ttAssign_sound {q : List Instr} {p : PortId} {s : State} (h : Sound q s) :
    Sound q (ttAssign p s) := by
  unfold ttAssign
  repeat' first
      | with_reducible assumption
      | with_reducible refine takeQuiet_sound ?_
      | with_reducible refine State.modTt_sound ?_
      | with_reducible refine ttNoPage_sound ?_
      | intro _
      | extract_lets
      | with_reducible refine Sound.ite ?_ ?_

theorem assignPages_sound {q : List Instr} {s : State} (h : Sound q s) :
    Sound q (assignPages s) := by
  unfold assignPages
  repeat' first
      | with_reducible assumption
      | with_reducible refine forEach_sound ?_ ?_
      | with_reducible refine ttAssign_sound ?_
      | with_reducible refine takeQuiet_sound ?_
      | with_reducible refine State.modPd_sound ?_
      | intro _

theorem bankFail_sound {q : List Instr} {b : Fin 4} {s : State} (h : Sound q s) :
    Sound q (bankFail b s) := by
  unfold bankFail
  repeat' first
      | with_reducible assumption
      | with_reducible refine State.wr_sound ?_
      | with_reducible refine pwrEvt_sound ?_
      | with_reducible refine State.modPwr_sound ?_
      | with_reducible refine forEach_sound ?_ ?_
      | with_reducible refine tcEnter_sound ?_
      | with_reducible refine pushEvent_sound ?_
      | with_reducible refine levelDown_sound ?_
      | intro _
      | extract_lets
      | with_reducible refine Sound.ite ?_ ?_

theorem wakeDeep_sound {q : List Instr} {bad : BitVec 4} {s : State} (h : Sound q s) : Sound q (wakeDeep bad s) := by
  have h1 : Sound q { s with regs := s.restored bad } := Sound.withRegs (s := s) SMap.wf_ofList rfl rfl rfl rfl h
  unfold wakeDeep
  dsimp only
  refine bmRecompute_sound ?_
  refine Sound.ite (pdSoftReset_sound ?_) ?_
  all_goals
    refine forEach_sound (fun b t ht => Sound.ite (bankFail_sound ht) ht) ?_
    refine State.wr_sound (State.setReg_sound (forEach_sound (fun p t ht => ringsTake_sound ht) ?_))
    have h2 : ∀ t : State, Sound q t → Sound q (if t.cadRoot then t.modCad fun c => { c with tier := 1 } else t) :=
      fun t ht => Sound.ite (State.modCad_sound ht) ht
    refine h2 _ ?_
    refine forEach_sound (fun p t ht => tcEnter_sound ht) ?_
    exact assignPages_sound (storeFill_sound (State.modPwr_sound (Sound.congr rfl rfl rfl rfl rfl h1)))

theorem wakeSleep_sound {q : List Instr} {s : State} (h : Sound q s) :
    Sound q (wakeSleep s) := by
  unfold wakeSleep
  repeat' first
      | with_reducible assumption
      | with_reducible refine State.modPwr_sound ?_
      | with_reducible refine forEach_sound ?_ ?_
      | with_reducible refine cadReturn_sound ?_
      | with_reducible refine State.modPd_sound ?_
      | intro _

theorem pdVdm_sound {q : List Instr} {p : PortId} {h₀ w : Word} {s : State} (h : Sound q s) :
    Sound q (pdVdm p h₀ w s) := by
  unfold pdVdm
  repeat' first
      | with_reducible assumption
      | with_reducible refine cadIdentity_sound ?_
      | with_reducible refine cadSvids_sound ?_
      | with_reducible refine cadModes_sound ?_
      | with_reducible refine cadEnterRx_sound ?_
      | with_reducible refine cadExitRx_sound ?_
      | with_reducible refine cadAttentionRx_sound ?_
      | with_reducible refine pdSvdmRx_sound ?_
      | intro _
      | extract_lets
      | split

theorem pdControl_sound {q : List Instr} {p : PortId} {n : Nat} {s : State} (h : Sound q s) :
    Sound q (pdControl p n s) := by
  unfold pdControl
  repeat' first
      | with_reducible assumption
      | with_reducible refine pdIgnoredRx_sound ?_
      | with_reducible refine pdAcceptRx_sound ?_
      | with_reducible refine pdRejectRx_sound ?_
      | with_reducible refine pdPsRdyRx_sound ?_
      | with_reducible refine pdGetSourceCapRx_sound ?_
      | with_reducible refine pdGetSinkCapRx_sound ?_
      | with_reducible refine pdDrSwapRx_sound ?_
      | with_reducible refine pdPrSwapRx_sound ?_
      | with_reducible refine pdVconnSwapRx_sound ?_
      | with_reducible refine pdWaitRx_sound ?_
      | with_reducible refine pdSoftResetRx_sound ?_
      | with_reducible refine pdResponseRx_sound ?_
      | with_reducible refine pdGetSrcCapExtRx_sound ?_
      | with_reducible refine pdGetStatusRx_sound ?_
      | with_reducible refine pdFrSwapRx_sound ?_
      | with_reducible refine pdGetSnkCapExtRx_sound ?_
      | with_reducible refine pdGetSourceInfoRx_sound ?_
      | with_reducible refine pdGetRevisionRx_sound ?_
      | with_reducible refine pdUnsupportedRx_sound ?_
      | intro _
      | extract_lets
      | split

theorem pdData_sound {q : List Instr} {p : PortId} {n : Nat} {r : Bool} {l : List Word} {s : State} (h : Sound q s) :
    Sound q (pdData p n r l s) := by
  unfold pdData
  repeat' first
      | with_reducible assumption
      | with_reducible refine pdSourceCapsRx_sound ?_
      | with_reducible refine pdRequestRx_sound ?_
      | with_reducible refine pdBistRx_sound ?_
      | with_reducible refine pdSinkCapsRx_sound ?_
      | with_reducible refine pdAlertRx_sound ?_
      | with_reducible refine pdEprRequestRx_sound ?_
      | with_reducible refine pdEprModeEnterRx_sound ?_
      | with_reducible refine pdResponseRx_sound ?_
      | with_reducible refine pdEprModeExitRx_sound ?_
      | with_reducible refine pdVdm_sound ?_
      | with_reducible refine pdUnsupportedRx_sound ?_
      | intro _
      | extract_lets
      | split

theorem pdExtended_sound {q : List Instr} {p : PortId} {a b c : Nat} {s : State} (h : Sound q s) :
    Sound q (pdExtended p a b c s) := by
  unfold pdExtended
  repeat' first
      | with_reducible assumption
      | with_reducible refine pdResponseRx_sound ?_
      | with_reducible refine pdGetSourceCapRx_sound ?_
      | with_reducible refine pdGetSinkCapRx_sound ?_
      | with_reducible refine pdEprKeepaliveRx_sound ?_
      | with_reducible refine pdUnsupportedRx_sound ?_
      | intro _
      | extract_lets
      | split

theorem pdDeliver_sound {q : List Instr} {p : PortId} {m : List Byte} {s : State} (h : Sound q s) :
    Sound q (pdDeliver p m s) := by
  unfold pdDeliver
  repeat' first
      | with_reducible assumption
      | with_reducible refine pdExtended_sound ?_
      | with_reducible refine pdControl_sound ?_
      | with_reducible refine pdData_sound ?_
      | intro _
      | extract_lets
      | split

theorem sentinelHand_sound {q : List Instr} {p : PortId} {s : State} (h : Sound q s) :
    Sound q (sentinelHand p s) := by
  unfold sentinelHand
  dsimp only
  have h1 := State.modPd_sound (p := p) (f := fun y => { y with sentinel := none, kaLost := false }) h
  have h2 := Sound.ite (c := (s.port p).pd.kaLost = true) (pdKeepaliveLost_sound (p := p) h1) h1
  split
  · exact pdDeliver_sound h2
  · exact h2

theorem wakeDone_sound {q : List Instr} {bad : BitVec 4} {s : State} (h : Sound q s) :
    Sound q (wakeDone bad s) := by
  unfold wakeDone
  repeat' first
      | with_reducible assumption
      | with_reducible refine wakeDeep_sound ?_
      | with_reducible refine wakeSleep_sound ?_
      | with_reducible refine evqFlushAon_sound ?_
      | with_reducible refine forEach_sound ?_ ?_
      | with_reducible refine sentinelHand_sound ?_
      | with_reducible refine pwrEvt_sound ?_
      | with_reducible refine State.modPwr_sound ?_
      | with_reducible refine raiseAt_sound ?_
      | with_reducible refine State.modFlt_sound ?_
      | intro _
      | extract_lets
      | with_reducible refine Sound.ite ?_ ?_

theorem sleepLost_sound {q : List Instr} {s : State} (h : Sound q s) :
    Sound q (sleepLost s) := by
  unfold sleepLost
  repeat' first
      | with_reducible assumption
      | with_reducible refine forEach_sound ?_ ?_
      | with_reducible refine ppOff_sound ?_
      | with_reducible refine pmbAllOff_sound ?_
      | with_reducible refine axOff_sound ?_
      | with_reducible refine powerOff_sound ?_
      | with_reducible refine deepDetach_sound ?_
      | intro _

theorem attemptFail_sound {q : List Instr} {c : WakeFailCause} {s : State} (h : Sound q s) :
    Sound q (attemptFail c s) := by
  unfold attemptFail
  repeat' first
      | with_reducible assumption
      | with_reducible refine sleepLost_sound ?_
      | with_reducible refine State.wr_sound ?_
      | with_reducible refine State.modPwr_sound ?_
      | with_reducible refine State.modFlt_sound ?_
      | intro _
      | extract_lets
      | with_reducible refine Sound.ite ?_ ?_

theorem retryDue_sound {q : List Instr} {s : State} (h : Sound q s) :
    Sound q (retryDue s) := by
  unfold retryDue
  repeat' first
      | with_reducible assumption
      | with_reducible refine State.modPwr_sound ?_
      | with_reducible refine wakeAttempt_sound ?_
      | intro _
      | split

theorem sentinelRx_sound {q : List Instr} {p : PortId} {m : List Byte} {s : State} (h : Sound q s) :
    Sound q (sentinelRx p m s) := by
  unfold sentinelRx
  repeat' first
      | with_reducible assumption
      | with_reducible refine State.modPd_sound ?_
      | with_reducible refine wakeSeen_sound ?_
      | intro _
      | extract_lets
      | with_reducible refine Sound.ite ?_ ?_

theorem i2cMatch_sound {q : List Instr} {s : State} (h : Sound q s) :
    Sound q (i2cMatch s) := by
  unfold i2cMatch
  repeat' first
      | with_reducible assumption
      | with_reducible refine State.modPwr_sound ?_
      | with_reducible refine State.modI2c_sound ?_
      | with_reducible refine wakeSeen_sound ?_
      | intro _
      | extract_lets
      | with_reducible refine Sound.ite ?_ ?_

theorem setDphy_sound {q : List Instr} {b : Bool} {on : Bool} {s : State} (h : Sound q s) :
    Sound q (setDphy b on s) := by
  unfold setDphy
  repeat' first
      | with_reducible assumption
      | with_reducible refine State.modPwr_sound ?_

theorem dphyDown_sound {q : List Instr} {b : Bool} {s : State} (h : Sound q s) :
    Sound q (dphyDown b s) := by
  unfold dphyDown
  repeat' first
      | with_reducible assumption
      | with_reducible refine setDphy_sound ?_
      | intro _
      | split

theorem dphyUp_sound {q : List Instr} {b : Bool} {s : State} (h : Sound q s) :
    Sound q (dphyUp b s) := by
  unfold dphyUp
  repeat' first
      | with_reducible assumption
      | with_reducible refine setDphy_sound ?_
      | intro _
      | split

theorem deepPoll_sound {q : List Instr} {p : PortId} {seen : Bool} {s : State} (h : Sound q s) :
    Sound q (deepPoll p seen s) := by
  unfold deepPoll
  repeat' first
      | with_reducible assumption
      | with_reducible refine wakeSeen_sound ?_
      | intro _
      | split

theorem modUport_sound {q : List Instr} {nn : Nat} {f : UPort → UPort} {s : State} (h : Sound q s) :
    Sound q (modUport nn f s) := by
  unfold modUport
  repeat' first
      | with_reducible assumption
      | with_reducible refine State.modU_sound ?_
      | with_reducible refine State.modHub_sound ?_
      | intro _
      | split

theorem uEvt_sound {q : List Instr} {nn : Nat} {k : Nat} {s : State} (h : Sound q s) :
    Sound q (uEvt nn k s) := by
  unfold uEvt
  repeat' first
      | with_reducible assumption
      | with_reducible refine hpEvt_sound ?_
      | intro _
      | split

theorem answer_sound {q : List Instr} {a : UsbAnswer} {s : State} (h : Sound q s) :
    Sound q (answer a s) := by
  unfold answer
  repeat' first
      | with_reducible assumption
      | with_reducible refine State.modHub_sound ?_

theorem usbReq_sound {q : List Instr} {f : State → State} {s : State} (hf : ∀ t, Sound q t → Sound q (f t))
    (h : Sound q s) : Sound q (usbReq f s) := by
  unfold usbReq
  exact Sound.ite (hf _ (leaveIdle_sound h)) h

theorem cfgReq_sound {q : List Instr} {f : State → State} {s : State} (hf : ∀ t, Sound q t → Sound q (f t))
    (h : Sound q s) : Sound q (cfgReq f s) := by
  unfold cfgReq
  exact usbReq_sound (fun t ht => Sound.ite (hf t ht) (answer_sound ht)) h

theorem reply_sound {q : List Instr} {l : List Byte} {len : Nat} {s : State} (h : Sound q s) :
    Sound q (reply l len s) := by
  unfold reply
  repeat' first
      | with_reducible assumption
      | with_reducible refine answer_sound ?_

theorem getDescriptor_sound {q : List Instr} {ty : Nat} {k : Nat} {len : Nat} {s : State} (h : Sound q s) :
    Sound q (getDescriptor ty k len s) := by
  unfold getDescriptor
  repeat' first
      | with_reducible assumption
      | with_reducible refine usbReq_sound ?_ ?_
      | with_reducible refine reply_sound ?_
      | with_reducible refine answer_sound ?_
      | intro _
      | split

theorem setAddress_sound {q : List Instr} {a : BitVec 7} {s : State} (h : Sound q s) :
    Sound q (setAddress a s) := by
  unfold setAddress
  repeat' first
      | with_reducible assumption
      | with_reducible refine usbReq_sound ?_ ?_
      | with_reducible refine answer_sound ?_
      | with_reducible refine State.modHub_sound ?_
      | intro _

theorem p17Connect_sound {q : List Instr} {s : State} (h : Sound q s) :
    Sound q (p17Connect s) := by
  unfold p17Connect
  repeat' first
      | with_reducible assumption
      | with_reducible refine State.modHub_sound ?_

theorem setConfiguration_sound {q : List Instr} {cfg : Nat} {s : State} (h : Sound q s) :
    Sound q (setConfiguration cfg s) := by
  unfold setConfiguration
  repeat' first
      | with_reducible assumption
      | with_reducible refine usbReq_sound ?_ ?_
      | with_reducible refine answer_sound ?_
      | with_reducible refine hubEvt_sound ?_
      | with_reducible refine hubUnconfigure_sound ?_
      | with_reducible refine State.modHub_sound ?_
      | with_reducible refine forEach_sound ?_ ?_
      | with_reducible refine State.modU_sound ?_
      | with_reducible refine ttRunAll_sound ?_
      | with_reducible refine p17Connect_sound ?_
      | intro _
      | extract_lets
      | with_reducible refine Sound.ite ?_ ?_

theorem setInterface_sound {q : List Instr} {alt : Nat} {s : State} (h : Sound q s) :
    Sound q (setInterface alt s) := by
  unfold setInterface
  repeat' first
      | with_reducible assumption
      | with_reducible refine cfgReq_sound ?_ ?_
      | with_reducible refine answer_sound ?_
      | with_reducible refine ttResetAll_sound ?_
      | with_reducible refine State.modHub_sound ?_
      | intro _
      | split

theorem getStatus_sound {q : List Instr} {s : State} (h : Sound q s) :
    Sound q (getStatus s) := by
  unfold getStatus
  repeat' first
      | with_reducible assumption
      | with_reducible refine usbReq_sound ?_ ?_
      | with_reducible refine reply_sound ?_
      | intro _

theorem deviceFeature_sound {q : List Instr} {on : Bool} {s : State} (h : Sound q s) :
    Sound q (deviceFeature on s) := by
  unfold deviceFeature
  repeat' first
      | with_reducible assumption
      | with_reducible refine usbReq_sound ?_ ?_
      | with_reducible refine answer_sound ?_
      | with_reducible refine State.modHub_sound ?_
      | intro _

theorem getHubStatus_sound {q : List Instr} {s : State} (h : Sound q s) :
    Sound q (getHubStatus s) := by
  unfold getHubStatus
  repeat' first
      | with_reducible assumption
      | with_reducible refine cfgReq_sound ?_ ?_
      | with_reducible refine reply_sound ?_
      | intro _

theorem getPortStatus_sound {q : List Instr} {nn : Nat} {s : State} (h : Sound q s) :
    Sound q (getPortStatus nn s) := by
  unfold getPortStatus
  repeat' first
      | with_reducible assumption
      | with_reducible refine cfgReq_sound ?_ ?_
      | with_reducible refine reply_sound ?_
      | with_reducible refine answer_sound ?_
      | intro _
      | split

theorem hubFeature_sound {q : List Instr} {on : Bool} {feature : Nat} {s : State} (h : Sound q s) :
    Sound q (hubFeature on feature s) := by
  unfold hubFeature
  repeat' first
      | with_reducible assumption
      | with_reducible refine cfgReq_sound ?_ ?_
      | with_reducible refine answer_sound ?_
      | with_reducible refine State.modHub_sound ?_
      | intro _
      | split

theorem classStall_sound {q : List Instr} {s : State} (h : Sound q s) :
    Sound q (classStall s) := by
  unfold classStall
  repeat' first
      | with_reducible assumption
      | with_reducible refine usbReq_sound ?_ ?_
      | with_reducible refine answer_sound ?_
      | intro _

theorem portReq_sound {q : List Instr} {n : Nat} {f : State → State} {s : State}
    (hf : ∀ t, Sound q t → Sound q (f t)) (h : Sound q s) : Sound q (portReq n f s) := by
  unfold portReq
  exact cfgReq_sound (fun t ht => Sound.ite (hf _ (answer_sound ht)) (answer_sound ht)) h

theorem portReset_sound {q : List Instr} {nn : Nat} {s : State} (h : Sound q s) :
    Sound q (portReset nn s) := by
  unfold portReset
  repeat' first
      | with_reducible assumption
      | with_reducible refine portReq_sound ?_ ?_
      | with_reducible refine modUport_sound ?_
      | with_reducible refine efnDown_sound ?_
      | intro _
      | extract_lets
      | with_reducible refine Sound.ite ?_ ?_

theorem portResetDone_sound {q : List Instr} {nn : Nat} {sp : UsbSpeed} {s : State} (h : Sound q s) :
    Sound q (portResetDone nn sp s) := by
  unfold portResetDone
  repeat' first
      | with_reducible assumption
      | with_reducible refine ttReset_sound ?_
      | with_reducible refine uDisconnect_sound ?_
      | with_reducible refine State.modU_sound ?_
      | with_reducible refine hpEvt_sound ?_
      | with_reducible refine State.bump_sound ?_
      | with_reducible refine modUport_sound ?_
      | intro _
      | extract_lets
      | with_reducible refine Sound.ite ?_ ?_
      | split

theorem portSuspend_sound {q : List Instr} {nn : Nat} {s : State} (h : Sound q s) :
    Sound q (portSuspend nn s) := by
  unfold portSuspend
  repeat' first
      | with_reducible assumption
      | with_reducible refine portReq_sound ?_ ?_
      | with_reducible refine uEvt_sound ?_
      | with_reducible refine modUport_sound ?_
      | intro _
      | split

theorem portResume_sound {q : List Instr} {nn : Nat} {s : State} (h : Sound q s) :
    Sound q (portResume nn s) := by
  unfold portResume
  repeat' first
      | with_reducible assumption
      | with_reducible refine portReq_sound ?_ ?_
      | with_reducible refine modUport_sound ?_
      | intro _
      | split

theorem portResumeDone_sound {q : List Instr} {nn : Nat} {s : State} (h : Sound q s) :
    Sound q (portResumeDone nn s) := by
  unfold portResumeDone
  repeat' first
      | with_reducible assumption
      | with_reducible refine modUport_sound ?_
      | with_reducible refine uEvt_sound ?_
      | intro _
      | extract_lets
      | with_reducible refine Sound.ite ?_ ?_

theorem portPowerFeature_sound {q : List Instr} {on : Bool} {nn : Nat} {s : State} (h : Sound q s) :
    Sound q (portPowerFeature on nn s) := by
  unfold portPowerFeature
  repeat' first
      | with_reducible assumption
      | with_reducible refine portReq_sound ?_ ?_
      | with_reducible refine ppKick_sound ?_
      | with_reducible refine State.modU_sound ?_
      | with_reducible refine ocTrack_sound ?_
      | with_reducible refine ppOff_sound ?_
      | with_reducible refine uDisconnect_sound ?_
      | intro _
      | extract_lets
      | with_reducible refine Sound.ite ?_ ?_
      | split

theorem uDisable_sound {q : List Instr} {nn : Nat} {s : State} (h : Sound q s) :
    Sound q (uDisable nn s) := by
  unfold uDisable
  repeat' first
      | with_reducible assumption
      | with_reducible refine modUport_sound ?_
      | with_reducible refine ttDiscard_sound ?_
      | intro _
      | extract_lets
      | with_reducible refine Sound.ite ?_ ?_
      | split

theorem portEnableClear_sound {q : List Instr} {nn : Nat} {s : State} (h : Sound q s) :
    Sound q (portEnableClear nn s) := by
  unfold portEnableClear
  repeat' first
      | with_reducible assumption
      | with_reducible refine portReq_sound ?_ ?_
      | with_reducible refine uDisable_sound ?_
      | intro _
      | split

theorem portTest_sound {q : List Instr} {nn : Nat} {sel : Nat} {s : State} (h : Sound q s) :
    Sound q (portTest nn sel s) := by
  unfold portTest
  repeat' first
      | with_reducible assumption
      | with_reducible refine portReq_sound ?_ ?_
      | with_reducible refine answer_sound ?_
      | with_reducible refine modUport_sound ?_
      | with_reducible refine State.modHub_sound ?_
      | intro _
      | extract_lets
      | with_reducible refine Sound.ite ?_ ?_

theorem portChangeClear_sound {q : List Instr} {nn : Nat} {feature : Nat} {s : State} (h : Sound q s) :
    Sound q (portChangeClear nn feature s) := by
  unfold portChangeClear
  repeat' first
      | with_reducible assumption
      | with_reducible refine portReq_sound ?_ ?_
      | with_reducible refine modUport_sound ?_
      | with_reducible refine answer_sound ?_
      | intro _
      | extract_lets
      | with_reducible refine Sound.ite ?_ ?_
      | split

theorem l1Result_sound {q : List Instr} {nn : Nat} {r : Nat} {besl : Nat} {rwe : Bool} {dev : Nat} {s : State} (h : Sound q s) :
    Sound q (l1Result nn r besl rwe dev s) := by
  unfold l1Result
  repeat' first
      | with_reducible assumption
      | with_reducible refine State.fresh_sound ?_
      | with_reducible refine reply_sound ?_
      | with_reducible refine State.setReg_sound ?_
      | intro _
      | extract_lets
      | with_reducible refine Sound.ite ?_ ?_
      | split

theorem portL1_sound {q : List Instr} {nn : Nat} {besl : Nat} {rwe : Bool} {dev : Nat} {ans : LpmAnswer} {s : State} (h : Sound q s) :
    Sound q (portL1 nn besl rwe dev ans s) := by
  unfold portL1
  repeat' first
      | with_reducible assumption
      | with_reducible refine portReq_sound ?_ ?_
      | with_reducible refine l1Result_sound ?_
      | with_reducible refine answer_sound ?_
      | with_reducible refine uEvt_sound ?_
      | with_reducible refine modUport_sound ?_
      | intro _
      | extract_lets
      | with_reducible refine Sound.ite ?_ ?_
      | split

theorem l1Exit_sound {q : List Instr} {nn : Nat} {s : State} (h : Sound q s) :
    Sound q (l1Exit nn s) := by
  unfold l1Exit
  repeat' first
      | with_reducible assumption
      | with_reducible refine modUport_sound ?_
      | intro _
      | split

theorem portL1Clear_sound {q : List Instr} {nn : Nat} {s : State} (h : Sound q s) :
    Sound q (portL1Clear nn s) := by
  unfold portL1Clear
  repeat' first
      | with_reducible assumption
      | with_reducible refine portReq_sound ?_ ?_
      | with_reducible refine l1Exit_sound ?_
      | intro _

theorem portL1DeviceExit_sound {q : List Instr} {p : PortId} {s : State} (h : Sound q s) :
    Sound q (portL1DeviceExit p s) := by
  unfold portL1DeviceExit
  repeat' first
      | with_reducible assumption
      | with_reducible refine l1Exit_sound ?_
      | intro _
      | split

theorem portConnect_sound {q : List Instr} {p : PortId} {s : State} (h : Sound q s) :
    Sound q (portConnect p s) := by
  unfold portConnect
  repeat' first
      | with_reducible assumption
      | with_reducible refine hpEvt_sound ?_
      | with_reducible refine State.modU_sound ?_
      | intro _
      | extract_lets
      | with_reducible refine Sound.ite ?_ ?_

theorem portDisconnect_sound {q : List Instr} {p : PortId} {s : State} (h : Sound q s) :
    Sound q (portDisconnect p s) := by
  unfold portDisconnect
  repeat' first
      | with_reducible assumption
      | with_reducible refine ttReset_sound ?_
      | with_reducible refine uDisconnect_sound ?_
      | with_reducible refine ttDiscard_sound ?_
      | intro _
      | split

theorem portBabble_sound {q : List Instr} {p : PortId} {s : State} (h : Sound q s) :
    Sound q (portBabble p s) := by
  unfold portBabble
  repeat' first
      | with_reducible assumption
      | with_reducible refine State.modU_sound ?_
      | with_reducible refine uDisable_sound ?_
      | with_reducible refine hpEvt_sound ?_
      | with_reducible refine State.bump_sound ?_
      | intro _
      | extract_lets
      | with_reducible refine Sound.ite ?_ ?_

theorem busReset_sound {q : List Instr} {hs : Bool} {s : State} (h : Sound q s) :
    Sound q (busReset hs s) := by
  unfold busReset
  repeat' first
      | with_reducible assumption
      | with_reducible refine hubBusReset_sound ?_
      | with_reducible refine leaveIdle_sound ?_
      | intro _
      | split

theorem globalSuspend_sound {q : List Instr} {s : State} (h : Sound q s) :
    Sound q (globalSuspend s) := by
  unfold globalSuspend
  repeat' first
      | with_reducible assumption
      | with_reducible refine tb2Lose_sound ?_
      | with_reducible refine State.modHub_sound ?_
      | with_reducible refine forEach_sound ?_ ?_
      | with_reducible refine modUport_sound ?_
      | with_reducible refine hubEvt_sound ?_
      | with_reducible refine ttIdle_sound ?_
      | intro _
      | extract_lets
      | with_reducible refine Sound.ite ?_ ?_

theorem hostResume_sound {q : List Instr} {s : State} (h : Sound q s) :
    Sound q (hostResume s) := by
  unfold hostResume
  repeat' first
      | with_reducible assumption
      | with_reducible refine State.modHub_sound ?_
      | with_reducible refine forEach_sound ?_ ?_
      | with_reducible refine modUport_sound ?_
      | with_reducible refine hubEvt_sound ?_
      | with_reducible refine ttRunAll_sound ?_
      | intro _
      | extract_lets
      | with_reducible refine Sound.ite ?_ ?_

theorem wakeUpstream_sound {q : List Instr} {s : State} (h : Sound q s) :
    Sound q (wakeUpstream s) := by
  unfold wakeUpstream
  repeat' first
      | with_reducible assumption
      | with_reducible refine hubEvt_sound ?_
      | with_reducible refine State.modHub_sound ?_
      | intro _
      | extract_lets
      | with_reducible refine Sound.ite ?_ ?_

theorem remoteK_sound {q : List Instr} {p : PortId} {s : State} (h : Sound q s) :
    Sound q (remoteK p s) := by
  unfold remoteK
  repeat' first
      | with_reducible assumption
      | with_reducible refine hpEvt_sound ?_
      | with_reducible refine State.wr_sound ?_
      | with_reducible refine wakeUpstream_sound ?_
      | with_reducible refine State.modU_sound ?_
      | intro _
      | extract_lets
      | with_reducible refine Sound.ite ?_ ?_

theorem remoteEvent_sound {q : List Instr} {s : State} (h : Sound q s) :
    Sound q (remoteEvent s) := by
  unfold remoteEvent
  repeat' first
      | with_reducible assumption
      | with_reducible refine wakeUpstream_sound ?_
      | intro _
      | split

theorem lpmToken_sound {q : List Instr} {link : Nat} {rwe : Bool} {s : State} (h : Sound q s) :
    Sound q (lpmToken link rwe s) := by
  unfold lpmToken
  repeat' first
      | with_reducible assumption
      | with_reducible refine usbReq_sound ?_ ?_
      | with_reducible refine answer_sound ?_
      | with_reducible refine hubEvt_sound ?_
      | with_reducible refine tb2Lose_sound ?_
      | with_reducible refine State.modHub_sound ?_
      | intro _
      | extract_lets
      | with_reducible refine Sound.ite ?_ ?_

theorem l1Resume_sound {q : List Instr} {s : State} (h : Sound q s) :
    Sound q (l1Resume s) := by
  unfold l1Resume
  repeat' first
      | with_reducible assumption
      | with_reducible refine hubEvt_sound ?_
      | with_reducible refine State.modHub_sound ?_
      | intro _
      | split

theorem l1Remote_sound {q : List Instr} {s : State} (h : Sound q s) :
    Sound q (l1Remote s) := by
  unfold l1Remote
  repeat' first
      | with_reducible assumption
      | with_reducible refine wakeUpstream_sound ?_
      | intro _
      | split

theorem hubConnect_sound {q : List Instr} {s : State} (h : Sound q s) :
    Sound q (hubConnect s) := by
  unfold hubConnect
  repeat' first
      | with_reducible assumption
      | with_reducible refine hubEvt_sound ?_
      | with_reducible refine State.modHub_sound ?_
      | intro _
      | split

theorem sofRx_sound {q : List Instr} {f : BitVec 11} {s : State} (h : Sound q s) :
    Sound q (sofRx f s) := by
  unfold sofRx
  repeat' first
      | with_reducible assumption
      | with_reducible refine leaveIdle_sound ?_
      | with_reducible refine State.modTim_sound ?_
      | with_reducible refine timEvt_sound ?_
      | with_reducible refine timCapture_sound ?_
      | intro _
      | extract_lets
      | with_reducible refine Sound.ite ?_ ?_

theorem sofMissed_sound {q : List Instr} {s : State} (h : Sound q s) :
    Sound q (sofMissed s) := by
  unfold sofMissed
  repeat' first
      | with_reducible assumption
      | with_reducible refine tb2Lose_sound ?_
      | with_reducible refine State.modTim_sound ?_
      | intro _
      | extract_lets
      | with_reducible refine Sound.ite ?_ ?_

theorem writeOpen_sound {q : List Instr} {l : List Nat} {s : State} (h : Sound q s) :
    Sound q (writeOpen l s) := by
  unfold writeOpen
  repeat' first
      | with_reducible assumption
      | with_reducible refine forEach_sound ?_ ?_
      | with_reducible refine State.fresh_sound ?_
      | with_reducible refine storeWrite_sound ?_
      | intro _

theorem writeData_sound {q : List Instr} {ks : List Nat} {l : List Byte} {s : State} (h : Sound q s) :
    Sound q (writeData ks l s) := by
  induction ks generalizing l s with
  | nil => exact h
  | cons k ks ih =>
    match l with
    | [] => exact h
    | [_] => exact storeWrite_sound (State.fresh_sound h)
    | [_, _] => exact storeWrite_sound (State.fresh_sound h)
    | [_, _, _] => exact storeWrite_sound (State.fresh_sound h)
    | _ :: _ :: _ :: _ :: _ => exact ih (storeWrite_sound h)

theorem readData_sound {q : List Instr} {x0 : List Nat} {s : State} (h : Sound q s) :
    Sound q (readData x0 s).2 := by
  induction x0 generalizing s with
  | nil =>
    unfold readData
    repeat' first
          | with_reducible assumption
  | cons x l ih =>
    unfold readData
    repeat' first
          | with_reducible assumption
          | (with_reducible refine ih ?_)
          | with_reducible refine storeRead_sound ?_

theorem ttPoison_sound {q : List Instr} {p : PortId} {a : Nat} {s : State} (h : Sound q s) :
    Sound q (ttPoison p a s) := by
  unfold ttPoison
  repeat' first
      | with_reducible assumption
      | with_reducible refine ttEvt_sound ?_
      | with_reducible refine State.bump_sound ?_
      | with_reducible refine raiseFault_sound ?_

theorem ttBite_sound {q : List Instr} {p : PortId} {a : Option Nat} {s : State} (h : Sound q s) :
    Sound q (ttBite p a s) := by
  unfold ttBite
  repeat' first
      | with_reducible assumption
      | with_reducible refine ttPoison_sound ?_
      | intro _
      | split

theorem modNp_sound {q : List Instr} {p : PortId} {k : Fin 4} {f : NpBuf → NpBuf} {s : State} (h : Sound q s) :
    Sound q (modNp p k f s) := by
  unfold modNp
  repeat' first
      | with_reducible assumption
      | with_reducible refine State.modTt_sound ?_

theorem npFree_sound {q : List Instr} {p : PortId} {k : Fin 4} {s : State} (h : Sound q s) :
    Sound q (npFree p k s) := by
  unfold npFree
  repeat' first
      | with_reducible assumption
      | with_reducible refine modNp_sound ?_

theorem modRec_sound {q : List Instr} {p : PortId} {k : Nat} {f : PRecord → PRecord} {s : State} (h : Sound q s) :
    Sound q (modRec p k f s) := by
  unfold modRec
  repeat' first
      | with_reducible assumption
      | with_reducible refine State.modTt_sound ?_

theorem recFree_sound {q : List Instr} {p : PortId} {k : Nat} {s : State} (h : Sound q s) :
    Sound q (recFree p k s) := by
  unfold recFree
  repeat' first
      | with_reducible assumption
      | with_reducible refine State.modTt_sound ?_

theorem npStart_sound {q : List Instr} {p : PortId} {k : Fin 4} {s : State} (h : Sound q s) :
    Sound q (npStart p k s) := by
  unfold npStart
  repeat' first
      | with_reducible assumption
      | with_reducible refine readData_sound ?_
      | with_reducible refine npFree_sound ?_
      | with_reducible refine ttPoison_sound ?_
      | with_reducible refine modNp_sound ?_
      | with_reducible refine ttBite_sound ?_
      | intro _
      | extract_lets
      | with_reducible refine Sound.ite ?_ ?_
      | split
      | dsimp only
      | (apply Sound.of_pair; assumption)
      | (apply Sound.of; assumption; rfl; rfl; rfl; rfl; rfl)
      | (dsimp +zetaDelta only; split)

theorem recStart_sound {q : List Instr} {p : PortId} {r : PRecord} {s : State} (h : Sound q s) :
    Sound q (recStart p r s) := by
  unfold recStart
  repeat' first
      | with_reducible assumption
      | with_reducible refine readData_sound ?_
      | with_reducible refine recFree_sound ?_
      | with_reducible refine ttPoison_sound ?_
      | with_reducible refine modRec_sound ?_
      | with_reducible refine ttBite_sound ?_
      | intro _
      | extract_lets
      | with_reducible refine Sound.ite ?_ ?_
      | split
      | dsimp only
      | (apply Sound.of_pair; assumption)
      | (apply Sound.of; assumption; rfl; rfl; rfl; rfl; rfl)
      | (dsimp +zetaDelta only; split)

theorem ttNext_sound {q : List Instr} {p : PortId} {s : State} (h : Sound q s) :
    Sound q (ttNext p s) := by
  unfold ttNext
  repeat' first
      | with_reducible assumption
      | with_reducible refine recStart_sound ?_
      | with_reducible refine npStart_sound ?_
      | intro _
      | extract_lets
      | with_reducible refine Sound.ite ?_ ?_
      | split

theorem ttFrame_sound {q : List Instr} {p : PortId} {s : State} (h : Sound q s) :
    Sound q (ttFrame p s) := by
  unfold ttFrame
  repeat' first
      | with_reducible assumption
      | with_reducible refine ttNext_sound ?_
      | with_reducible refine State.modTt_sound ?_
      | intro _
      | split

theorem countError_sound {q : List Instr} {p : PortId} {r : XactResult} {s : State} (h : Sound q s) :
    Sound q (countError p r s) := by
  unfold countError
  repeat' first
      | with_reducible assumption
      | with_reducible refine State.bump_sound ?_
      | intro _
      | split

theorem npEnd_sound {q : List Instr} {p : PortId} {k : Fin 4} {r : XactResult} {data1 : Bool} {data : List Byte} {s : State} (h : Sound q s) :
    Sound q (npEnd p k r data1 data s) := by
  unfold npEnd
  repeat' first
      | with_reducible assumption
      | with_reducible refine countError_sound ?_
      | with_reducible refine modNp_sound ?_
      | with_reducible refine writeData_sound ?_
      | intro _
      | extract_lets
      | with_reducible refine Sound.ite ?_ ?_

theorem recEnd_sound {q : List Instr} {p : PortId} {x : PRecord} {r : XactResult} {data1 : Bool} {data : List Byte} {s : State} (h : Sound q s) :
    Sound q (recEnd p x r data1 data s) := by
  unfold recEnd
  repeat' first
      | with_reducible assumption
      | with_reducible refine countError_sound ?_
      | with_reducible refine State.modTt_sound ?_
      | with_reducible refine writeData_sound ?_
      | intro _
      | extract_lets
      | with_reducible refine Sound.ite ?_ ?_

theorem ttEnd_sound {q : List Instr} {p : PortId} {r : XactResult} {data1 : Bool} {data : List Byte} {s : State} (h : Sound q s) :
    Sound q (ttEnd p r data1 data s) := by
  unfold ttEnd
  repeat' first
      | with_reducible assumption
      | with_reducible refine ttNext_sound ?_
      | with_reducible refine npEnd_sound ?_
      | with_reducible refine recEnd_sound ?_
      | intro _
      | extract_lets
      | with_reducible refine Sound.ite ?_ ?_
      | split

theorem npFill_sound {q : List Instr} {p : PortId} {k : Fin 4} {data : List Byte} {s : State} (h : Sound q s) :
    Sound q (npFill p k data s) := by
  unfold npFill
  repeat' first
      | with_reducible assumption
      | with_reducible refine modNp_sound ?_
      | with_reducible refine writeData_sound ?_

theorem npTake_sound {q : List Instr} {p : PortId} {k : Fin 4} {ty : NpType} {dirIn : Bool} {addr : BitVec 7} {ep : BitVec 4} {data : List Byte} {s : State} (h : Sound q s) :
    Sound q (npTake p k ty dirIn addr ep data s) := by
  unfold npTake
  repeat' first
      | with_reducible assumption
      | with_reducible refine writeOpen_sound ?_
      | with_reducible refine modNp_sound ?_
      | with_reducible refine npFill_sound ?_
      | with_reducible refine State.modTt_sound ?_

theorem ttStart_sound {q : List Instr} {p : PortId} {ty : NpType} {dirIn : Bool} {addr : BitVec 7} {ep : BitVec 4} {data : List Byte} {crcOk : Bool} {s : State} (h : Sound q s) :
    Sound q (ttStart p ty dirIn addr ep data crcOk s) := by
  unfold ttStart
  repeat' first
      | with_reducible assumption
      | with_reducible refine answer_sound ?_
      | with_reducible refine npFill_sound ?_
      | with_reducible refine npTake_sound ?_
      | with_reducible refine State.modTt_sound ?_
      | intro _
      | extract_lets
      | with_reducible refine Sound.ite ?_ ?_
      | split

theorem ttComplete_sound {q : List Instr} {p : PortId} {dirIn : Bool} {addr : BitVec 7} {ep : BitVec 4} {s : State} (h : Sound q s) :
    Sound q (ttComplete p dirIn addr ep s) := by
  unfold ttComplete
  repeat' first
      | with_reducible assumption
      | with_reducible refine answer_sound ?_
      | with_reducible refine readData_sound ?_
      | with_reducible refine ttPoison_sound ?_
      | with_reducible refine npFree_sound ?_
      | intro _
      | extract_lets
      | with_reducible refine Sound.ite ?_ ?_
      | split

theorem ttStale_sound {q : List Instr} {p : PortId} {k : Fin 4} {s : State} (h : Sound q s) :
    Sound q (ttStale p k s) := by
  unfold ttStale
  repeat' first
      | with_reducible assumption
      | with_reducible refine ttEvt_sound ?_
      | with_reducible refine modNp_sound ?_
      | intro _
      | extract_lets
      | with_reducible refine Sound.ite ?_ ?_

theorem ttPerStart_sound {q : List Instr} {p : PortId} {iso : Bool} {dirIn : Bool} {addr : BitVec 7} {ep : BitVec 4} {data : List Byte} {s : State} (h : Sound q s) :
    Sound q (ttPerStart p iso dirIn addr ep data s) := by
  unfold ttPerStart
  repeat' first
      | with_reducible assumption
      | with_reducible refine answer_sound ?_
      | with_reducible refine writeOpen_sound ?_
      | with_reducible refine writeData_sound ?_
      | with_reducible refine State.modTt_sound ?_
      | with_reducible refine raiseAt_sound ?_
      | with_reducible refine ttEvt_sound ?_
      | with_reducible refine State.bump_sound ?_
      | intro _
      | extract_lets
      | with_reducible refine Sound.ite ?_ ?_
      | split

theorem recAnswer_sound {q : List Instr} {p : PortId} {r : PRecord} {s : State} (h : Sound q s) :
    Sound q (recAnswer p r s) := by
  unfold recAnswer
  repeat' first
      | with_reducible assumption
      | with_reducible refine readData_sound ?_
      | with_reducible refine answer_sound ?_
      | with_reducible refine ttPoison_sound ?_
      | intro _
      | extract_lets
      | with_reducible refine Sound.ite ?_ ?_
      | split

theorem ttPerComplete_sound {q : List Instr} {p : PortId} {dirIn : Bool} {addr : BitVec 7} {ep : BitVec 4} {last : Bool} {s : State} (h : Sound q s) :
    Sound q (ttPerComplete p dirIn addr ep last s) := by
  unfold ttPerComplete
  repeat' first
      | with_reducible assumption
      | with_reducible refine answer_sound ?_
      | with_reducible refine recAnswer_sound ?_
      | with_reducible refine recFree_sound ?_
      | intro _
      | extract_lets
      | with_reducible refine Sound.ite ?_ ?_
      | split

theorem ttExpire_sound {q : List Instr} {p : PortId} {k : Nat} {s : State} (h : Sound q s) :
    Sound q (ttExpire p k s) := by
  unfold ttExpire
  repeat' first
      | with_reducible assumption
      | with_reducible refine recFree_sound ?_
      | intro _
      | split

theorem ttReq_sound {q : List Instr} {n : Nat} {f : List PortId → State → State} {s : State}
    (hf : ∀ l t, Sound q t → Sound q (f l t)) (h : Sound q s) : Sound q (ttReq n f s) := by
  unfold ttReq
  exact cfgReq_sound (fun t ht => Sound.ite (answer_sound ht) (hf _ t ht)) h

theorem ttClear_sound {q : List Instr} {v : BitVec 16} {p : PortId} {s : State} (h : Sound q s) :
    Sound q (ttClear v p s) := by
  unfold ttClear
  repeat' first
      | with_reducible assumption
      | with_reducible refine npFree_sound ?_
      | intro _
      | extract_lets
      | with_reducible refine Sound.ite ?_ ?_
      | split

theorem ttStop_sound {q : List Instr} {p : PortId} {s : State} (h : Sound q s) :
    Sound q (ttStop p s) := by
  unfold ttStop
  repeat' first
      | with_reducible assumption
      | with_reducible refine ttEvt_sound ?_
      | with_reducible refine State.modTt_sound ?_
      | intro _
      | split

theorem ttGetState_sound {q : List Instr} {nn : Nat} {len : Nat} {s : State} (h : Sound q s) :
    Sound q (ttGetState nn len s) := by
  unfold ttGetState
  repeat' first
      | with_reducible assumption
      | with_reducible refine ttReq_sound ?_ ?_
      | with_reducible refine reply_sound ?_
      | with_reducible refine answer_sound ?_
      | intro _
      | split

theorem ttClearBuffer_sound {q : List Instr} {nn : Nat} {v : BitVec 16} {s : State} (h : Sound q s) :
    Sound q (ttClearBuffer nn v s) := by
  unfold ttClearBuffer
  repeat' first
      | with_reducible assumption
      | with_reducible refine ttReq_sound ?_ ?_
      | with_reducible refine answer_sound ?_
      | with_reducible refine forEach_sound ?_ ?_
      | with_reducible refine ttClear_sound ?_
      | intro _

theorem ttResetReq_sound {q : List Instr} {nn : Nat} {s : State} (h : Sound q s) :
    Sound q (ttResetReq nn s) := by
  unfold ttResetReq
  repeat' first
      | with_reducible assumption
      | with_reducible refine ttReq_sound ?_ ?_
      | with_reducible refine answer_sound ?_
      | with_reducible refine forEach_sound ?_ ?_
      | with_reducible refine ttReset_sound ?_
      | intro _

theorem ttStopReq_sound {q : List Instr} {nn : Nat} {s : State} (h : Sound q s) :
    Sound q (ttStopReq nn s) := by
  unfold ttStopReq
  repeat' first
      | with_reducible assumption
      | with_reducible refine ttReq_sound ?_ ?_
      | with_reducible refine answer_sound ?_
      | with_reducible refine forEach_sound ?_ ?_
      | with_reducible refine ttStop_sound ?_
      | intro _

theorem ttCmd_sound {q : List Instr} {p : PortId} {v : Word} {s : State} (h : Sound q s) :
    Sound q (ttCmd p v s) := by
  unfold ttCmd
  repeat' first
      | with_reducible assumption
      | with_reducible refine forEach_sound ?_ ?_
      | with_reducible refine npFree_sound ?_
      | with_reducible refine ttReset_sound ?_
      | intro _
      | extract_lets
      | with_reducible refine Sound.ite ?_ ?_

end Sys2Proof.Machine
end

