-- ==== Sys2Proof/Laws/Sound7.lean ====
section
/-! SUPPORT. Soundness, carried through MeterAct.lean, EfnAct.lean, Commit.lean, Access.lean, Image.lean, Start.lean. -/

namespace Sys2Proof.Machine


theorem ppSample_sound {q : List Instr} {p : PortId} {v : Int} {i : Int} {s : State} (h : Sound q s) :
    Sound q (ppSample p v i s) := by
  unfold ppSample
  repeat' first
      | with_reducible assumption
      | with_reducible refine State.modPp_sound ?_

theorem meterSample_sound {q : List Instr} {v : List Int} {i : List Int} {s : State} (h : Sound q s) :
    Sound q (meterSample v i s) := by
  unfold meterSample
  repeat' first
      | with_reducible assumption
      | with_reducible refine forEach_sound ?_ ?_
      | with_reducible refine ppSample_sound ?_
      | with_reducible refine State.modMt_sound ?_
      | intro _
      | extract_lets
      | with_reducible refine Sound.ite ?_ ?_

theorem mlogPut_sound {q : List Instr} {x0 : Nat} {x1 : List Word} {s : State} (h : Sound q s) :
    Sound q (mlogPut x0 x1 s) := by
  induction x1 generalizing s x0 with
  | nil =>
    unfold mlogPut
    repeat' first
          | with_reducible assumption
  | cons x l ih =>
    unfold mlogPut
    repeat' first
          | with_reducible assumption
          | (with_reducible refine ih ?_)
          | with_reducible refine storeWrite_sound ?_

theorem mlogPad_sound {q : List Instr} {off : Nat} {nn : Nat} {s : State} (h : Sound q s) :
    Sound q (mlogPad off nn s) := by
  unfold mlogPad
  repeat' first
      | with_reducible assumption
      | with_reducible refine State.fresh_sound ?_
      | with_reducible refine mlogPut_sound ?_

theorem mlogWrap_sound {q : List Instr} {s : State} (h : Sound q s) :
    Sound q (mlogWrap s) := by
  unfold mlogWrap
  repeat' first
      | with_reducible assumption
      | with_reducible refine State.wr_sound ?_
      | with_reducible refine State.bumpWrap_sound ?_

theorem mlogSnap_sound {q : List Instr} {t : TbTime} {s : State} (h : Sound q s) :
    Sound q (mlogSnap t s) := by
  unfold mlogSnap
  repeat' first
      | with_reducible assumption
      | with_reducible refine State.modEfn_sound ?_
      | with_reducible refine mlogWrap_sound ?_
      | with_reducible refine mlogPad_sound ?_
      | with_reducible refine mlogPut_sound ?_
      | with_reducible refine State.wr_sound ?_
      | intro _
      | extract_lets
      | with_reducible refine Sound.ite ?_ ?_

theorem streamPut_sound {q : List Instr} {snap : Bool} {seq : Nat} {t : TbTime} {s : State} (h : Sound q s) :
    Sound q (streamPut snap seq t s) := by
  unfold streamPut
  repeat' first
      | with_reducible assumption
      | with_reducible refine mtrLost_sound ?_
      | with_reducible refine State.modEfn_sound ?_
      | with_reducible refine State.modEp_sound ?_
      | with_reducible refine epPut_sound ?_
      | intro _
      | extract_lets
      | with_reducible refine Sound.ite ?_ ?_

theorem streamEnable_sound {q : List Instr} {s : State} (h : Sound q s) :
    Sound q (streamEnable s) := by
  unfold streamEnable
  repeat' first
      | with_reducible assumption
      | with_reducible refine epEmpty_sound ?_
      | intro _
      | split

theorem meterTick_sound {q : List Instr} {s : State} (h : Sound q s) :
    Sound q (meterTick s) := by
  unfold meterTick
  repeat' first
      | with_reducible assumption
      | with_reducible refine State.bumpWrap_sound ?_
      | with_reducible refine streamPut_sound ?_
      | intro _
      | extract_lets
      | with_reducible refine Sound.ite ?_ ?_

theorem snapshot_sound {q : List Instr} {s : State} (h : Sound q s) :
    Sound q (snapshot s) := by
  unfold snapshot
  repeat' first
      | with_reducible assumption
      | with_reducible refine State.modMt_sound ?_
      | with_reducible refine pushEvent_sound ?_
      | with_reducible refine streamPut_sound ?_
      | with_reducible refine mlogSnap_sound ?_
      | intro _
      | extract_lets
      | with_reducible refine Sound.ite ?_ ?_

theorem snapshotTaken_sound {q : List Instr} {s : State} (h : Sound q s) :
    Sound q (snapshotTaken s) := by
  unfold snapshotTaken
  repeat' first
      | with_reducible assumption
      | with_reducible refine snapshot_sound ?_
      | intro _
      | split

theorem snapshotDue_sound {q : List Instr} {s : State} (h : Sound q s) :
    Sound q (snapshotDue s) := by
  unfold snapshotDue
  repeat' first
      | with_reducible assumption
      | with_reducible refine State.modMt_sound ?_
      | with_reducible refine snapshot_sound ?_
      | intro _
      | extract_lets
      | with_reducible refine Sound.ite ?_ ?_

theorem togglesReset_sound {q : List Instr} {s : State} (h : Sound q s) :
    Sound q (togglesReset s) := by
  unfold togglesReset
  repeat' first
      | with_reducible assumption
      | with_reducible refine State.modEfn_sound ?_

theorem batchExtent_sound {q : List Instr} {s : State} (h : Sound q s) :
    Sound q (batchExtent s).2 := by
  unfold batchExtent
  repeat' first
      | with_reducible assumption
      | with_reducible refine epPeek_sound ?_
      | intro _
      | extract_lets
      | with_reducible refine Sound.ite ?_ ?_
      | split

theorem batchIdle_sound {q : List Instr} {s : State} (h : Sound q s) :
    Sound q (batchIdle s) := by
  unfold batchIdle
  repeat' first
      | with_reducible assumption
      | with_reducible refine State.modEfn_sound ?_

theorem batchAbort_sound {q : List Instr} {s : State} (h : Sound q s) :
    Sound q (batchAbort s) := by
  unfold batchAbort
  repeat' first
      | with_reducible assumption
      | with_reducible refine batchExtent_sound ?_
      | with_reducible refine batchIdle_sound ?_
      | with_reducible refine efnEvt_sound ?_
      | with_reducible refine State.bump_sound ?_
      | with_reducible refine epEmpty_sound ?_
      | intro _
      | extract_lets
      | with_reducible refine Sound.ite ?_ ?_
      | split

theorem ep2Whole_sound {q : List Instr} {x0 : Nat} {x1 : Nat} {s : State} (h : Sound q s) :
    Sound q (ep2Whole x0 x1 s).2 := by
  induction x0 generalizing s x1 with
  | zero =>
    unfold ep2Whole
    repeat' first
          | with_reducible assumption
  | succ n ih =>
    unfold ep2Whole
    repeat' first
          | with_reducible assumption
          | (with_reducible refine ih ?_)
          | with_reducible refine epPeek_sound ?_
          | intro _
          | extract_lets
          | with_reducible refine Sound.ite ?_ ?_
          | split

theorem epKeep_sound {q : List Instr} {e : Fin 7} {nn : Nat} {s : State} (h : Sound q s) :
    Sound q (epKeep e nn s) := by
  unfold epKeep
  repeat' first
      | with_reducible assumption
      | with_reducible refine State.modEp_sound ?_

theorem epTakeIn_sound {q : List Instr} {e : Fin 7} {data : List Byte} {s : State} (h : Sound q s) :
    Sound q (epTakeIn e data s) := by
  unfold epTakeIn
  repeat' first
      | with_reducible assumption
      | with_reducible refine State.modEp_sound ?_
      | with_reducible refine epPut_sound ?_

theorem bulkOut_sound {q : List Instr} {e : Fin 7} {data : List Byte} {s : State} (h : Sound q s) :
    Sound q (bulkOut e data s) := by
  unfold bulkOut
  repeat' first
      | with_reducible assumption
      | with_reducible refine answer_sound ?_
      | with_reducible refine State.modCad_sound ?_
      | with_reducible refine State.modEp_sound ?_
      | with_reducible refine leaveIdle_sound ?_
      | with_reducible refine epTakeIn_sound ?_
      | with_reducible refine State.modEfn_sound ?_
      | intro _
      | extract_lets
      | with_reducible refine Sound.ite ?_ ?_

theorem bulkPing_sound {q : List Instr} {e : Fin 7} {s : State} (h : Sound q s) :
    Sound q (bulkPing e s) := by
  unfold bulkPing
  repeat' first
      | with_reducible assumption
      | with_reducible refine answer_sound ?_
      | intro _
      | split

theorem epRecord_sound {q : List Instr} {e : Fin 7} {l : List Byte} {s : State} (h : Sound q s) :
    Sound q (epRecord e l s) := by
  unfold epRecord
  repeat' first
      | with_reducible assumption
      | with_reducible refine State.modEp_sound ?_
      | with_reducible refine epPut_sound ?_

theorem ep2Fill_sound {q : List Instr} {x0 : Nat} {s : State} (h : Sound q s) :
    Sound q (ep2Fill x0 s) := by
  induction x0 generalizing s with
  | zero =>
    unfold ep2Fill
    repeat' first
          | with_reducible assumption
  | succ n ih =>
    unfold ep2Fill
    repeat' first
          | with_reducible assumption
          | (with_reducible refine ih ?_)
          | with_reducible refine epRecord_sound ?_
          | intro _
          | split

theorem epCopyWords_sound {q : List Instr} {e : Fin 7} {k : Nat} {x2 : Nat} {s : State} (h : Sound q s) :
    Sound q (epCopyWords e k x2 s) := by
  induction x2 generalizing s k with
  | zero =>
    unfold epCopyWords
    repeat' first
          | with_reducible assumption
  | succ n ih =>
    unfold epCopyWords
    repeat' first
          | with_reducible assumption
          | (with_reducible refine ih ?_)
          | with_reducible refine storeRead_sound ?_
          | with_reducible refine State.modEp_sound ?_
          | with_reducible refine storeWrite_sound ?_

theorem ep3Fill_sound {q : List Instr} {x0 : Nat} {s : State} (h : Sound q s) :
    Sound q (ep3Fill x0 s) := by
  induction x0 generalizing s with
  | zero =>
    unfold ep3Fill
    repeat' first
          | with_reducible assumption
  | succ n ih =>
    unfold ep3Fill
    repeat' first
          | with_reducible assumption
          | (with_reducible refine ih ?_)
          | with_reducible refine State.modEp_sound ?_
          | with_reducible refine epCopyWords_sound ?_
          | with_reducible refine State.modCad_sound ?_
          | intro _
          | extract_lets
          | with_reducible refine Sound.ite ?_ ?_
          | split

theorem epFill_sound {q : List Instr} {e : Fin 7} {s : State} (h : Sound q s) :
    Sound q (epFill e s) := by
  unfold epFill
  repeat' first
      | with_reducible assumption
      | with_reducible refine ep2Fill_sound ?_
      | with_reducible refine ep3Fill_sound ?_
      | intro _
      | split

theorem ep2Lose_sound {q : List Instr} {j : Nat} {s : State} (h : Sound q s) :
    Sound q (ep2Lose j s) := by
  unfold ep2Lose
  repeat' first
      | with_reducible assumption
      | with_reducible refine completionFree_sound ?_
      | with_reducible refine State.bump_sound ?_
      | with_reducible refine State.modCad_sound ?_
      | intro _
      | split

theorem rxMarkLost_sound {q : List Instr} {p : PortId} {c : BitVec 16} {s : State} (h : Sound q s) :
    Sound q (rxMarkLost p c s) := by
  unfold rxMarkLost
  repeat' first
      | with_reducible assumption
      | with_reducible refine State.modCl_sound ?_
      | with_reducible refine State.setCell_sound ?_
      | intro _
      | extract_lets
      | with_reducible refine Sound.ite ?_ ?_

theorem ep3Lose_sound {q : List Instr} {j : Nat} {s : State} (h : Sound q s) :
    Sound q (ep3Lose j s) := by
  unfold ep3Lose
  repeat' first
      | with_reducible assumption
      | with_reducible refine rxMarkLost_sound ?_
      | with_reducible refine State.bump_sound ?_
      | with_reducible refine rxRelease_sound ?_
      | with_reducible refine State.modCl_sound ?_
      | intro _
      | extract_lets
      | with_reducible refine Sound.ite ?_ ?_
      | split

theorem poisonHalt_sound {q : List Instr} {e : Fin 7} {off : Nat} {s : State} (h : Sound q s) :
    Sound q (poisonHalt e off s) := by
  unfold poisonHalt
  repeat' first
      | with_reducible assumption
      | with_reducible refine mtrLost_sound ?_
      | with_reducible refine ep2Lose_sound ?_
      | with_reducible refine ep3Lose_sound ?_
      | with_reducible refine State.modEp_sound ?_
      | with_reducible refine epEmpty_sound ?_
      | with_reducible refine batchIdle_sound ?_
      | with_reducible refine forEach_sound ?_ ?_
      | with_reducible refine rxOwn_sound ?_
      | with_reducible refine efnEvt_sound ?_
      | intro _
      | extract_lets
      | with_reducible refine Sound.ite ?_ ?_

theorem poisonIn_sound {q : List Instr} {e : Fin 7} {off : Nat} {s : State} (h : Sound q s) :
    Sound q (poisonIn e off s) := by
  unfold poisonIn
  repeat' first
      | with_reducible assumption
      | with_reducible refine efnEvt_sound ?_
      | with_reducible refine State.bump_sound ?_
      | with_reducible refine raiseFault_sound ?_
      | with_reducible refine State.modEp_sound ?_
      | with_reducible refine poisonHalt_sound ?_
      | intro _
      | extract_lets
      | with_reducible refine Sound.ite ?_ ?_

theorem bulkIn_sound {q : List Instr} {e : Fin 7} {s : State} (h : Sound q s) :
    Sound q (bulkIn e s) := by
  unfold bulkIn
  repeat' first
      | with_reducible assumption
      | with_reducible refine answer_sound ?_
      | with_reducible refine leaveIdle_sound ?_
      | with_reducible refine epFill_sound ?_
      | with_reducible refine epPeek_sound ?_
      | with_reducible refine State.modEp_sound ?_
      | with_reducible refine poisonIn_sound ?_
      | intro _
      | extract_lets
      | with_reducible refine Sound.ite ?_ ?_
      | split

theorem epRelease_sound {q : List Instr} {e : Fin 7} {k : Nat} {s : State} (h : Sound q s) :
    Sound q (epRelease e k s) := by
  unfold epRelease
  repeat' first
      | with_reducible assumption
      | with_reducible refine forEach_sound ?_ ?_
      | with_reducible refine completionRelease_sound ?_
      | with_reducible refine rxRelease_sound ?_
      | with_reducible refine State.modCad_sound ?_
      | intro _
      | extract_lets
      | with_reducible refine Sound.ite ?_ ?_

theorem ep1Read_sound {q : List Instr} {s : State} (h : Sound q s) :
    Sound q (ep1Read s) := by
  unfold ep1Read
  repeat' first
      | with_reducible assumption
      | with_reducible refine batchIdle_sound ?_
      | intro _
      | split

theorem bulkInAck_sound {q : List Instr} {e : Fin 7} {s : State} (h : Sound q s) :
    Sound q (bulkInAck e s) := by
  unfold bulkInAck
  repeat' first
      | with_reducible assumption
      | with_reducible refine State.modEp_sound ?_
      | with_reducible refine epDrop_sound ?_
      | with_reducible refine ep1Read_sound ?_
      | with_reducible refine epRelease_sound ?_
      | intro _
      | extract_lets
      | with_reducible refine Sound.ite ?_ ?_
      | split

theorem outPartial_sound {q : List Instr} {e : Fin 7} {s : State} (h : Sound q s) :
    Sound q (outPartial e s) := by
  unfold outPartial
  repeat' first
      | with_reducible assumption
      | with_reducible refine batchExtent_sound ?_
      | with_reducible refine batchIdle_sound ?_
      | with_reducible refine epEmpty_sound ?_
      | with_reducible refine ep2Whole_sound ?_
      | with_reducible refine epKeep_sound ?_
      | intro _
      | extract_lets
      | with_reducible refine Sound.ite ?_ ?_
      | split

theorem setHalt_sound {q : List Instr} {e : Fin 7} {s : State} (h : Sound q s) :
    Sound q (setHalt e s) := by
  unfold setHalt
  repeat' first
      | with_reducible assumption
      | with_reducible refine answer_sound ?_
      | with_reducible refine outPartial_sound ?_
      | with_reducible refine State.modEp_sound ?_
      | intro _
      | split

theorem clearHalt_sound {q : List Instr} {e : Fin 7} {s : State} (h : Sound q s) :
    Sound q (clearHalt e s) := by
  unfold clearHalt
  repeat' first
      | with_reducible assumption
      | with_reducible refine answer_sound ?_
      | with_reducible refine State.modEp_sound ?_
      | intro _
      | split

theorem efnSetConfig_sound {q : List Instr} {v : Nat} {s : State} (h : Sound q s) :
    Sound q (efnSetConfig v s) := by
  unfold efnSetConfig
  repeat' first
      | with_reducible assumption
      | with_reducible refine answer_sound ?_
      | with_reducible refine togglesReset_sound ?_
      | with_reducible refine State.modEfn_sound ?_
      | with_reducible refine efnDown_sound ?_
      | intro _
      | extract_lets
      | with_reducible refine Sound.ite ?_ ?_

theorem efnSetAddress_sound {q : List Instr} {v : Nat} {s : State} (h : Sound q s) :
    Sound q (efnSetAddress v s) := by
  unfold efnSetAddress
  repeat' first
      | with_reducible assumption
      | with_reducible refine answer_sound ?_
      | with_reducible refine State.modEfn_sound ?_
      | intro _
      | split

theorem replyOr_sound {q : List Instr} {o : Option (List Byte)} {len : Nat} {s : State} (h : Sound q s) :
    Sound q (replyOr o len s) := by
  unfold replyOr
  repeat' first
      | with_reducible assumption
      | with_reducible refine reply_sound ?_
      | with_reducible refine answer_sound ?_
      | intro _
      | split

theorem efnFeature_sound {q : List Instr} {set : Bool} {recipient : Nat} {v : Nat} {ix : Nat} {s : State} (h : Sound q s) :
    Sound q (efnFeature set recipient v ix s) := by
  unfold efnFeature
  repeat' first
      | with_reducible assumption
      | with_reducible refine setHalt_sound ?_
      | with_reducible refine clearHalt_sound ?_
      | with_reducible refine answer_sound ?_
      | intro _
      | split

theorem setup_sound {q : List Instr} {s : State} (h : Sound q s) :
    Sound q (setup s) := by
  unfold setup
  repeat' first
      | with_reducible assumption
      | with_reducible refine State.modPath_sound ?_
      | with_reducible refine State.modEfn_sound ?_

theorem efnStandard_sound {q : List Instr} {bm : Nat} {req : Nat} {v : Nat} {ix : Nat} {len : Nat} {s : State} (h : Sound q s) :
    Sound q (efnStandard bm req v ix len s) := by
  unfold efnStandard
  repeat' first
      | with_reducible assumption
      | with_reducible refine leaveIdle_sound ?_
      | with_reducible refine setup_sound ?_
      | with_reducible refine answer_sound ?_
      | with_reducible refine replyOr_sound ?_
      | with_reducible refine efnFeature_sound ?_
      | with_reducible refine efnSetAddress_sound ?_
      | with_reducible refine reply_sound ?_
      | with_reducible refine efnSetConfig_sound ?_
      | with_reducible refine togglesReset_sound ?_
      | intro _
      | extract_lets
      | with_reducible refine Sound.ite ?_ ?_
      | split

theorem efnPortReset_sound {q : List Instr} {lost : Bool} {s : State} (h : Sound q s) :
    Sound q (efnPortReset lost s) := by
  unfold efnPortReset
  repeat' first
      | with_reducible assumption
      | with_reducible refine efnDown_sound ?_
      | intro _
      | split

theorem pendWrite_sound {q : List Instr} {p : Path} {e : PendEntry} {s : State} (h : Sound q s) :
    Sound q (pendWrite p e s) := by
  unfold pendWrite
  repeat' first
      | with_reducible assumption
      | with_reducible refine State.modPath_sound ?_
      | with_reducible refine raiseEvt0_sound ?_
      | intro _
      | extract_lets
      | with_reducible refine Sound.ite ?_ ?_

theorem pendDrop_sound {q : List Instr} {p : Path} {groups : Nat} {s : State} (h : Sound q s) :
    Sound q (pendDrop p groups s) := by
  unfold pendDrop
  repeat' first
      | with_reducible assumption
      | with_reducible refine State.modPath_sound ?_

theorem applyEntry_sound {q : List Instr} {e : PendEntry} {s : State} (h : Sound q s) :
    Sound q (applyEntry e s) := by
  unfold applyEntry
  repeat' first
      | with_reducible assumption
      | with_reducible refine pushEvent_sound ?_
      | with_reducible refine State.setReg_sound ?_
      | intro _
      | extract_lets
      | with_reducible refine Sound.ite ?_ ?_

theorem touchDomain_sound {q : List Instr} {a : Nat} {s : State} (h : Sound q s) :
    Sound q (touchDomain a s) := by
  unfold touchDomain
  repeat' first
      | with_reducible assumption
      | with_reducible refine dphyUp_sound ?_
      | intro _
      | split

theorem commitPort_sound {q : List Instr} {o : State} {as : List Nat} {p : PortId} {s : State} (h : Sound q s) :
    Sound q (commitPort o as p s) := by
  unfold commitPort
  repeat' first
      | with_reducible assumption
      | with_reducible refine portApplyDisable_sound ?_
      | with_reducible refine tcApplyRp_sound ?_
      | with_reducible refine pdTableChanged_sound ?_
      | with_reducible refine pmbSlew_sound ?_
      | with_reducible refine ppForceOff_sound ?_
      | with_reducible refine ppKick_sound ?_
      | with_reducible refine gateClose_sound ?_
      | intro _
      | extract_lets
      | with_reducible refine Sound.ite ?_ ?_

theorem commitLink_sound {q : List Instr} {o : State} {as : List Nat} {p : PortId} {s : State} (h : Sound q s) :
    Sound q (commitLink o as p s) := by
  unfold commitLink
  repeat' first
      | with_reducible assumption
      | with_reducible refine clEnabled_sound ?_
      | with_reducible refine clDisabled_sound ?_
      | with_reducible refine rxOwn_sound ?_
      | intro _
      | extract_lets
      | with_reducible refine Sound.ite ?_ ?_

theorem commitCad_sound {q : List Instr} {o : State} {s : State} (h : Sound q s) :
    Sound q (commitCad o s) := by
  unfold commitCad
  repeat' first
      | with_reducible assumption
      | with_reducible refine cadModeMoved_sound ?_
      | with_reducible refine cadAllowance_sound ?_
      | intro _
      | extract_lets
      | with_reducible refine Sound.ite ?_ ?_

theorem commitActs_sound {q : List Instr} {o : State} {as : List Nat} {s : State} (h : Sound q s) :
    Sound q (commitActs o as s) := by
  unfold commitActs
  repeat' first
      | with_reducible assumption
      | with_reducible refine forEach_sound ?_ ?_
      | with_reducible refine commitPort_sound ?_
      | with_reducible refine feedApplyCtrl_sound ?_
      | with_reducible refine bmRecompute_sound ?_
      | with_reducible refine timIncMoved_sound ?_
      | with_reducible refine timCorrect_sound ?_
      | with_reducible refine tpModeMoved_sound ?_
      | with_reducible refine commitCad_sound ?_
      | with_reducible refine commitLink_sound ?_
      | with_reducible refine streamEnable_sound ?_
      | intro _
      | extract_lets
      | with_reducible refine Sound.ite ?_ ?_

theorem flushOwner_sound {q : List Instr} {e : PendEntry} {s : State} (h : Sound q s) :
    Sound q (flushOwner e s) := by
  unfold flushOwner
  repeat' first
      | with_reducible assumption
      | with_reducible refine cadFlush_sound ?_
      | intro _
      | extract_lets
      | with_reducible refine Sound.ite ?_ ?_
      | split

theorem applyEntries_sound {q : List Instr} {es : List PendEntry} {s : State} (h : Sound q s) :
    Sound q (applyEntries es s) := by
  unfold applyEntries
  repeat' first
      | with_reducible assumption
      | with_reducible refine forEach_sound ?_ ?_
      | with_reducible refine flushOwner_sound ?_
      | with_reducible refine touchDomain_sound ?_
      | with_reducible refine commitActs_sound ?_
      | with_reducible refine applyEntry_sound ?_
      | intro _
      | extract_lets
      | with_reducible refine Sound.ite ?_ ?_

theorem commit_sound {q : List Instr} {p : Path} {groups : Nat} {s : State} (h : Sound q s) :
    Sound q (commit p groups s) := by
  unfold commit
  repeat' first
      | with_reducible assumption
      | with_reducible refine pendDrop_sound ?_
      | with_reducible refine applyEntries_sound ?_
      | with_reducible refine State.modFeed_sound ?_
      | with_reducible refine snapshotDue_sound ?_
      | intro _
      | extract_lets
      | with_reducible refine Sound.ite ?_ ?_

theorem heldG1Apply_sound {q : List Instr} {s : State} (h : Sound q s) :
    Sound q (heldG1Apply s) := by
  unfold heldG1Apply
  repeat' first
      | with_reducible assumption
      | with_reducible refine applyEntries_sound ?_
      | with_reducible refine State.modFeed_sound ?_
      | intro _
      | split

theorem discard_sound {q : List Instr} {p : Path} {groups : Nat} {s : State} (h : Sound q s) :
    Sound q (discard p groups s) := by
  unfold discard
  repeat' first
      | with_reducible assumption
      | with_reducible refine pendDrop_sound ?_

theorem commitAtResult_sound {q : List Instr} {r : Nat} {s : State} (h : Sound q s) :
    Sound q (commitAtResult r s) := by
  unfold commitAtResult
  repeat' first
      | with_reducible assumption
      | with_reducible refine State.wr_sound ?_

theorem commitAtWrite_sound {q : List Instr} {p : Path} {v : Word} {s : State} (h : Sound q s) :
    Sound q (commitAtWrite p v s) := by
  unfold commitAtWrite
  repeat' first
      | with_reducible assumption
      | with_reducible refine raiseEvt0_sound ?_
      | with_reducible refine commitAtResult_sound ?_
      | with_reducible refine State.wr_sound ?_
      | with_reducible refine State.modGlb_sound ?_
      | intro _
      | extract_lets
      | with_reducible refine Sound.ite ?_ ?_

theorem commitFire_sound {q : List Instr} {s : State} (h : Sound q s) :
    Sound q (commitFire s) := by
  unfold commitFire
  repeat' first
      | with_reducible assumption
      | with_reducible refine commit_sound ?_
      | with_reducible refine State.modGlb_sound ?_
      | with_reducible refine raiseEvt0_sound ?_
      | with_reducible refine commitAtResult_sound ?_
      | intro _
      | extract_lets
      | with_reducible refine Sound.ite ?_ ?_
      | split

theorem latchSeq_sound {q : List Instr} {p : Path} {a : Nat} {ws : List Word} {s : State} (h : Sound q s) :
    Sound q (latchSeq p a ws s) := by
  unfold latchSeq
  repeat' first
      | with_reducible assumption
      | with_reducible refine State.modPath_sound ?_

theorem meterRead_sound {q : List Instr} {p : Path} {a : Nat} {m : MeterId} {s : State} (h : Sound q s) :
    Sound q (meterRead p a m s).2 := by
  unfold meterRead
  repeat' first
      | with_reducible assumption
      | with_reducible refine latchSeq_sound ?_

theorem tb0Read_sound {q : List Instr} {p : Path} {s : State} (h : Sound q s) :
    Sound q (tb0Read p s).2 := by
  unfold tb0Read
  repeat' first
      | with_reducible assumption
      | with_reducible refine latchSeq_sound ?_

theorem tb3Read_sound {q : List Instr} {p : Path} {s : State} (h : Sound q s) :
    Sound q (tb3Read p s).2 := by
  unfold tb3Read
  repeat' first
      | with_reducible assumption
      | with_reducible refine latchSeq_sound ?_

theorem capRead_sound {q : List Instr} {p : Path} {u : Nat} {s : State} (h : Sound q s) :
    Sound q (capRead p u s).2 := by
  unfold capRead
  repeat' first
      | with_reducible assumption
      | with_reducible refine State.setReg_sound ?_
      | with_reducible refine latchSeq_sound ?_

theorem xsRead_sound {q : List Instr} {p : Path} {s : State} (h : Sound q s) :
    Sound q (xsRead p s).2 := by
  unfold xsRead
  repeat' first
      | with_reducible assumption
      | with_reducible refine latchSeq_sound ?_

theorem windowGet_sound {q : List Instr} {p : Path} {a : Nat} {s : State} (h : Sound q s) :
    Sound q (windowGet p a s).2 := by
  unfold windowGet
  repeat' first
      | with_reducible assumption
      | with_reducible refine windowRead_sound ?_
      | with_reducible refine raiseFault_sound ?_
      | intro _
      | extract_lets
      | with_reducible refine Sound.ite ?_ ?_
      | split

theorem gotWord_sound {q : List Instr} {r : Word × State} (h : Sound q r.2) : Sound q (gotWord r).2 := h

theorem regRead_sound {q : List Instr} {p : Path} {a : Nat} {s : State} (h : Sound q s) :
    Sound q (regRead p a s).2 := by
  unfold regRead
  repeat' first
      | with_reducible assumption
      | with_reducible refine touchDomain_sound ?_
      | with_reducible refine leaveIdle_sound ?_
      | with_reducible refine windowGet_sound ?_
      | with_reducible refine evqPopRead_sound ?_
      | with_reducible refine gotWord_sound ?_
      | with_reducible refine tb0Read_sound ?_
      | with_reducible refine tb3Read_sound ?_
      | with_reducible refine xsRead_sound ?_
      | with_reducible refine capRead_sound ?_
      | with_reducible refine meterRead_sound ?_
      | intro _
      | extract_lets
      | with_reducible refine Sound.ite ?_ ?_
      | split

theorem keyRefused_sound {q : List Instr} {p : Path} {a : Nat} {s : State} (h : Sound q s) :
    Sound q (keyRefused p a s) := by
  unfold keyRefused
  repeat' first
      | with_reducible assumption
      | with_reducible refine pushEvent_sound ?_
      | intro _
      | split

theorem nvmCmd_sound {q : List Instr} {v : Word} {s : State} (h : Sound q s) :
    Sound q (nvmCmd v s) := by
  unfold nvmCmd
  repeat' first
      | with_reducible assumption
      | with_reducible refine nvmResult_sound ?_
      | with_reducible refine State.wr_sound ?_
      | with_reducible refine nvmStart_sound ?_
      | intro _
      | extract_lets
      | with_reducible refine Sound.ite ?_ ?_

theorem glbReset_sound {q : List Instr} {v : Word} {s : State} (h : Sound q s) :
    Sound q (glbReset v s) := by
  unfold glbReset
  repeat' first
      | with_reducible assumption
      | with_reducible refine coldReset_sound ?_
      | with_reducible refine warmReset_sound ?_
      | intro _
      | split

theorem endRecovery_sound {q : List Instr} {s : State} (h : Sound q s) :
    Sound q (endRecovery s) := by
  unfold endRecovery
  repeat' first
      | with_reducible assumption
      | with_reducible refine recoveryEnd_sound ?_
      | intro _
      | split

theorem capClear_sound {q : List Instr} {v : Word} {s : State} (h : Sound q s) :
    Sound q (capClear v s) := by
  unfold capClear
  repeat' first
      | with_reducible assumption
      | with_reducible refine forEach_sound ?_ ?_
      | with_reducible refine State.setReg_sound ?_
      | intro _
      | split

theorem hubConnectCmd_sound {q : List Instr} {v : Word} {s : State} (h : Sound q s) :
    Sound q (hubConnectCmd v s) := by
  unfold hubConnectCmd
  repeat' first
      | with_reducible assumption
      | with_reducible refine hubDetach_sound ?_
      | intro _
      | split

theorem clCmd_sound {q : List Instr} {p : PortId} {v : Word} {s : State} (h : Sound q s) :
    Sound q (clCmd p v s) := by
  unfold clCmd
  repeat' first
      | with_reducible assumption
      | with_reducible refine cadEnterCmd_sound ?_
      | with_reducible refine cadRetrainCmd_sound ?_
      | intro _
      | extract_lets
      | with_reducible refine Sound.ite ?_ ?_

theorem lockringWrite_sound {q : List Instr} {p : Path} {v : Word} {s : State} (h : Sound q s) :
    Sound q (lockringWrite p v s) := by
  unfold lockringWrite
  repeat' first
      | with_reducible assumption
      | with_reducible refine State.modPath_sound ?_

theorem actWrite_sound {q : List Instr} {p : Path} {a : Nat} {v : Word} {s : State} (h : Sound q s) :
    Sound q (actWrite p a v s) := by
  unfold actWrite
  repeat' first
      | with_reducible assumption
      | with_reducible refine Sound.ite ?_ ?_
      | with_reducible refine lockringWrite_sound ?_
      | with_reducible refine commit_sound ?_
      | with_reducible refine discard_sound ?_
      | with_reducible refine commitAtWrite_sound ?_
      | with_reducible refine pwrCmd_sound ?_
      | with_reducible refine capClear_sound ?_
      | with_reducible refine evqFlush_sound ?_
      | with_reducible refine pmbVerifyBits_sound ?_
      | with_reducible refine pmbSwGo_sound ?_
      | with_reducible refine stoCmd_sound ?_
      | with_reducible refine ecclogClear_sound ?_
      | with_reducible refine hubConnectCmd_sound ?_
      | with_reducible refine carveApply_sound ?_
      | with_reducible refine timSwCap_sound ?_
      | with_reducible refine cadLqCmd_sound ?_
      | with_reducible refine cadTail_sound ?_
      | with_reducible refine tcCmd_sound ?_
      | with_reducible refine pdCmd_sound ?_
      | with_reducible refine clCmd_sound ?_
      | with_reducible refine cadRxRd_sound ?_
      | with_reducible refine ttCmd_sound ?_
      | intro _
      | split

theorem keyedWrite_sound {q : List Instr} {p : Path} {a : Nat} {v : Word} {s : State} (h : Sound q s) :
    Sound q (keyedWrite p a v s) := by
  unfold keyedWrite
  repeat' first
      | with_reducible assumption
      | with_reducible refine glbReset_sound ?_
      | with_reducible refine pwrCmd_sound ?_
      | with_reducible refine endRecovery_sound ?_
      | with_reducible refine feedUnlock_sound ?_
      | with_reducible refine nvmCmd_sound ?_
      | with_reducible refine flipArm_sound ?_
      | with_reducible refine retireWrite_sound ?_
      | with_reducible refine ppUnlock_sound ?_
      | intro _
      | split

theorem plainWrite_sound {q : List Instr} {a : Nat} {r : RegRow} {v : Word} {s : State} (h : Sound q s) :
    Sound q (plainWrite a r v s) := by
  unfold plainWrite
  repeat' first
      | with_reducible assumption
      | with_reducible refine State.setReg_sound ?_

theorem rowStored_sound {q : List Instr} {p : Path} {open_ : Bool} {a : Nat} {r : RegRow} {v : Word} {s : State} (h : Sound q s) :
    Sound q (rowStored p open_ a r v s) := by
  unfold rowStored
  repeat' first
      | with_reducible assumption
      | with_reducible refine keyRefused_sound ?_
      | with_reducible refine pendWrite_sound ?_
      | with_reducible refine plainWrite_sound ?_
      | intro _
      | extract_lets
      | with_reducible refine Sound.ite ?_ ?_

theorem rowWrite_sound {q : List Instr} {p : Path} {open_ : Bool} {a : Nat} {r : RegRow} {v : Word} {s : State} (h : Sound q s) :
    Sound q (rowWrite p open_ a r v s) := by
  unfold rowWrite
  repeat' first
      | with_reducible assumption
      | with_reducible refine actWrite_sound ?_
      | with_reducible refine rowStored_sound ?_
      | with_reducible refine keyedWrite_sound ?_
      | intro _
      | extract_lets
      | with_reducible refine Sound.ite ?_ ?_

theorem rearmed_sound {q : List Instr} {p : Path} {a : Nat} {s : State} (h : Sound q s) :
    Sound q (rearmed p a s) := by
  unfold rearmed
  repeat' first
      | with_reducible assumption
      | with_reducible refine touchDomain_sound ?_
      | with_reducible refine leaveIdle_sound ?_
      | with_reducible refine State.modPath_sound ?_

theorem written_sound {q : List Instr} {p : Path} {a : Nat} {v : Word} {s : State} (h : Sound q s) :
    Sound q (written p a v s) := by
  unfold written
  repeat' first
      | with_reducible assumption
      | with_reducible refine rowStored_sound ?_
      | with_reducible refine rearmed_sound ?_
      | intro _
      | split

theorem regWrite_sound {q : List Instr} {p : Path} {a : Nat} {v : Word} {s : State} (h : Sound q s) :
    Sound q (regWrite p a v s) := by
  unfold regWrite
  repeat' first
      | with_reducible assumption
      | with_reducible refine rearmed_sound ?_
      | with_reducible refine windowWrite_sound ?_
      | with_reducible refine rowWrite_sound ?_
      | intro _
      | extract_lets
      | with_reducible refine Sound.ite ?_ ?_
      | split

theorem regKeyedWrite_sound {q : List Instr} {p : Path} {a : Nat} {v : Word} {s : State} (h : Sound q s) :
    Sound q (regKeyedWrite p a v s) := by
  unfold regKeyedWrite
  repeat' first
      | with_reducible assumption
      | with_reducible refine regWrite_sound ?_
      | with_reducible refine State.modPath_sound ?_

theorem preloadRun_sound {q : List Instr} {keyed : Bool} {a : Nat} {mask : Word} {val : Word} {s : State} (h : Sound q s) :
    Sound q (preloadRun keyed a mask val s) := by
  unfold preloadRun
  repeat' first
      | with_reducible assumption
      | with_reducible refine keyRefused_sound ?_
      | with_reducible refine regKeyedWrite_sound ?_
      | with_reducible refine regWrite_sound ?_
      | intro _
      | extract_lets
      | with_reducible refine Sound.ite ?_ ?_

theorem opRun_sound {q : List Instr} {o : ImgOp} {s : State} (h : Sound q s) :
    Sound q (opRun o s) := by
  unfold opRun
  repeat' first
      | with_reducible assumption
      | with_reducible refine pendWrite_sound ?_
      | with_reducible refine State.setReg_sound ?_
      | with_reducible refine preloadRun_sound ?_
      | intro _
      | split

theorem policyFlags_sound {q : List Instr} {e : List Byte} {s : State} (h : Sound q s) :
    Sound q (policyFlags e s) := by
  unfold policyFlags
  repeat' first
      | with_reducible assumption
      | with_reducible refine State.modImg_sound ?_
      | intro _
      | extract_lets
      | with_reducible refine Sound.ite ?_ ?_
      | split

theorem usbTable_sound {q : List Instr} {v : List Byte} {s : State} (h : Sound q s) :
    Sound q (usbTable v s) := by
  unfold usbTable
  repeat' first
      | with_reducible assumption
      | with_reducible refine State.modImg_sound ?_

theorem retain_sound {q : List Instr} {a : Nat} {s : State} (h : Sound q s) :
    Sound q (retain a s) := by
  unfold retain
  repeat' first
      | with_reducible assumption
      | with_reducible refine pwrEvt_sound ?_
      | with_reducible refine State.modImg_sound ?_
      | intro _
      | extract_lets
      | with_reducible refine Sound.ite ?_ ?_

theorem recTables_sound {q : List Instr} {r : Rec} {s : State} (h : Sound q s) :
    Sound q (recTables r s) := by
  unfold recTables
  repeat' first
      | with_reducible assumption
      | with_reducible refine forEach_sound ?_ ?_
      | with_reducible refine policyFlags_sound ?_
      | with_reducible refine State.modPmb_sound ?_
      | with_reducible refine State.modImg_sound ?_
      | with_reducible refine usbTable_sound ?_
      | with_reducible refine State.modSto_sound rfl ?_
      | with_reducible refine retain_sound ?_
      | intro _
      | extract_lets
      | with_reducible refine Sound.ite ?_ ?_
      | split

theorem recsRun_sound {q : List Instr} {l : List Rec} {s : State} (h : Sound q s) :
    Sound q (recsRun l s) := by
  unfold recsRun
  repeat' first
      | with_reducible assumption
      | with_reducible refine forEach_sound ?_ ?_
      | with_reducible refine opRun_sound ?_
      | with_reducible refine recTables_sound ?_
      | intro _

theorem evqRehome_sound {q : List Instr} {s : State} (h : Sound q s) :
    Sound q (evqRehome s) := by
  unfold evqRehome
  repeat' first
      | with_reducible assumption
      | with_reducible refine State.modEvq_sound ?_
      | with_reducible refine forEach_sound ?_ ?_
      | with_reducible refine evqOwe_sound ?_
      | with_reducible refine State.setCell_sound ?_
      | intro _
      | extract_lets
      | with_reducible refine Sound.ite ?_ ?_
      | split

theorem loadEnd_sound {q : List Instr} {s : State} (h : Sound q s) :
    Sound q (loadEnd s) := by
  unfold loadEnd
  repeat' first
      | with_reducible assumption
      | with_reducible refine evqRehome_sound ?_
      | with_reducible refine assignPages_sound ?_
      | with_reducible refine commit_sound ?_

theorem imageApply_sound {q : List Instr} {x : Slot} {s : State} (h : Sound q s) :
    Sound q (imageApply x s) := by
  unfold imageApply
  repeat' first
      | with_reducible assumption
      | with_reducible refine State.modGlb_sound ?_
      | with_reducible refine State.modNvm_sound rfl rfl ?_
      | with_reducible refine loadEnd_sound ?_
      | with_reducible refine recsRun_sound ?_
      | with_reducible refine State.modImg_sound ?_
      | intro _
      | extract_lets
      | with_reducible refine Sound.ite ?_ ?_
      | split

theorem bankReloaded_sound {q : List Instr} {b : Fin 4} {s : State} (h : Sound q s) :
    Sound q (bankReloaded b s) := by
  unfold bankReloaded
  repeat' first
      | with_reducible assumption
      | with_reducible refine commit_sound ?_
      | with_reducible refine forEach_sound ?_ ?_
      | with_reducible refine opRun_sound ?_
      | with_reducible refine State.wr_sound ?_
      | with_reducible refine raiseAt_sound ?_
      | with_reducible refine pwrEvt_sound ?_
      | with_reducible refine State.modPwr_sound ?_
      | with_reducible refine portApplyDisable_sound ?_
      | intro _
      | extract_lets
      | with_reducible refine Sound.ite ?_ ?_
      | split
      | dsimp only
      | (apply Sound.of_pair; assumption)
      | (apply Sound.of; assumption; rfl; rfl; rfl; rfl; rfl)
      | (dsimp +zetaDelta only; split)

theorem wakeNoticed_sound {q : List Instr} {s : State} (h : Sound q s) : Sound q (wakeNoticed s) :=
  forEach_sound (fun _ _ ht => forEach_sound (fun _ _ hu => wakeSourceAt_sound hu) ht) (State.modPwr_sound h)

theorem settled_sound {q : List Instr} {s : State} (h : Sound q s) :
    Sound q (settled s) := by
  unfold settled
  repeat' first
      | with_reducible assumption
      | with_reducible refine wakeNoticed_sound ?_
      | with_reducible refine requestTrack_sound ?_
      | with_reducible refine settle_sound ?_
      | with_reducible refine heldG1Apply_sound ?_

theorem writeAt_sound {q : List Instr} {p : Path} {a : Nat} {v : Word} {s : State} (h : Sound q s) :
    Sound q (writeAt p a v s) := by
  unfold writeAt
  repeat' first
      | with_reducible assumption
      | with_reducible refine regWrite_sound ?_
      | intro _
      | split

theorem readAt_sound {q : List Instr} {p : Path} {a : Nat} {s : State} (h : Sound q s) :
    Sound q (readAt p a s) := by
  unfold readAt
  repeat' first
      | with_reducible assumption
      | with_reducible refine regRead_sound ?_
      | intro _
      | split

theorem supplyGood_sound {q : List Instr} {vin : Nat} {puVbus : Nat} {vtan : Nat} {rp : CcTerm} {straps : BitVec 3} {s : State} (h : Sound q s) :
    Sound q (supplyGood vin puVbus vtan rp straps s) := by
  unfold supplyGood
  repeat' first
      | with_reducible assumption
      | with_reducible refine State.modFeed_sound ?_
      | with_reducible refine State.modPwr_sound ?_
      | with_reducible refine State.modGlb_sound ?_
      | with_reducible refine State.modTim_sound ?_
      | with_reducible refine setCause_sound ?_
      | intro _
      | extract_lets
      | with_reducible refine Sound.ite ?_ ?_

theorem vauxBrownout_sound {q : List Instr} {s : State} (h : Sound q s) :
    Sound q (vauxBrownout s) := by
  unfold vauxBrownout
  repeat' first
      | with_reducible assumption
      | with_reducible refine powerLost_sound ?_
      | with_reducible refine setCause_sound ?_
      | with_reducible refine coldReset_sound ?_
      | intro _
      | split

theorem ldosReady_sound {q : List Instr} {s : State} (h : Sound q s) :
    Sound q (ldosReady s) := by
  unfold ldosReady
  repeat' first
      | with_reducible assumption
      | with_reducible refine State.modPwr_sound ?_
      | with_reducible refine State.modGlb_sound ?_
      | intro _
      | split

theorem x24Ready_sound {q : List Instr} {s : State} (h : Sound q s) :
    Sound q (x24Ready s) := by
  unfold x24Ready
  repeat' first
      | with_reducible assumption
      | with_reducible refine State.modPwr_sound ?_
      | with_reducible refine State.modGlb_sound ?_
      | intro _
      | extract_lets
      | with_reducible refine Sound.ite ?_ ?_

theorem x24Stop_sound {q : List Instr} {s : State} (h : Sound q s) :
    Sound q (x24Stop s) := by
  unfold x24Stop
  repeat' first
      | with_reducible assumption
      | with_reducible refine raiseAt_sound ?_
      | with_reducible refine State.modPwr_sound ?_
      | with_reducible refine State.modFlt_sound ?_
      | intro _
      | split

theorem ladderFail_sound {q : List Instr} {c : WakeFailCause} {s : State} (h : Sound q s) :
    Sound q (ladderFail c s) := by
  unfold ladderFail
  repeat' first
      | with_reducible assumption
      | with_reducible refine State.wr_sound ?_
      | with_reducible refine State.modGlb_sound ?_
      | with_reducible refine State.modPwr_sound ?_
      | with_reducible refine State.modFlt_sound ?_
      | intro _
      | extract_lets
      | with_reducible refine Sound.ite ?_ ?_

theorem ladderRetry_sound {q : List Instr} {s : State} (h : Sound q s) :
    Sound q (ladderRetry s) := by
  unfold ladderRetry
  repeat' first
      | with_reducible assumption
      | with_reducible refine State.modPwr_sound ?_

theorem vddcDone_sound {q : List Instr} {r : VddcResult} {s : State} (h : Sound q s) :
    Sound q (vddcDone r s) := by
  unfold vddcDone
  repeat' first
      | with_reducible assumption
      | with_reducible refine State.modPwr_sound ?_
      | with_reducible refine State.modGlb_sound ?_
      | with_reducible refine raiseAt_sound ?_
      | with_reducible refine pwrEvt_sound ?_
      | with_reducible refine State.modFlt_sound ?_
      | with_reducible refine ladderFail_sound ?_
      | with_reducible refine attemptFail_sound ?_
      | intro _
      | extract_lets
      | with_reducible refine Sound.ite ?_ ?_
      | split

theorem fillDone_sound {q : List Instr} {s : State} (h : Sound q s) :
    Sound q (fillDone s) := by
  unfold fillDone
  repeat' first
      | with_reducible assumption
      | with_reducible refine storeFill_sound ?_
      | with_reducible refine State.modPwr_sound ?_
      | with_reducible refine State.modGlb_sound ?_
      | intro _
      | extract_lets
      | with_reducible refine Sound.ite ?_ ?_

theorem causeExamine_sound {q : List Instr} {s : State} (h : Sound q s) :
    Sound q (causeExamine s) := by
  unfold causeExamine
  repeat' first
      | with_reducible assumption
      | with_reducible refine State.modNvm_sound rfl rfl ?_
      | with_reducible refine causeConsume_sound ?_
      | with_reducible refine setCause_sound ?_
      | intro _
      | split

theorem causeEntry_sound {q : List Instr} {s : State} (h : Sound q s) :
    Sound q (causeEntry s) := by
  unfold causeEntry
  repeat' first
      | with_reducible assumption
      | with_reducible refine evqPut_sound ?_
      | with_reducible refine State.modEvq_sound ?_
      | with_reducible refine evqFlushAon_sound ?_
      | with_reducible refine State.modGlb_sound ?_

theorem slotResultSet_sound {q : List Instr} {x : Slot} {r : Nat} {s : State} (h : Sound q s) :
    Sound q (slotResultSet x r s) := by
  unfold slotResultSet
  repeat' first
      | with_reducible assumption
      | with_reducible refine State.wr_sound ?_
      | intro _
      | split

theorem loadDone_sound {q : List Instr} {s : State} (h : Sound q s) :
    Sound q (loadDone s) := by
  unfold loadDone
  repeat' first
      | with_reducible assumption
      | with_reducible refine State.modGlb_sound ?_
      | with_reducible refine State.modFlt_sound ?_
      | with_reducible refine pmbAllOff_sound ?_
      | intro _
      | extract_lets
      | with_reducible refine Sound.ite ?_ ?_

theorem loadNone_sound {q : List Instr} {s : State} (h : Sound q s) :
    Sound q (loadNone s) := by
  unfold loadNone
  repeat' first
      | with_reducible assumption
      | with_reducible refine loadDone_sound ?_
      | with_reducible refine assignPages_sound ?_
      | with_reducible refine State.modNvm_sound rfl rfl ?_
      | with_reducible refine evqRehome_sound ?_

theorem headersRead_sound {q : List Instr} {jedec : BitVec 24} {content : List (Nat × Byte)} {s : State} (h : Sound q s) :
    Sound q (headersRead jedec content s) := by
  have h1 : Sound q (s.modNvm fun n =>
      { n with jedec := jedec, flash := SMap.ofList flashReset (content.map fun e => (e.1 % 2 ^ 24, e.2)) }) :=
    Sound.withNvm (s := s) SMap.wf_ofList h.otp rfl rfl rfl h
  unfold headersRead
  refine Sound.ite h ?_
  dsimp only
  refine Sound.ite (loadNone_sound (causeEntry_sound (slotResultSet_sound (slotResultSet_sound h1)))) ?_
  refine causeEntry_sound (State.modNvm_sound rfl rfl (State.wr_sound (State.wr_sound ?_)))
  split
  · exact h1
  · exact causeExamine_sound h1

theorem slotJudge_sound {q : List Instr} {x : Slot} {rest : List Slot} {r : Nat} {s : State} (h : Sound q s) :
    Sound q (slotJudge x rest r s) := by
  unfold slotJudge
  repeat' first
      | with_reducible assumption
      | with_reducible refine slotResultSet_sound ?_
      | with_reducible refine loadDone_sound ?_
      | with_reducible refine imageApply_sound ?_
      | with_reducible refine State.modNvm_sound rfl rfl ?_
      | with_reducible refine loadNone_sound ?_
      | with_reducible refine State.modGlb_sound ?_
      | intro _
      | extract_lets
      | with_reducible refine Sound.ite ?_ ?_

theorem slotValidated_sound {q : List Instr} {s : State} (h : Sound q s) :
    Sound q (slotValidated s) := by
  unfold slotValidated
  repeat' first
      | with_reducible assumption
      | with_reducible refine slotJudge_sound ?_
      | with_reducible refine State.modGlb_sound ?_
      | intro _
      | extract_lets
      | with_reducible refine Sound.ite ?_ ?_
      | split

theorem signatureVerified_sound {q : List Instr} {s : State} (h : Sound q s) :
    Sound q (signatureVerified s) := by
  unfold signatureVerified
  repeat' first
      | with_reducible assumption
      | with_reducible refine slotJudge_sound ?_
      | intro _
      | extract_lets
      | with_reducible refine Sound.ite ?_ ?_
      | split

theorem dynBegin_sound {q : List Instr} {s : State} (h : Sound q s) :
    Sound q (dynBegin s) := by
  unfold dynBegin
  repeat' first
      | with_reducible assumption
      | with_reducible refine State.modDyn_sound ?_
      | with_reducible refine pushEvent_sound ?_
      | intro _
      | split

theorem tandemStart_sound {q : List Instr} {s : State} (h : Sound q s) :
    Sound q (tandemStart s) := by
  unfold tandemStart
  repeat' first
      | with_reducible assumption
      | with_reducible refine State.modFeed_sound ?_
      | split

theorem portsStart_sound {q : List Instr} {s : State} (h : Sound q s) :
    Sound q (portsStart s) := by
  unfold portsStart
  repeat' first
      | with_reducible assumption
      | with_reducible refine forEach_sound ?_ ?_
      | with_reducible refine portApplyDisable_sound ?_
      | with_reducible refine rdTrack_sound ?_
      | with_reducible refine dynBegin_sound ?_
      | with_reducible refine pmbVerifyAll_sound ?_
      | intro _
      | extract_lets
      | with_reducible refine Sound.ite ?_ ?_

theorem convertersOff_sound {q : List Instr} {s : State} (h : Sound q s) :
    Sound q (convertersOff s) := by
  unfold convertersOff
  repeat' first
      | with_reducible assumption
      | with_reducible refine portsStart_sound ?_
      | with_reducible refine setLevel_sound ?_
      | with_reducible refine tandemStart_sound ?_
      | with_reducible refine State.modGlb_sound ?_
      | intro _
      | split

theorem levelUp_sound {q : List Instr} {s : State} (h : Sound q s) :
    Sound q (levelUp s) := by
  unfold levelUp
  repeat' first
      | with_reducible assumption
      | with_reducible refine setLevel_sound ?_
      | with_reducible refine forEach_sound ?_ ?_
      | with_reducible refine pdPrSwapStart_sound ?_
      | with_reducible refine State.modFeed_sound ?_
      | intro _
      | extract_lets
      | with_reducible refine Sound.ite ?_ ?_

theorem bridgeEnd_sound {q : List Instr} {s : State} (h : Sound q s) :
    Sound q (bridgeEnd s) := by
  unfold bridgeEnd
  repeat' first
      | with_reducible assumption
      | with_reducible refine State.modPwr_sound ?_
      | with_reducible refine State.modDyn_sound ?_
      | intro _
      | split

theorem dynNoEpr_sound {q : List Instr} {s : State} (h : Sound q s) :
    Sound q (dynNoEpr s) := by
  unfold dynNoEpr
  repeat' first
      | with_reducible assumption
      | with_reducible refine dynAbandon_sound ?_
      | intro _
      | split

theorem nvmCmdAt_sound {q : List Instr} {p : Path} {op : Nat} {v : Word} {s : State} (h : Sound q s) :
    Sound q (nvmCmdAt p op v s) := by
  unfold nvmCmdAt
  repeat' first
      | with_reducible assumption
      | with_reducible refine writeAt_sound ?_

theorem nvmTimeout_sound {q : List Instr} {s : State} (h : Sound q s) :
    Sound q (nvmTimeout s) := by
  unfold nvmTimeout
  repeat' first
      | with_reducible assumption
      | with_reducible refine nvmResult_sound ?_
      | with_reducible refine State.modNvm_sound rfl rfl ?_
      | intro _
      | split

end Sys2Proof.Machine
end

