-- ==== Sys2Proof/Laws/Sound8.lean ====
section
/-! SUPPORT. Soundness, carried through Feeds.lean, Paths.lean, TypeC.lean, Pd.lean, Pmbus.lean, Usb.lean, Translators.lean, EfnReq.lean, Efn.lean, I2cReq.lean, Stores.lean, Cad.lean, CadQ.lean, Power.lean, Fault.lean, Regs.lean. -/

namespace Sys2Proof.Machine


theorem feedEnter_sound {q : List Instr} {f : FeedId} {s : State} (h : Sound q s) :
    Sound q (feedEnter f s) := by
  unfold feedEnter
  repeat' first
      | with_reducible assumption
      | with_reducible refine State.modLine_sound ?_
      | intro _
      | extract_lets
      | with_reducible refine Sound.ite ?_ ?_

theorem feedLeave_sound {q : List Instr} {f : FeedId} {s : State} (h : Sound q s) :
    Sound q (feedLeave f s) := by
  unfold feedLeave
  repeat' first
      | with_reducible assumption
      | with_reducible refine State.modLine_sound ?_
      | intro _
      | extract_lets
      | with_reducible refine Sound.ite ?_ ?_
      | split

theorem feedRevert_sound {q : List Instr} {f : FeedId} {s : State} (h : Sound q s) :
    Sound q (feedRevert f s) := by
  unfold feedRevert
  repeat' first
      | with_reducible assumption
      | with_reducible refine feedBreak_sound ?_
      | intro _
      | split

theorem vauxFall_sound {q : List Instr} {s : State} (h : Sound q s) :
    Sound q (vauxFall s) := by
  unfold vauxFall
  repeat' first
      | with_reducible assumption
      | with_reducible refine State.modPwr_sound ?_
      | intro _
      | split

theorem vinLow_sound {q : List Instr} {vin : Nat} {s : State} (h : Sound q s) :
    Sound q (vinLow vin s) := by
  unfold vinLow
  repeat' first
      | with_reducible assumption
      | with_reducible refine vauxFall_sound ?_
      | with_reducible refine State.modFeed_sound ?_
      | with_reducible refine feedBreak_sound ?_
      | with_reducible refine feedSelect_sound ?_
      | with_reducible refine totalLossNow_sound ?_
      | intro _
      | extract_lets
      | with_reducible refine Sound.ite ?_ ?_
      | split

theorem feedReverse_sound {q : List Instr} {s : State} (h : Sound q s) :
    Sound q (feedReverse s) := by
  unfold feedReverse
  repeat' first
      | with_reducible assumption
      | with_reducible refine feedBreak_sound ?_
      | intro _
      | split

theorem vinHeld_sound {q : List Instr} {s : State} (h : Sound q s) :
    Sound q (vinHeld s) := by
  unfold vinHeld
  repeat' first
      | with_reducible assumption
      | with_reducible refine levelDown_sound ?_
      | with_reducible refine rdTrack_sound ?_
      | with_reducible refine State.modFeed_sound ?_
      | with_reducible refine feedBreak_sound ?_
      | intro _
      | extract_lets
      | with_reducible refine Sound.ite ?_ ?_
      | split

theorem vinCross_sound {q : List Instr} {rising : Bool} {vin : Nat} {s : State} (h : Sound q s) :
    Sound q (vinCross rising vin s) := by
  unfold vinCross
  repeat' first
      | with_reducible assumption
      | with_reducible refine State.modFeed_sound ?_
      | with_reducible refine State.modPwr_sound ?_
      | with_reducible refine rdTrack_sound ?_
      | intro _
      | extract_lets
      | with_reducible refine Sound.ite ?_ ?_

theorem oldOff_sound {q : List Instr} {s : State} (h : Sound q s) :
    Sound q (oldOff s) := by
  unfold oldOff
  repeat' first
      | with_reducible assumption
      | with_reducible refine State.modFeed_sound ?_
      | with_reducible refine rdTrack_sound ?_
      | with_reducible refine feedChoose_sound ?_
      | with_reducible refine feedSettleOld_sound ?_
      | intro _
      | extract_lets
      | with_reducible refine Sound.ite ?_ ?_
      | split

theorem oldStuck_sound {q : List Instr} {present : Bool} {s : State} (h : Sound q s) :
    Sound q (oldStuck present s) := by
  unfold oldStuck
  repeat' first
      | with_reducible assumption
      | with_reducible refine State.modFeed_sound ?_
      | with_reducible refine feedLockNow_sound ?_
      | with_reducible refine totalLossNow_sound ?_
      | intro _
      | extract_lets
      | with_reducible refine Sound.ite ?_ ?_
      | split

theorem pairConducts_sound {q : List Instr} {f : FeedId} {s : State} (h : Sound q s) :
    Sound q (pairConducts f s) := by
  unfold pairConducts
  repeat' first
      | with_reducible assumption
      | with_reducible refine feedConducts_sound ?_
      | with_reducible refine State.modPwr_sound ?_
      | intro _
      | split

theorem pairFull_sound {q : List Instr} {f : FeedId} {s : State} (h : Sound q s) :
    Sound q (pairFull f s) := by
  unfold pairFull
  repeat' first
      | with_reducible assumption
      | with_reducible refine State.modLine_sound ?_
      | with_reducible refine State.modFeed_sound ?_
      | with_reducible refine State.modPp_sound ?_
      | intro _
      | extract_lets
      | with_reducible refine Sound.ite ?_ ?_

theorem rampEnd_sound {q : List Instr} {f : FeedId} {s : State} (h : Sound q s) :
    Sound q (rampEnd f s) := by
  unfold rampEnd
  repeat' first
      | with_reducible assumption
      | with_reducible refine State.modLine_sound ?_
      | with_reducible refine State.modPwr_sound ?_
      | with_reducible refine feedConducts_sound ?_
      | intro _
      | extract_lets
      | with_reducible refine Sound.ite ?_ ?_

theorem gateFail_sound {q : List Instr} {f : FeedId} {s : State} (h : Sound q s) :
    Sound q (gateFail f s) := by
  unfold gateFail
  repeat' first
      | with_reducible assumption
      | with_reducible refine feedBreak_sound ?_
      | with_reducible refine State.modLine_sound ?_
      | intro _
      | extract_lets
      | with_reducible refine Sound.ite ?_ ?_

theorem shortedPass_sound {q : List Instr} {f : FeedId} {s : State} (h : Sound q s) :
    Sound q (shortedPass f s) := by
  unfold shortedPass
  repeat' first
      | with_reducible assumption
      | with_reducible refine feedLockNow_sound ?_
      | intro _
      | split

theorem feedCooled_sound {q : List Instr} {f : FeedId} {s : State} (h : Sound q s) :
    Sound q (feedCooled f s) := by
  unfold feedCooled
  repeat' first
      | with_reducible assumption
      | with_reducible refine State.modLine_sound ?_
      | intro _
      | split

theorem vinOver_sound {q : List Instr} {vin : Nat} {s : State} (h : Sound q s) :
    Sound q (vinOver vin s) := by
  unfold vinOver
  repeat' first
      | with_reducible assumption
      | with_reducible refine State.modFeed_sound ?_
      | with_reducible refine feedsClassA_sound ?_
      | with_reducible refine State.modLine_sound ?_
      | with_reducible refine raiseAt_sound ?_
      | with_reducible refine State.modFlt_sound ?_
      | intro _
      | extract_lets
      | with_reducible refine Sound.ite ?_ ?_
      | split
      | dsimp only
      | (apply Sound.of_pair; assumption)
      | (apply Sound.of; assumption; rfl; rfl; rfl; rfl; rfl)
      | (dsimp +zetaDelta only; split)

theorem bellClear_sound {q : List Instr} {vin : Nat} {dur : Nat} {s : State} (h : Sound q s) :
    Sound q (bellClear vin dur s) := by
  unfold bellClear
  repeat' first
      | with_reducible assumption
      | with_reducible refine sendBells_sound ?_
      | with_reducible refine State.modFeed_sound ?_
      | with_reducible refine State.setReg_sound ?_
      | with_reducible refine raiseEvt_sound ?_
      | intro _
      | extract_lets
      | with_reducible refine Sound.ite ?_ ?_

theorem tandemIn_sound {q : List Instr} {vtan : Nat} {s : State} (h : Sound q s) :
    Sound q (tandemIn vtan s) := by
  unfold tandemIn
  repeat' first
      | with_reducible assumption
      | with_reducible refine State.modFeed_sound ?_
      | with_reducible refine State.modPwr_sound ?_
      | with_reducible refine rdTrack_sound ?_
      | with_reducible refine feedEvt_sound ?_
      | with_reducible refine levelDown_sound ?_
      | intro _
      | extract_lets
      | with_reducible refine Sound.ite ?_ ?_

theorem vtanMoved_sound {q : List Instr} {vtan : Nat} {s : State} (h : Sound q s) :
    Sound q (vtanMoved vtan s) := by
  unfold vtanMoved
  repeat' first
      | with_reducible assumption
      | with_reducible refine noticeIf_sound ?_
      | with_reducible refine State.modFeed_sound ?_
      | with_reducible refine State.modPwr_sound ?_
      | intro _
      | extract_lets
      | with_reducible refine Sound.ite ?_ ?_

theorem axCheck_sound {q : List Instr} {a : AxId} {vsns : Nat} {s : State} (h : Sound q s) :
    Sound q (axCheck a vsns s) := by
  unfold axCheck
  repeat' first
      | with_reducible assumption
      | with_reducible refine State.modAx_sound ?_
      | with_reducible refine axLock_sound ?_
      | with_reducible refine feedEvt_sound ?_
      | intro _
      | extract_lets
      | with_reducible refine Sound.ite ?_ ?_

theorem axPgood_sound {q : List Instr} {a : AxId} {s : State} (h : Sound q s) :
    Sound q (axPgood a s) := by
  unfold axPgood
  repeat' first
      | with_reducible assumption
      | with_reducible refine State.modAx_sound ?_
      | intro _
      | split

theorem tripRef_sound {q : List Instr} {x : PathRef} {c : PpCause} {fc : FeedCause} {s : State} (h : Sound q s) :
    Sound q (tripRef x c fc s) := by
  unfold tripRef
  repeat' first
      | with_reducible assumption
      | with_reducible refine pathTrip_sound ?_
      | with_reducible refine axTrip_sound ?_
      | intro _
      | split

theorem pathRamp_sound {q : List Instr} {x : PathRef} {vsns : Nat} {s : State} (h : Sound q s) :
    Sound q (pathRamp x vsns s) := by
  unfold pathRamp
  repeat' first
      | with_reducible assumption
      | with_reducible refine ppEnterRamp_sound ?_
      | with_reducible refine State.modTc_sound ?_
      | with_reducible refine State.modAx_sound ?_
      | intro _
      | extract_lets
      | with_reducible refine Sound.ite ?_ ?_
      | split

theorem portOn_sound {q : List Instr} {p : PortId} {s : State} (h : Sound q s) :
    Sound q (portOn p s) := by
  unfold portOn
  repeat' first
      | with_reducible assumption
      | with_reducible refine State.modPp_sound ?_
      | with_reducible refine State.modTc_sound ?_
      | with_reducible refine swapNewOn_sound ?_
      | with_reducible refine pdContractStart_sound ?_
      | intro _
      | extract_lets
      | with_reducible refine Sound.ite ?_ ?_

theorem puOn_sound {q : List Instr} {s : State} (h : Sound q s) :
    Sound q (puOn s) := by
  unfold puOn
  repeat' first
      | with_reducible assumption
      | with_reducible refine State.modPp_sound ?_
      | with_reducible refine puEnterEpr_sound ?_
      | with_reducible refine State.modDyn_sound ?_
      | intro _
      | extract_lets
      | with_reducible refine Sound.ite ?_ ?_

theorem pathOn_sound {q : List Instr} {x : PathRef} {s : State} (h : Sound q s) :
    Sound q (pathOn x s) := by
  unfold pathOn
  repeat' first
      | with_reducible assumption
      | with_reducible refine puOn_sound ?_
      | with_reducible refine portOn_sound ?_
      | with_reducible refine State.modAx_sound ?_
      | intro _
      | split

theorem pathLimit_sound {q : List Instr} {x : PathRef} {s : State} (h : Sound q s) :
    Sound q (pathLimit x s) := by
  unfold pathLimit
  repeat' first
      | with_reducible assumption
      | with_reducible refine notice_sound ?_
      | with_reducible refine ppEvt_sound ?_
      | with_reducible refine State.modPp_sound ?_
      | with_reducible refine State.modAx_sound ?_
      | intro _
      | split

theorem pathUnlimit_sound {q : List Instr} {x : PathRef} {s : State} (h : Sound q s) :
    Sound q (pathUnlimit x s) := by
  unfold pathUnlimit
  repeat' first
      | with_reducible assumption
      | with_reducible refine State.modPp_sound ?_
      | with_reducible refine State.modAx_sound ?_
      | intro _
      | split

theorem soaTrip_sound {q : List Instr} {x : PathRef} {s : State} (h : Sound q s) :
    Sound q (soaTrip x s) := by
  unfold soaTrip
  repeat' first
      | with_reducible assumption
      | with_reducible refine pathTrip_sound ?_
      | with_reducible refine State.modPp_sound ?_
      | with_reducible refine axTrip_sound ?_
      | intro _
      | split

theorem pathShorted_sound {q : List Instr} {p : PortId} {s : State} (h : Sound q s) :
    Sound q (pathShorted p s) := by
  unfold pathShorted
  repeat' first
      | with_reducible assumption
      | with_reducible refine ppShortedOff_sound ?_
      | with_reducible refine ppEvt_sound ?_
      | with_reducible refine pathLock_sound ?_

theorem outputPresent_sound {q : List Instr} {p : PortId} {s : State} (h : Sound q s) :
    Sound q (outputPresent p s) := by
  unfold outputPresent
  repeat' first
      | with_reducible assumption
      | with_reducible refine pathShorted_sound ?_
      | with_reducible refine State.modPp_sound ?_
      | intro _
      | split

theorem axCool_sound {q : List Instr} {a : AxId} {s : State} (h : Sound q s) :
    Sound q (axCool a s) := by
  unfold axCool
  repeat' first
      | with_reducible assumption
      | with_reducible refine axLock_sound ?_
      | with_reducible refine State.modAx_sound ?_
      | with_reducible refine axOff_sound ?_
      | intro _
      | extract_lets
      | with_reducible refine Sound.ite ?_ ?_

theorem pathDischarged_sound {q : List Instr} {x : PathRef} {s : State} (h : Sound q s) :
    Sound q (pathDischarged x s) := by
  unfold pathDischarged
  repeat' first
      | with_reducible assumption
      | with_reducible refine pathCool_sound ?_
      | with_reducible refine axCool_sound ?_
      | intro _
      | split

theorem backoffDone_sound {q : List Instr} {x : PathRef} {s : State} (h : Sound q s) :
    Sound q (backoffDone x s) := by
  unfold backoffDone
  repeat' first
      | with_reducible assumption
      | with_reducible refine State.modPp_sound ?_
      | with_reducible refine State.modAx_sound ?_
      | intro _
      | split

theorem retriesReset_sound {q : List Instr} {x : PathRef} {s : State} (h : Sound q s) :
    Sound q (retriesReset x s) := by
  unfold retriesReset
  repeat' first
      | with_reducible assumption
      | with_reducible refine State.modPp_sound ?_
      | with_reducible refine State.modAx_sound ?_
      | intro _
      | split

theorem vbusCross_sound {q : List Instr} {p : PortId} {l : VbusLevel} {s : State} (h : Sound q s) :
    Sound q (vbusCross p l s) := by
  unfold vbusCross
  repeat' first
      | with_reducible assumption
      | with_reducible refine State.modPp_sound ?_
      | with_reducible refine ppKick_sound ?_
      | with_reducible refine pdVbusDown_sound ?_
      | intro _
      | extract_lets
      | with_reducible refine Sound.ite ?_ ?_
      | split

theorem pmbDue_sound {q : List Instr} {sel : Txn → Bool} {s : State} (h : Sound q s) :
    Sound q (pmbDue sel s) := by
  unfold pmbDue
  repeat' first
      | with_reducible assumption
      | with_reducible refine pmbIssue_sound ?_
      | with_reducible refine State.modPmb_sound ?_
      | intro _
      | split

theorem pmbExpire_sound {q : List Instr} {sel : Txn → Bool} {c : TgtCause} {s : State} (h : Sound q s) :
    Sound q (pmbExpire sel c s) := by
  unfold pmbExpire
  repeat' first
      | with_reducible assumption
      | with_reducible refine pmbFail_sound ?_
      | with_reducible refine State.modPmb_sound ?_
      | intro _
      | extract_lets
      | with_reducible refine Sound.ite ?_ ?_
      | split

theorem pmbAlert_sound {q : List Instr} {addr : BitVec 7} {pecOk : Bool} {ack : PmbAck} {status : BitVec 16} {s : State} (h : Sound q s) :
    Sound q (pmbAlert addr pecOk ack status s) := by
  unfold pmbAlert
  repeat' first
      | with_reducible assumption
      | with_reducible refine State.modPmb_sound ?_
      | with_reducible refine alertServe_sound ?_
      | with_reducible refine alertRound_sound ?_
      | intro _
      | extract_lets
      | with_reducible refine Sound.ite ?_ ?_

theorem pmbAlertAgain_sound {q : List Instr} {low : Bool} {s : State} (h : Sound q s) :
    Sound q (pmbAlertAgain low s) := by
  unfold pmbAlertAgain
  repeat' first
      | with_reducible assumption
      | with_reducible refine State.modPmb_sound ?_
      | with_reducible refine alertRound_sound ?_
      | intro _
      | extract_lets
      | with_reducible refine Sound.ite ?_ ?_

theorem pmbStormEnd_sound {q : List Instr} {addr : BitVec 7} {s : State} (h : Sound q s) :
    Sound q (pmbStormEnd addr s) := by
  unfold pmbStormEnd
  repeat' first
      | with_reducible assumption
      | with_reducible refine State.modPmb_sound ?_
      | intro _
      | split

theorem popPoisoned_sound {q : List Instr} {a : Nat} {s : State} (h : Sound q s) :
    Sound q (popPoisoned a s) := by
  unfold popPoisoned
  repeat' first
      | with_reducible assumption
      | with_reducible refine evqDropOldest_sound ?_
      | with_reducible refine raiseFault_sound ?_

theorem readRun_sound {q : List Instr} {x0 : Nat} {x1 : Nat} {x2 : List Word} {s : State} (h : Sound q s) :
    Sound q (readRun x0 x1 x2 s).2 := by
  induction x0 generalizing s x1 x2 with
  | zero =>
    unfold readRun
    repeat' first
          | with_reducible assumption
  | succ n ih =>
    unfold readRun
    repeat' first
          | with_reducible assumption
          | (with_reducible refine ih ?_)
          | with_reducible refine popPoisoned_sound ?_
          | with_reducible refine regRead_sound ?_
          | intro _
          | extract_lets
          | with_reducible refine Sound.ite ?_ ?_
          | split

theorem vendorStall_sound {q : List Instr} {s : State} (h : Sound q s) :
    Sound q (vendorStall s) := by
  unfold vendorStall
  repeat' first
      | with_reducible assumption
      | with_reducible refine answer_sound ?_
      | with_reducible refine State.bump_sound ?_

theorem vendorHold_sound {q : List Instr} {code : Byte} {a : Nat} {len : Nat} {data : List Byte} {s : State} (h : Sound q s) :
    Sound q (vendorHold code a len data s) := by
  unfold vendorHold
  repeat' first
      | with_reducible assumption
      | with_reducible refine answer_sound ?_
      | with_reducible refine State.modEfn_sound ?_

theorem vendorRead_sound {q : List Instr} {a : Nat} {len : Nat} {s : State} (h : Sound q s) :
    Sound q (vendorRead a len s) := by
  unfold vendorRead
  repeat' first
      | with_reducible assumption
      | with_reducible refine readRun_sound ?_
      | with_reducible refine answer_sound ?_
      | with_reducible refine vendorStall_sound ?_
      | with_reducible refine vendorHold_sound ?_
      | intro _
      | extract_lets
      | with_reducible refine Sound.ite ?_ ?_
      | split

theorem writeRun_sound {q : List Instr} {a : Nat} {x1 : List Word} {s : State} (h : Sound q s) :
    Sound q (writeRun a x1 s) := by
  induction x1 generalizing s a with
  | nil =>
    unfold writeRun
    repeat' first
          | with_reducible assumption
  | cons x l ih =>
    unfold writeRun
    repeat' first
          | with_reducible assumption
          | (with_reducible refine ih ?_)
          | with_reducible refine writeAt_sound ?_

theorem vendorAck_sound {q : List Instr} {s : State} (h : Sound q s) :
    Sound q (vendorAck s) := by
  unfold vendorAck
  repeat' first
      | with_reducible assumption
      | with_reducible refine answer_sound ?_
      | intro _
      | split

theorem popRun_sound {q : List Instr} {x0 : Nat} {x1 : List Word} {s : State} (h : Sound q s) :
    Sound q (popRun x0 x1 s).2 := by
  induction x0 generalizing s x1 with
  | zero =>
    unfold popRun
    repeat' first
          | with_reducible assumption
  | succ n ih =>
    unfold popRun
    repeat' first
          | with_reducible assumption
          | (with_reducible refine ih ?_)
          | with_reducible refine popPoisoned_sound ?_
          | with_reducible refine evqTake_sound ?_
          | with_reducible refine latchPop_sound ?_
          | intro _
          | extract_lets
          | with_reducible refine Sound.ite ?_ ?_
          | split

theorem vendorPop_sound {q : List Instr} {len : Nat} {s : State} (h : Sound q s) :
    Sound q (vendorPop len s) := by
  unfold vendorPop
  repeat' first
      | with_reducible assumption
      | with_reducible refine evqPopRead_sound ?_
      | with_reducible refine answer_sound ?_
      | with_reducible refine vendorHold_sound ?_
      | with_reducible refine popRun_sound ?_
      | with_reducible refine vendorStall_sound ?_
      | intro _
      | extract_lets
      | with_reducible refine Sound.ite ?_ ?_
      | split

theorem vendorDo_sound {q : List Instr} {code : Byte} {a : Nat} {len : Nat} {data : List Byte} {s : State} (h : Sound q s) :
    Sound q (vendorDo code a len data s) := by
  unfold vendorDo
  repeat' first
      | with_reducible assumption
      | with_reducible refine vendorRead_sound ?_
      | with_reducible refine vendorAck_sound ?_
      | with_reducible refine writeRun_sound ?_
      | with_reducible refine vendorPop_sound ?_
      | with_reducible refine regKeyedWrite_sound ?_
      | intro _
      | split

theorem vendorGo_sound {q : List Instr} {code : Byte} {a : Nat} {len : Nat} {data : List Byte} {s : State} (h : Sound q s) :
    Sound q (vendorGo code a len data s) := by
  unfold vendorGo
  repeat' first
      | with_reducible assumption
      | with_reducible refine vendorHold_sound ?_
      | with_reducible refine vendorDo_sound ?_
      | intro _
      | split

theorem vendorReq_sound {q : List Instr} {code : Byte} {v : BitVec 16} {ix : BitVec 16} {len : Nat} {data : List Byte} {ok : Nat → Bool} {s : State} (h : Sound q s) :
    Sound q (vendorReq code v ix len data ok s) := by
  unfold vendorReq
  repeat' first
      | with_reducible assumption
      | with_reducible refine leaveIdle_sound ?_
      | with_reducible refine setup_sound ?_
      | with_reducible refine vendorGo_sound ?_
      | with_reducible refine vendorStall_sound ?_
      | intro _
      | extract_lets
      | with_reducible refine Sound.ite ?_ ?_
      | split

theorem efnResume_sound {q : List Instr} {s : State} (h : Sound q s) :
    Sound q (efnResume s) := by
  unfold efnResume
  repeat' first
      | with_reducible assumption
      | with_reducible refine vendorDo_sound ?_
      | with_reducible refine State.modEfn_sound ?_
      | intro _
      | split

theorem malformed_sound {q : List Instr} {tag : List Byte} {first : Byte} {s : State} (h : Sound q s) :
    Sound q (malformed tag first s) := by
  unfold malformed
  repeat' first
      | with_reducible assumption
      | with_reducible refine State.modEfn_sound ?_
      | with_reducible refine efnEvt_sound ?_
      | with_reducible refine State.bump_sound ?_
      | with_reducible refine epQueueIn_sound ?_

theorem batchReceived_sound {q : List Instr} {s : State} (h : Sound q s) :
    Sound q (batchReceived s) := by
  unfold batchReceived
  repeat' first
      | with_reducible assumption
      | with_reducible refine batchExtent_sound ?_
      | with_reducible refine efnResume_sound ?_
      | with_reducible refine malformed_sound ?_
      | with_reducible refine epTakeOut_sound ?_
      | with_reducible refine epPeek_sound ?_
      | with_reducible refine State.modEfn_sound ?_
      | intro _
      | extract_lets
      | with_reducible refine Sound.ite ?_ ?_
      | split

theorem batchEnd_sound {q : List Instr} {status : Nat} {ws : List Word} {s : State} (h : Sound q s) :
    Sound q (batchEnd status ws s) := by
  unfold batchEnd
  repeat' first
      | with_reducible assumption
      | with_reducible refine State.modEfn_sound ?_
      | intro _
      | split

theorem batchGet_sound {q : List Instr} {a : Nat} {s : State} (h : Sound q s) :
    Sound q (batchGet a s).2 := by
  unfold batchGet
  repeat' first
      | with_reducible assumption
      | with_reducible refine regRead_sound ?_
      | with_reducible refine State.modPath_sound ?_
      | intro _
      | extract_lets
      | with_reducible refine Sound.ite ?_ ?_
      | split

theorem batchGets_sound {q : List Instr} {x0 : Nat} {x1 : Nat} {s : State} (h : Sound q s) :
    Sound q (batchGets x0 x1 s).2 := by
  induction x0 generalizing s x1 with
  | zero =>
    unfold batchGets
    repeat' first
          | with_reducible assumption
  | succ n ih =>
    unfold batchGets
    repeat' first
          | with_reducible assumption
          | (with_reducible refine ih ?_)
          | with_reducible refine batchGet_sound ?_

theorem batchRead_sound {q : List Instr} {s : State} (h : Sound q s) :
    Sound q (batchRead s) := by
  unfold batchRead
  repeat' first
      | with_reducible assumption
      | with_reducible refine batchGets_sound ?_
      | with_reducible refine batchEnd_sound ?_
      | intro _
      | extract_lets
      | with_reducible refine Sound.ite ?_ ?_

theorem batchWrite_sound {q : List Instr} {s : State} (h : Sound q s) :
    Sound q (batchWrite s) := by
  unfold batchWrite
  repeat' first
      | with_reducible assumption
      | with_reducible refine batchEnd_sound ?_
      | with_reducible refine regWrite_sound ?_
      | intro _
      | split

theorem batchWriteN_sound {q : List Instr} {s : State} (h : Sound q s) :
    Sound q (batchWriteN s) := by
  unfold batchWriteN
  repeat' first
      | with_reducible assumption
      | with_reducible refine batchEnd_sound ?_
      | with_reducible refine writeRun_sound ?_
      | intro _
      | split

theorem batchRmw_sound {q : List Instr} {s : State} (h : Sound q s) :
    Sound q (batchRmw s) := by
  unfold batchRmw
  repeat' first
      | with_reducible assumption
      | with_reducible refine batchGet_sound ?_
      | with_reducible refine batchEnd_sound ?_
      | with_reducible refine regWrite_sound ?_
      | intro _
      | extract_lets
      | with_reducible refine Sound.ite ?_ ?_

theorem batchPoll_sound {q : List Instr} {timedOut : Bool} {s : State} (h : Sound q s) :
    Sound q (batchPoll timedOut s) := by
  unfold batchPoll
  repeat' first
      | with_reducible assumption
      | with_reducible refine batchGet_sound ?_
      | with_reducible refine batchEnd_sound ?_
      | intro _
      | extract_lets
      | with_reducible refine Sound.ite ?_ ?_

theorem batchKeyed_sound {q : List Instr} {s : State} (h : Sound q s) :
    Sound q (batchKeyed s) := by
  unfold batchKeyed
  repeat' first
      | with_reducible assumption
      | with_reducible refine batchEnd_sound ?_
      | with_reducible refine regKeyedWrite_sound ?_
      | intro _
      | split

theorem batchDelay_sound {q : List Instr} {s : State} (h : Sound q s) :
    Sound q (batchDelay s) := by
  unfold batchDelay
  repeat' first
      | with_reducible assumption
      | with_reducible refine batchEnd_sound ?_
      | intro _
      | split

theorem batchPops_sound {q : List Instr} {x0 : Nat} {x1 : List Word} {s : State} (h : Sound q s) :
    Sound q (batchPops x0 x1 s).2 := by
  induction x0 generalizing s x1 with
  | zero =>
    unfold batchPops
    repeat' first
          | with_reducible assumption
  | succ n ih =>
    unfold batchPops
    repeat' first
          | with_reducible assumption
          | (with_reducible refine ih ?_)
          | with_reducible refine evqTake_sound ?_
          | with_reducible refine latchPop_sound ?_
          | intro _
          | extract_lets
          | with_reducible refine Sound.ite ?_ ?_
          | split

theorem batchPop_sound {q : List Instr} {timedOut : Bool} {s : State} (h : Sound q s) :
    Sound q (batchPop timedOut s) := by
  unfold batchPop
  repeat' first
      | with_reducible assumption
      | with_reducible refine batchEnd_sound ?_
      | with_reducible refine latchPop_sound ?_
      | with_reducible refine batchPops_sound ?_
      | intro _
      | extract_lets
      | with_reducible refine Sound.ite ?_ ?_

theorem batchTimeout_sound {q : List Instr} {s : State} (h : Sound q s) :
    Sound q (batchTimeout s) := by
  unfold batchTimeout
  repeat' first
      | with_reducible assumption
      | with_reducible refine batchEnd_sound ?_

theorem batchDone_sound {q : List Instr} {s : State} (h : Sound q s) :
    Sound q (batchDone s) := by
  unfold batchDone
  repeat' first
      | with_reducible assumption
      | with_reducible refine efnResume_sound ?_
      | with_reducible refine batchIdle_sound ?_
      | with_reducible refine State.modEfn_sound ?_
      | with_reducible refine epQueueIn_sound ?_
      | intro _
      | extract_lets
      | with_reducible refine Sound.ite ?_ ?_

theorem evqPush_sound {q : List Instr} {s : State} (h : Sound q s) :
    Sound q (evqPush s) := by
  unfold evqPush
  repeat' first
      | with_reducible assumption
      | with_reducible refine batchPops_sound ?_
      | with_reducible refine epQueueIn_sound ?_
      | intro _
      | extract_lets
      | with_reducible refine Sound.ite ?_ ?_

theorem holdTimeout_sound {q : List Instr} {s : State} (h : Sound q s) :
    Sound q (holdTimeout s) := by
  unfold holdTimeout
  repeat' first
      | with_reducible assumption
      | with_reducible refine batchTimeout_sound ?_
      | with_reducible refine raiseFault_sound ?_
      | with_reducible refine vendorStall_sound ?_
      | with_reducible refine State.modEfn_sound ?_
      | intro _
      | split

theorem i2cAcks_sound {q : List Instr} {l : List Bool} {s : State} (h : Sound q s) :
    Sound q (i2cAcks l s) := by
  unfold i2cAcks
  repeat' first
      | with_reducible assumption
      | with_reducible refine State.modI2c_sound ?_

theorem i2cFormat_sound {q : List Instr} {s : State} (h : Sound q s) :
    Sound q (i2cFormat s) := by
  unfold i2cFormat
  repeat' first
      | with_reducible assumption
      | with_reducible refine raiseEvt0_sound ?_
      | with_reducible refine State.bump_sound ?_

theorem i2cBadPec_sound {q : List Instr} {s : State} (h : Sound q s) :
    Sound q (i2cBadPec s) := by
  unfold i2cBadPec
  repeat' first
      | with_reducible assumption
      | with_reducible refine raiseEvt0_sound ?_
      | with_reducible refine State.bump_sound ?_

theorem i2cMatched_sound {q : List Instr} {s : State} (h : Sound q s) :
    Sound q (i2cMatched s) := by
  unfold i2cMatched
  repeat' first
      | with_reducible assumption
      | with_reducible refine ladderRetry_sound ?_
      | with_reducible refine State.modPwr_sound ?_
      | with_reducible refine State.modI2c_sound ?_
      | with_reducible refine i2cMatch_sound ?_
      | intro _
      | split

theorem i2cWakes_sound {q : List Instr} {bytes : List Byte} {s : State} (h : Sound q s) :
    Sound q (i2cWakes bytes s) := by
  unfold i2cWakes
  repeat' first
      | with_reducible assumption
      | with_reducible refine wakeSourceAt_sound ?_
      | intro _
      | split

theorem i2cWriteRun_sound {q : List Instr} {a : Nat} {x1 : List Word} {s : State} (h : Sound q s) :
    Sound q (i2cWriteRun a x1 s) := by
  induction x1 generalizing s a with
  | nil =>
    unfold i2cWriteRun
    repeat' first
          | with_reducible assumption
  | cons x l ih =>
    unfold i2cWriteRun
    repeat' first
          | with_reducible assumption
          | (with_reducible refine ih ?_)
          | with_reducible refine regWrite_sound ?_
          | with_reducible refine State.modI2c_sound ?_
          | intro _
          | split

theorem i2cFinish_sound {q : List Instr} {ab : Byte} {bytes : List Byte} {s : State} (h : Sound q s) :
    Sound q (i2cFinish ab bytes s) := by
  unfold i2cFinish
  repeat' first
      | with_reducible assumption
      | with_reducible refine i2cFormat_sound ?_
      | with_reducible refine i2cWriteRun_sound ?_
      | with_reducible refine i2cWakes_sound ?_
      | with_reducible refine i2cBadPec_sound ?_
      | intro _
      | extract_lets
      | with_reducible refine Sound.ite ?_ ?_

theorem i2cRefuse_sound {q : List Instr} {nn : Nat} {s : State} (h : Sound q s) :
    Sound q (i2cRefuse nn s) := by
  unfold i2cRefuse
  repeat' first
      | with_reducible assumption
      | with_reducible refine i2cAcks_sound ?_

theorem i2cWrite_sound {q : List Instr} {addr : BitVec 7} {bytes : List Byte} {stopped : Bool} {s : State} (h : Sound q s) :
    Sound q (i2cWrite addr bytes stopped s) := by
  unfold i2cWrite
  repeat' first
      | with_reducible assumption
      | with_reducible refine i2cAcks_sound ?_
      | with_reducible refine i2cMatched_sound ?_
      | with_reducible refine i2cRefuse_sound ?_
      | with_reducible refine i2cFormat_sound ?_
      | with_reducible refine i2cFinish_sound ?_
      | intro _
      | extract_lets
      | with_reducible refine Sound.ite ?_ ?_

theorem i2cReadRun_sound {q : List Instr} {hdr : List Byte} {nread : Nat} {x2 : Nat} {x3 : Nat} {x4 : List Byte} {x5 : Bool} {s : State} (h : Sound q s) :
    Sound q (i2cReadRun hdr nread x2 x3 x4 x5 s) := by
  induction x2 generalizing s x3 x4 x5 with
  | zero =>
    unfold i2cReadRun
    repeat' first
          | with_reducible assumption
          | with_reducible refine State.modI2c_sound ?_
  | succ n ih =>
    unfold i2cReadRun
    repeat' first
          | with_reducible assumption
          | (with_reducible refine ih ?_)
          | with_reducible refine State.modI2c_sound ?_
          | with_reducible refine regRead_sound ?_
          | intro _
          | extract_lets
          | with_reducible refine Sound.ite ?_ ?_
          | split

theorem i2cRead_sound {q : List Instr} {addr : BitVec 7} {bytes : List Byte} {nread : Nat} {s : State} (h : Sound q s) :
    Sound q (i2cRead addr bytes nread s) := by
  unfold i2cRead
  repeat' first
      | with_reducible assumption
      | with_reducible refine i2cAcks_sound ?_
      | with_reducible refine i2cMatched_sound ?_
      | with_reducible refine i2cRefuse_sound ?_
      | with_reducible refine i2cReadRun_sound ?_
      | with_reducible refine i2cWakes_sound ?_
      | with_reducible refine i2cFormat_sound ?_
      | intro _
      | extract_lets
      | with_reducible refine Sound.ite ?_ ?_

theorem i2cResume_sound {q : List Instr} {s : State} (h : Sound q s) :
    Sound q (i2cResume s) := by
  unfold i2cResume
  repeat' first
      | with_reducible assumption
      | with_reducible refine i2cWriteRun_sound ?_
      | with_reducible refine State.modI2c_sound ?_
      | with_reducible refine i2cReadRun_sound ?_
      | intro _
      | extract_lets
      | with_reducible refine Sound.ite ?_ ?_
      | split
      | dsimp only
      | (apply Sound.of_pair; assumption)
      | (apply Sound.of; assumption; rfl; rfl; rfl; rfl; rfl)
      | (dsimp +zetaDelta only; split)

theorem i2cTimeout_sound {q : List Instr} {s : State} (h : Sound q s) :
    Sound q (i2cTimeout s) := by
  unfold i2cTimeout
  repeat' first
      | with_reducible assumption
      | with_reducible refine State.modI2c_sound ?_
      | with_reducible refine raiseFault_sound ?_
      | with_reducible refine raiseAt_sound ?_
      | with_reducible refine i2cRefuse_sound ?_
      | intro _
      | extract_lets
      | with_reducible refine Sound.ite ?_ ?_
      | split

theorem i2cAbandon_sound {q : List Instr} {s : State} (h : Sound q s) :
    Sound q (i2cAbandon s) := by
  unfold i2cAbandon
  repeat' first
      | with_reducible assumption
      | with_reducible refine State.modPath_sound ?_
      | with_reducible refine State.modI2c_sound ?_

theorem popTimeout_sound {q : List Instr} {p : Path} {s : State} (h : Sound q s) :
    Sound q (popTimeout p s) := by
  unfold popTimeout
  repeat' first
      | with_reducible assumption
      | with_reducible refine endPop_sound ?_
      | with_reducible refine batchTimeout_sound ?_
      | with_reducible refine latchPop_sound ?_
      | intro _
      | split

theorem puLinkUp_sound {q : List Instr} {s : State} (h : Sound q s) :
    Sound q (puLinkUp s) := by
  unfold puLinkUp
  repeat' first
      | with_reducible assumption
      | with_reducible refine cadUp_sound ?_
      | intro _
      | extract_lets
      | with_reducible refine Sound.ite ?_ ?_

theorem resume_sound {q : List Instr} {s : State} (h : Sound q s) :
    Sound q (resume s) := by
  unfold resume
  repeat' first
      | with_reducible assumption
      | with_reducible refine efnResume_sound ?_
      | with_reducible refine i2cResume_sound ?_

theorem wakeAny_sound {q : List Instr} {w : WakeSrc} {p : Option PortId} {s : State} (h : Sound q s) :
    Sound q (wakeAny w p s) := by
  unfold wakeAny
  repeat' first
      | with_reducible assumption
      | with_reducible refine ladderRetry_sound ?_
      | with_reducible refine wakeSourceAt_sound ?_
      | intro _
      | split

theorem dieTemp_sound {q : List Instr} {c : Int} {s : State} (h : Sound q s) :
    Sound q (dieTemp c s) := by
  unfold dieTemp
  repeat' first
      | with_reducible assumption
      | with_reducible refine State.wr_sound ?_

theorem tempCritAt_sound {q : List Instr} {c : Int} {s : State} (h : Sound q s) :
    Sound q (tempCritAt c s) := by
  unfold tempCritAt
  repeat' first
      | with_reducible assumption
      | with_reducible refine dieTemp_sound ?_
      | with_reducible refine raiseAt_sound ?_
      | with_reducible refine State.modFlt_sound ?_
      | intro _
      | split

theorem tempHighAt_sound {q : List Instr} {c : Int} {s : State} (h : Sound q s) :
    Sound q (tempHighAt c s) := by
  unfold tempHighAt
  repeat' first
      | with_reducible assumption
      | with_reducible refine dieTemp_sound ?_
      | with_reducible refine raiseAt_sound ?_
      | with_reducible refine State.modFlt_sound ?_
      | intro _
      | split

theorem conditionEnd_sound {q : List Instr} {c : FaultCond} {s : State} (h : Sound q s) :
    Sound q (conditionEnd c s) := by
  unfold conditionEnd
  repeat' first
      | with_reducible assumption
      | with_reducible refine feedSelect_sound ?_
      | with_reducible refine State.modFlt_sound ?_

end Sys2Proof.Machine
end

