-- ==== Sys2Proof/Laws/Sound9.lean ====
section
/-! SUPPORT. Soundness of every command's meaning and of the tick: what the tier 3 invariant rests on. -/

namespace Sys2Proof.Machine

/-- Whatever next state an outcome holds is sound. -/
def SoundOut (q : List Instr) (o : Host.Outcome State Fault Refusal) : Prop := ∀ t, o = .next t → Sound q t

theorem fin_sound {q : List Instr} {s : State} (h : Sound q s) : SoundOut q (fin s) := by
  rintro t ⟨⟩
  exact settled_sound h

theorem SoundOut.fault {q : List Instr} {r : Fault} : SoundOut q (.fault r) := fun _ e => by simp at e

theorem SoundOut.ite {q : List Instr} {c : Prop} [Decidable c] {a b : Host.Outcome State Fault Refusal}
    (ha : SoundOut q a) (hb : SoundOut q b) : SoundOut q (if c then a else b) := by split <;> assumption


theorem execSupplyGoodEval_sound {q : List Instr} {vin : Nat} {puVbus : Nat} {vtan : Nat} {puRp : CcTerm} {straps : BitVec 3} {s : State} (h : Sound q s) :
    SoundOut q (execSupplyGoodEval vin puVbus vtan puRp straps s) := fin_sound (supplyGood_sound h)

theorem execResetNLow_sound {q : List Instr} {s : State} (h : Sound q s) :
    SoundOut q (execResetNLow s) := by
  unfold execResetNLow
  refine fin_sound ?_
  repeat' first
    | with_reducible assumption
    | with_reducible refine coldReset_sound ?_
    | intro _
    | split

theorem execVaux5Brownout_sound {q : List Instr} {s : State} (h : Sound q s) :
    SoundOut q (execVaux5Brownout s) := fin_sound (vauxBrownout_sound h)

theorem execGlbResetCold_sound {q : List Instr} {path : Path} {v : Word} {s : State} (h : Sound q s) :
    SoundOut q (execGlbResetCold path v s) := fin_sound (writeAt_sound h)

theorem execGlbResetWarm_sound {q : List Instr} {path : Path} {v : Word} {s : State} (h : Sound q s) :
    SoundOut q (execGlbResetWarm path v s) := fin_sound (writeAt_sound h)

theorem execInternalLdosReady_sound {q : List Instr} {s : State} (h : Sound q s) :
    SoundOut q (execInternalLdosReady s) := fin_sound (ldosReady_sound h)

theorem execX24Ready_sound {q : List Instr} {s : State} (h : Sound q s) :
    SoundOut q (execX24Ready s) := fin_sound (x24Ready_sound h)

theorem execX24Stop_sound {q : List Instr} {s : State} (h : Sound q s) :
    SoundOut q (execX24Stop s) := fin_sound (x24Stop_sound h)

theorem execX32CrystalFail_sound {q : List Instr} {s : State} (h : Sound q s) :
    SoundOut q (execX32CrystalFail s) := fin_sound (x32Fail_sound h)

theorem execVddcTurnOnDone_sound {q : List Instr} {r : VddcResult} {s : State} (h : Sound q s) :
    SoundOut q (execVddcTurnOnDone r s) := fin_sound (vddcDone_sound h)

theorem execFlashHeadersRead_sound {q : List Instr} {jedec : BitVec 24} {content : List (Nat × Byte)} {s : State} (h : Sound q s) :
    SoundOut q (execFlashHeadersRead jedec content s) := fin_sound (headersRead_sound h)

theorem execSlotValidated_sound {q : List Instr} {s : State} (h : Sound q s) :
    SoundOut q (execSlotValidated s) := fin_sound (slotValidated_sound h)

theorem execSignatureVerified_sound {q : List Instr} {s : State} (h : Sound q s) :
    SoundOut q (execSignatureVerified s) := fin_sound (signatureVerified_sound h)

theorem execLadderConvertersOff_sound {q : List Instr} {s : State} (h : Sound q s) :
    SoundOut q (execLadderConvertersOff s) := fin_sound (convertersOff_sound h)

theorem execLevelUpTo2_sound {q : List Instr} {s : State} (h : Sound q s) :
    SoundOut q (execLevelUpTo2 s) := fin_sound (levelUp_sound h)

theorem execBridgeModeEnd_sound {q : List Instr} {s : State} (h : Sound q s) :
    SoundOut q (execBridgeModeEnd s) := fin_sound (bridgeEnd_sound h)

theorem execDynNoEpr_sound {q : List Instr} {s : State} (h : Sound q s) :
    SoundOut q (execDynNoEpr s) := fin_sound (dynNoEpr_sound h)

theorem execCauseRecordProgrammed_sound {q : List Instr} {s : State} (h : Sound q s) :
    SoundOut q (execCauseRecordProgrammed s) := by
  unfold execCauseRecordProgrammed
  refine fin_sound ?_
  repeat' first
    | with_reducible assumption
    | with_reducible refine causeProgram_sound ?_
    | intro _
    | split

theorem execCauseAreaEraseStart_sound {q : List Instr} {s : State} (h : Sound q s) :
    SoundOut q (execCauseAreaEraseStart s) := by
  unfold execCauseAreaEraseStart
  refine fin_sound ?_
  repeat' first
    | with_reducible assumption
    | with_reducible refine State.modNvm_sound rfl rfl ?_
    | intro _
    | split

theorem execCauseAreaEraseDone_sound {q : List Instr} {s : State} (h : Sound q s) :
    SoundOut q (execCauseAreaEraseDone s) := by
  unfold execCauseAreaEraseDone
  refine fin_sound ?_
  repeat' first
    | with_reducible assumption
    | with_reducible refine State.modNvm_sound rfl rfl ?_
    | with_reducible refine State.modFlash_program ?_
    | with_reducible refine State.modFlash_erase ?_
    | intro _
    | split

theorem execNvmRead_sound {q : List Instr} {path : Path} {v : Word} {s : State} (h : Sound q s) :
    SoundOut q (execNvmRead path v s) := fin_sound (nvmCmdAt_sound h)

theorem execNvmProgram_sound {q : List Instr} {path : Path} {v : Word} {s : State} (h : Sound q s) :
    SoundOut q (execNvmProgram path v s) := fin_sound (nvmCmdAt_sound h)

theorem execNvmErase4k_sound {q : List Instr} {path : Path} {v : Word} {s : State} (h : Sound q s) :
    SoundOut q (execNvmErase4k path v s) := fin_sound (nvmCmdAt_sound h)

theorem execNvmErase64k_sound {q : List Instr} {path : Path} {v : Word} {s : State} (h : Sound q s) :
    SoundOut q (execNvmErase64k path v s) := fin_sound (nvmCmdAt_sound h)

theorem execNvmVerifySlot_sound {q : List Instr} {path : Path} {v : Word} {s : State} (h : Sound q s) :
    SoundOut q (execNvmVerifySlot path v s) := fin_sound (nvmCmdAt_sound h)

theorem execNvmReadId_sound {q : List Instr} {path : Path} {v : Word} {s : State} (h : Sound q s) :
    SoundOut q (execNvmReadId path v s) := fin_sound (nvmCmdAt_sound h)

theorem execNvmOtpProgram_sound {q : List Instr} {path : Path} {v : Word} {s : State} (h : Sound q s) :
    SoundOut q (execNvmOtpProgram path v s) := fin_sound (nvmCmdAt_sound h)

theorem execNvmBadOp_sound {q : List Instr} {path : Path} {v : Word} {s : State} (h : Sound q s) :
    SoundOut q (execNvmBadOp path v s) := fin_sound (writeAt_sound h)

theorem execNvmOpDone_sound {q : List Instr} {jedec : BitVec 24} {stuckLow : Word} {s : State} (h : Sound q s) :
    SoundOut q (execNvmOpDone jedec stuckLow s) := fin_sound (nvmFinish_sound h)

theorem execNvmOpTimeout_sound {q : List Instr} {s : State} (h : Sound q s) :
    SoundOut q (execNvmOpTimeout s) := fin_sound (nvmTimeout_sound h)

theorem execRetentionReloadDone_sound {q : List Instr} {bank : Fin 4} {s : State} (h : Sound q s) :
    SoundOut q (execRetentionReloadDone bank s) := fin_sound (bankReloaded_sound h)

theorem execFeedWindowEnter_sound {q : List Instr} {f : FeedId} {s : State} (h : Sound q s) :
    SoundOut q (execFeedWindowEnter f s) := fin_sound (feedEnter_sound h)

theorem execFeedWindowExit_sound {q : List Instr} {f : FeedId} {s : State} (h : Sound q s) :
    SoundOut q (execFeedWindowExit f s) := fin_sound (feedLeave_sound h)

theorem execFeedQualified_sound {q : List Instr} {f : FeedId} {s : State} (h : Sound q s) :
    SoundOut q (execFeedQualified f s) := by
  unfold execFeedQualified
  refine fin_sound ?_
  repeat' first
    | with_reducible assumption
    | with_reducible refine feedReady_sound ?_
    | intro _
    | split

theorem execFeedRevertExpire_sound {q : List Instr} {f : FeedId} {s : State} (h : Sound q s) :
    SoundOut q (execFeedRevertExpire f s) := fin_sound (feedRevert_sound h)

theorem execVinUvlo_sound {q : List Instr} {vin : Nat} {s : State} (h : Sound q s) :
    SoundOut q (execVinUvlo vin s) := fin_sound (vinLow_sound h)

theorem execFeedReverseCurrent_sound {q : List Instr} {s : State} (h : Sound q s) :
    SoundOut q (execFeedReverseCurrent s) := fin_sound (feedReverse_sound h)

theorem execVinBrownoutHoldExpire_sound {q : List Instr} {s : State} (h : Sound q s) :
    SoundOut q (execVinBrownoutHoldExpire s) := fin_sound (vinHeld_sound h)

theorem execVin36vCrossing_sound {q : List Instr} {rising : Bool} {vin : Nat} {s : State} (h : Sound q s) :
    SoundOut q (execVin36vCrossing rising vin s) := fin_sound (vinCross_sound h)

theorem execSwitchoverOldOff_sound {q : List Instr} {s : State} (h : Sound q s) :
    SoundOut q (execSwitchoverOldOff s) := fin_sound (oldOff_sound h)

theorem execSwitchoverConfirmTimeout_sound {q : List Instr} {oldPresent : Bool} {s : State} (h : Sound q s) :
    SoundOut q (execSwitchoverConfirmTimeout oldPresent s) := fin_sound (oldStuck_sound h)

theorem execFeedPairConducts_sound {q : List Instr} {f : FeedId} {s : State} (h : Sound q s) :
    SoundOut q (execFeedPairConducts f s) := fin_sound (pairConducts_sound h)

theorem execFeedPairFullyOn_sound {q : List Instr} {f : FeedId} {s : State} (h : Sound q s) :
    SoundOut q (execFeedPairFullyOn f s) := fin_sound (pairFull_sound h)

theorem execFeedLiveTurnonTimeout_sound {q : List Instr} {f : FeedId} {s : State} (h : Sound q s) :
    SoundOut q (execFeedLiveTurnonTimeout f s) := by
  unfold execFeedLiveTurnonTimeout
  refine fin_sound ?_
  repeat' first
    | with_reducible assumption
    | with_reducible refine feedTripNow_sound ?_
    | intro _
    | extract_lets
    | with_reducible refine Sound.ite ?_ ?_

theorem execFeedRampEnd_sound {q : List Instr} {f : FeedId} {s : State} (h : Sound q s) :
    SoundOut q (execFeedRampEnd f s) := fin_sound (rampEnd_sound h)

theorem execFeedGateCheckFail_sound {q : List Instr} {f : FeedId} {s : State} (h : Sound q s) :
    SoundOut q (execFeedGateCheckFail f s) := fin_sound (gateFail_sound h)

theorem execFeedShortedPass_sound {q : List Instr} {f : FeedId} {s : State} (h : Sound q s) :
    SoundOut q (execFeedShortedPass f s) := fin_sound (shortedPass_sound h)

theorem execFeedTrip_sound {q : List Instr} {f : FeedId} {cause : FeedTripCause} {s : State} (h : Sound q s) :
    SoundOut q (execFeedTrip f cause s) := by
  unfold execFeedTrip
  refine fin_sound ?_
  repeat' first
    | with_reducible assumption
    | with_reducible refine pathTrip_sound ?_
    | with_reducible refine feedTripNow_sound ?_
    | intro _
    | split

theorem execFeedCooldownExpire_sound {q : List Instr} {f : FeedId} {s : State} (h : Sound q s) :
    SoundOut q (execFeedCooldownExpire f s) := fin_sound (feedCooled_sound h)

theorem execFeedUnlock_sound {q : List Instr} {path : Path} {v : Word} {s : State} (h : Sound q s) :
    SoundOut q (execFeedUnlock path v s) := fin_sound (writeAt_sound h)

theorem execVinOvervoltage_sound {q : List Instr} {vin : Nat} {s : State} (h : Sound q s) :
    SoundOut q (execVinOvervoltage vin s) := by
  unfold execVinOvervoltage
  repeat' first
      | with_reducible refine fin_sound ?_
      | exact SoundOut.fault
      | with_reducible refine SoundOut.ite ?_ ?_
      | with_reducible assumption
      | with_reducible refine vinOver_sound ?_

theorem execBellRing_sound {q : List Instr} {vin : Nat} {s : State} (h : Sound q s) :
    SoundOut q (execBellRing vin s) := by
  unfold execBellRing
  refine fin_sound ?_
  repeat' first
    | with_reducible assumption
    | with_reducible refine bellNow_sound ?_
    | with_reducible refine State.modFeed_sound ?_
    | intro _
    | split

theorem execBellClear_sound {q : List Instr} {vin : Nat} {durUs : Nat} {s : State} (h : Sound q s) :
    SoundOut q (execBellClear vin durUs s) := fin_sound (bellClear_sound h)

theorem execDegradedSet_sound {q : List Instr} {s : State} (h : Sound q s) :
    SoundOut q (execDegradedSet s) := by
  unfold execDegradedSet
  refine fin_sound ?_
  repeat' first
    | with_reducible assumption
    | with_reducible refine bmRecompute_sound ?_
    | with_reducible refine feedEvt_sound ?_
    | with_reducible refine State.modFeed_sound ?_
    | intro _
    | split

theorem execDegradedClear_sound {q : List Instr} {s : State} (h : Sound q s) :
    SoundOut q (execDegradedClear s) := by
  unfold execDegradedClear
  refine fin_sound ?_
  repeat' first
    | with_reducible assumption
    | with_reducible refine bmRecompute_sound ?_
    | with_reducible refine State.modFeed_sound ?_
    | intro _
    | split

theorem execTandemEnter_sound {q : List Instr} {vtan : Nat} {s : State} (h : Sound q s) :
    SoundOut q (execTandemEnter vtan s) := fin_sound (tandemIn_sound h)

theorem execFtPresentChange_sound {q : List Instr} {vtan : Nat} {s : State} (h : Sound q s) :
    SoundOut q (execFtPresentChange vtan s) := fin_sound (vtanMoved_sound h)

theorem execAxOffVsnsCheck_sound {q : List Instr} {a : AxId} {vsns : Nat} {s : State} (h : Sound q s) :
    SoundOut q (execAxOffVsnsCheck a vsns s) := fin_sound (axCheck_sound h)

theorem execAxPgoodRelease_sound {q : List Instr} {a : AxId} {s : State} (h : Sound q s) :
    SoundOut q (execAxPgoodRelease a s) := fin_sound (axPgood_sound h)

theorem execPathRampStart_sound {q : List Instr} {x : PathRef} {vsns : Nat} {s : State} (h : Sound q s) :
    SoundOut q (execPathRampStart x vsns s) := fin_sound (pathRamp_sound h)

theorem execPathRampDone_sound {q : List Instr} {x : PathRef} {s : State} (h : Sound q s) :
    SoundOut q (execPathRampDone x s) := fin_sound (pathOn_sound h)

theorem execPathLimitEnter_sound {q : List Instr} {x : PathRef} {s : State} (h : Sound q s) :
    SoundOut q (execPathLimitEnter x s) := fin_sound (pathLimit_sound h)

theorem execPathLimitExit_sound {q : List Instr} {x : PathRef} {s : State} (h : Sound q s) :
    SoundOut q (execPathLimitExit x s) := fin_sound (pathUnlimit_sound h)

theorem execPathFastTrip_sound {q : List Instr} {x : PathRef} {s : State} (h : Sound q s) :
    SoundOut q (execPathFastTrip x s) := fin_sound (tripRef_sound h)

theorem execBrakeTimerExpire_sound {q : List Instr} {x : PathRef} {k : Fin 8} {s : State} (h : Sound q s) :
    SoundOut q (execBrakeTimerExpire x k s) := by
  unfold execBrakeTimerExpire
  refine fin_sound ?_
  repeat' first
    | with_reducible assumption
    | with_reducible refine tripRef_sound ?_
    | intro _
    | split

theorem execSoaBudgetExhausted_sound {q : List Instr} {x : PathRef} {s : State} (h : Sound q s) :
    SoundOut q (execSoaBudgetExhausted x s) := fin_sound (soaTrip_sound h)

theorem execRampTimeout_sound {q : List Instr} {p : PortId} {s : State} (h : Sound q s) :
    SoundOut q (execRampTimeout p s) := by
  unfold execRampTimeout
  refine fin_sound ?_
  repeat' first
    | with_reducible assumption
    | with_reducible refine pathTrip_sound ?_
    | intro _
    | split

theorem execRampOvershoot_sound {q : List Instr} {p : PortId} {s : State} (h : Sound q s) :
    SoundOut q (execRampOvershoot p s) := by
  unfold execRampOvershoot
  refine fin_sound ?_
  repeat' first
    | with_reducible assumption
    | with_reducible refine pathShorted_sound ?_
    | intro _
    | split

theorem execGateCheckFail_sound {q : List Instr} {p : PortId} {s : State} (h : Sound q s) :
    SoundOut q (execGateCheckFail p s) := by
  unfold execGateCheckFail
  refine fin_sound ?_
  repeat' first
    | with_reducible assumption
    | with_reducible refine pathLock_sound ?_
    | with_reducible refine ppEvt_sound ?_
    | intro _
    | split

theorem execOutputPresentFail_sound {q : List Instr} {p : PortId} {s : State} (h : Sound q s) :
    SoundOut q (execOutputPresentFail p s) := fin_sound (outputPresent_sound h)

theorem execPathDischarged_sound {q : List Instr} {x : PathRef} {s : State} (h : Sound q s) :
    SoundOut q (execPathDischarged x s) := fin_sound (pathDischarged_sound h)

theorem execBackoffExpire_sound {q : List Instr} {x : PathRef} {s : State} (h : Sound q s) :
    SoundOut q (execBackoffExpire x s) := fin_sound (backoffDone_sound h)

theorem execRetryCountReset_sound {q : List Instr} {x : PathRef} {s : State} (h : Sound q s) :
    SoundOut q (execRetryCountReset x s) := fin_sound (retriesReset_sound h)

theorem execPpUnlock_sound {q : List Instr} {path : Path} {p : PortId} {v : Word} {s : State} (h : Sound q s) :
    SoundOut q (execPpUnlock path p v s) := fin_sound (writeAt_sound h)

theorem execMeterSample_sound {q : List Instr} {v : List Int} {i : List Int} {s : State} (h : Sound q s) :
    SoundOut q (execMeterSample v i s) := fin_sound (meterSample_sound h)

theorem execSnapshotTaken_sound {q : List Instr} {s : State} (h : Sound q s) :
    SoundOut q (execSnapshotTaken s) := fin_sound (snapshotTaken_sound h)

theorem execMtELoRead_sound {q : List Instr} {path : Path} {m : MeterId} {s : State} (h : Sound q s) :
    SoundOut q (execMtELoRead path m s) := fin_sound (readAt_sound h)

theorem execMeterTick_sound {q : List Instr} {s : State} (h : Sound q s) :
    SoundOut q (execMeterTick s) := fin_sound (meterTick_sound h)

theorem execTcCcChange_sound {q : List Instr} {p : PortId} {cc1 : CcTerm} {cc2 : CcTerm} {s : State} (h : Sound q s) :
    SoundOut q (execTcCcChange p cc1 cc2 s) := fin_sound (tcCcChange_sound h)

theorem execTcDrpToggle_sound {q : List Instr} {p : PortId} {s : State} (h : Sound q s) :
    SoundOut q (execTcDrpToggle p s) := fin_sound (tcDrpToggle_sound h)

theorem execTcCcDebounceExpire_sound {q : List Instr} {p : PortId} {vbus : Nat} {s : State} (h : Sound q s) :
    SoundOut q (execTcCcDebounceExpire p vbus s) := fin_sound (tcDebounce_sound h)

theorem execTcDrpTryExpire_sound {q : List Instr} {p : PortId} {s : State} (h : Sound q s) :
    SoundOut q (execTcDrpTryExpire p s) := fin_sound (tcDrpTry_sound h)

theorem execTcTryTimeout_sound {q : List Instr} {p : PortId} {s : State} (h : Sound q s) :
    SoundOut q (execTcTryTimeout p s) := fin_sound (tcTryTimeout_sound h)

theorem execTcDrpTryWaitExpire_sound {q : List Instr} {p : PortId} {s : State} (h : Sound q s) :
    SoundOut q (execTcDrpTryWaitExpire p s) := fin_sound (tcTryWait_sound h)

theorem execTcDetach_sound {q : List Instr} {p : PortId} {s : State} (h : Sound q s) :
    SoundOut q (execTcDetach p s) := fin_sound (tcDetachRow_sound h)

theorem execVbusLate_sound {q : List Instr} {p : PortId} {s : State} (h : Sound q s) :
    SoundOut q (execVbusLate p s) := fin_sound (tcVbusLate_sound h)

theorem execTcErrorRecoveryExpire_sound {q : List Instr} {p : PortId} {s : State} (h : Sound q s) :
    SoundOut q (execTcErrorRecoveryExpire p s) := fin_sound (tcRecoveryEnd_sound h)

theorem execTcCmdErrRecovery_sound {q : List Instr} {path : Path} {p : PortId} {v : Word} {s : State} (h : Sound q s) :
    SoundOut q (execTcCmdErrRecovery path p v s) := fin_sound (writeAt_sound h)

theorem execTcCmdMoistTest_sound {q : List Instr} {path : Path} {p : PortId} {v : Word} {s : State} (h : Sound q s) :
    SoundOut q (execTcCmdMoistTest path p v s) := fin_sound (writeAt_sound h)

theorem execVconnOc_sound {q : List Instr} {p : PortId} {s : State} (h : Sound q s) :
    SoundOut q (execVconnOc p s) := fin_sound (vconnOc_sound h)

theorem execVconnTotalOc_sound {q : List Instr} {s : State} (h : Sound q s) :
    SoundOut q (execVconnTotalOc s) := fin_sound (vconnTotalOc_sound h)

theorem execCcOvp_sound {q : List Instr} {p : PortId} {mv : Nat} {s : State} (h : Sound q s) :
    SoundOut q (execCcOvp p mv s) := by
  unfold execCcOvp
  repeat' first
      | with_reducible refine fin_sound ?_
      | exact SoundOut.fault
      | with_reducible refine SoundOut.ite ?_ ?_
      | with_reducible assumption
      | with_reducible refine ccOvp_sound ?_
      | intro _
      | split

theorem execCcOvpClear_sound {q : List Instr} {p : PortId} {s : State} (h : Sound q s) :
    SoundOut q (execCcOvpClear p s) := fin_sound (ccOvpClear_sound h)

theorem execSbuOvp_sound {q : List Instr} {p : PortId} {mv : Nat} {s : State} (h : Sound q s) :
    SoundOut q (execSbuOvp p mv s) := by
  unfold execSbuOvp
  repeat' first
      | with_reducible refine fin_sound ?_
      | exact SoundOut.fault
      | with_reducible refine SoundOut.ite ?_ ?_
      | with_reducible assumption
      | with_reducible refine sbuOvp_sound ?_
      | intro _
      | split

theorem execSbuOvpClear_sound {q : List Instr} {p : PortId} {s : State} (h : Sound q s) :
    SoundOut q (execSbuOvpClear p s) := by
  unfold execSbuOvpClear
  refine fin_sound ?_
  repeat' first
    | with_reducible assumption
    | with_reducible refine cadReturn_sound ?_
    | with_reducible refine sbuOvpClear_sound ?_

theorem execMoistTestDue_sound {q : List Instr} {p : PortId} {s : State} (h : Sound q s) :
    SoundOut q (execMoistTestDue p s) := fin_sound (moistDue_sound h)

theorem execMoistTestDone_sound {q : List Instr} {p : PortId} {cc1 : Nat} {cc2 : Nat} {sbu1 : Nat} {sbu2 : Nat} {s : State} (h : Sound q s) :
    SoundOut q (execMoistTestDone p cc1 cc2 sbu1 sbu2 s) := fin_sound (moistDone_sound h)

theorem execMassWetClear_sound {q : List Instr} {s : State} (h : Sound q s) :
    SoundOut q (execMassWetClear s) := fin_sound (massClear_sound h)

theorem execDeepCcPoll_sound {q : List Instr} {p : DPort} {cc1 : CcTerm} {cc2 : CcTerm} {s : State} (h : Sound q s) :
    SoundOut q (execDeepCcPoll p cc1 cc2 s) := fin_sound (deepPoll_sound h)

theorem execPdSourceCapsRx_sound {q : List Instr} {p : PortId} {rev2 : Bool} {epr : Bool} {pdos : List Word} {s : State} (h : Sound q s) :
    SoundOut q (execPdSourceCapsRx p rev2 epr pdos s) := fin_sound (pdSourceCapsRx_sound h)

theorem execPdRequestRx_sound {q : List Instr} {p : PortId} {rev2 : Bool} {rdo : Word} {s : State} (h : Sound q s) :
    SoundOut q (execPdRequestRx p rev2 rdo s) := fin_sound (pdRequestRx_sound h)

theorem execPdEprRequestRx_sound {q : List Instr} {p : PortId} {rdo : Word} {pdo : Word} {s : State} (h : Sound q s) :
    SoundOut q (execPdEprRequestRx p rdo pdo s) := fin_sound (pdEprRequestRx_sound h)

theorem execPdAcceptRx_sound {q : List Instr} {p : PortId} {s : State} (h : Sound q s) :
    SoundOut q (execPdAcceptRx p s) := fin_sound (pdAcceptRx_sound h)

theorem execPdRejectRx_sound {q : List Instr} {p : PortId} {s : State} (h : Sound q s) :
    SoundOut q (execPdRejectRx p s) := fin_sound (pdRejectRx_sound h)

theorem execPdWaitRx_sound {q : List Instr} {p : PortId} {s : State} (h : Sound q s) :
    SoundOut q (execPdWaitRx p s) := fin_sound (pdWaitRx_sound h)

theorem execPdPsRdyRx_sound {q : List Instr} {p : PortId} {s : State} (h : Sound q s) :
    SoundOut q (execPdPsRdyRx p s) := fin_sound (pdPsRdyRx_sound h)

theorem execPdSoftResetRx_sound {q : List Instr} {p : PortId} {s : State} (h : Sound q s) :
    SoundOut q (execPdSoftResetRx p s) := fin_sound (pdSoftResetRx_sound h)

theorem execPdHardResetRx_sound {q : List Instr} {p : PortId} {s : State} (h : Sound q s) :
    SoundOut q (execPdHardResetRx p s) := fin_sound (pdHardResetRx_sound h)

theorem execPdGetSourceCapRx_sound {q : List Instr} {p : PortId} {epr : Bool} {s : State} (h : Sound q s) :
    SoundOut q (execPdGetSourceCapRx p epr s) := fin_sound (pdGetSourceCapRx_sound h)

theorem execPdGetSinkCapRx_sound {q : List Instr} {p : PortId} {epr : Bool} {s : State} (h : Sound q s) :
    SoundOut q (execPdGetSinkCapRx p epr s) := fin_sound (pdGetSinkCapRx_sound h)

theorem execPdSinkCapsRx_sound {q : List Instr} {p : PortId} {pdo1 : Word} {s : State} (h : Sound q s) :
    SoundOut q (execPdSinkCapsRx p pdo1 s) := fin_sound (pdSinkCapsRx_sound h)

theorem execPdPrSwapRx_sound {q : List Instr} {p : PortId} {s : State} (h : Sound q s) :
    SoundOut q (execPdPrSwapRx p s) := fin_sound (pdPrSwapRx_sound h)

theorem execPdVconnSwapRx_sound {q : List Instr} {p : PortId} {s : State} (h : Sound q s) :
    SoundOut q (execPdVconnSwapRx p s) := fin_sound (pdVconnSwapRx_sound h)

theorem execPdDrSwapRx_sound {q : List Instr} {p : PortId} {s : State} (h : Sound q s) :
    SoundOut q (execPdDrSwapRx p s) := fin_sound (pdDrSwapRx_sound h)

theorem execPdFrSwapRx_sound {q : List Instr} {p : PortId} {s : State} (h : Sound q s) :
    SoundOut q (execPdFrSwapRx p s) := fin_sound (pdFrSwapRx_sound h)

theorem execPdEprModeEnterRx_sound {q : List Instr} {p : PortId} {s : State} (h : Sound q s) :
    SoundOut q (execPdEprModeEnterRx p s) := fin_sound (pdEprModeEnterRx_sound h)

theorem execPdEprModeExitRx_sound {q : List Instr} {p : PortId} {s : State} (h : Sound q s) :
    SoundOut q (execPdEprModeExitRx p s) := fin_sound (pdEprModeExitRx_sound h)

theorem execPdEprKeepaliveRx_sound {q : List Instr} {p : PortId} {s : State} (h : Sound q s) :
    SoundOut q (execPdEprKeepaliveRx p s) := fin_sound (pdEprKeepaliveRx_sound h)

theorem execPdAlertRx_sound {q : List Instr} {p : PortId} {ado : Word} {s : State} (h : Sound q s) :
    SoundOut q (execPdAlertRx p ado s) := fin_sound (pdAlertRx_sound h)

theorem execPdGetStatusRx_sound {q : List Instr} {p : PortId} {s : State} (h : Sound q s) :
    SoundOut q (execPdGetStatusRx p s) := fin_sound (pdGetStatusRx_sound h)

theorem execPdGetSourceInfoRx_sound {q : List Instr} {p : PortId} {s : State} (h : Sound q s) :
    SoundOut q (execPdGetSourceInfoRx p s) := fin_sound (pdGetSourceInfoRx_sound h)

theorem execPdGetRevisionRx_sound {q : List Instr} {p : PortId} {s : State} (h : Sound q s) :
    SoundOut q (execPdGetRevisionRx p s) := fin_sound (pdGetRevisionRx_sound h)

theorem execPdGetSrcCapExtRx_sound {q : List Instr} {p : PortId} {s : State} (h : Sound q s) :
    SoundOut q (execPdGetSrcCapExtRx p s) := fin_sound (pdGetSrcCapExtRx_sound h)

theorem execPdGetSnkCapExtRx_sound {q : List Instr} {p : PortId} {s : State} (h : Sound q s) :
    SoundOut q (execPdGetSnkCapExtRx p s) := fin_sound (pdGetSnkCapExtRx_sound h)

theorem execPdBistRx_sound {q : List Instr} {p : PortId} {carrier : Bool} {s : State} (h : Sound q s) :
    SoundOut q (execPdBistRx p carrier s) := fin_sound (pdBistRx_sound h)

theorem execPdUnsupportedRx_sound {q : List Instr} {p : PortId} {s : State} (h : Sound q s) :
    SoundOut q (execPdUnsupportedRx p s) := fin_sound (pdUnsupportedRx_sound h)

theorem execPdUnchunkedExtRx_sound {q : List Instr} {p : PortId} {s : State} (h : Sound q s) :
    SoundOut q (execPdUnchunkedExtRx p s) := fin_sound (pdUnsupportedRx_sound h)

theorem execPdSop2Rx_sound {q : List Instr} {_p : PortId} {s : State} (h : Sound q s) :
    SoundOut q (execPdSop2Rx _p s) := by
  unfold execPdSop2Rx
  refine fin_sound ?_
  repeat' first
    | with_reducible assumption

theorem execPdIgnoredRx_sound {q : List Instr} {p : PortId} {s : State} (h : Sound q s) :
    SoundOut q (execPdIgnoredRx p s) := fin_sound (pdIgnoredRx_sound h)

theorem execPdSvdmRx_sound {q : List Instr} {p : PortId} {header : Word} {s : State} (h : Sound q s) :
    SoundOut q (execPdSvdmRx p header s) := fin_sound (pdSvdmRx_sound h)

theorem execPdResponseRx_sound {q : List Instr} {p : PortId} {r : PdResponse} {s : State} (h : Sound q s) :
    SoundOut q (execPdResponseRx p r s) := fin_sound (pdResponseRx_sound h)

theorem execPdCableIdentityRx_sound {q : List Instr} {p : DPort} {vdos : List Word} {s : State} (h : Sound q s) :
    SoundOut q (execPdCableIdentityRx p vdos s) := fin_sound (pdCableIdentity_sound h)

theorem execPdGoodcrcRx_sound {q : List Instr} {p : PortId} {s : State} (h : Sound q s) :
    SoundOut q (execPdGoodcrcRx p s) := by
  unfold execPdGoodcrcRx
  refine fin_sound ?_
  repeat' first
    | with_reducible assumption
    | with_reducible refine cadSent_sound ?_
    | with_reducible refine pdGoodcrc_sound ?_

theorem execPdNoGoodcrc_sound {q : List Instr} {p : PortId} {s : State} (h : Sound q s) :
    SoundOut q (execPdNoGoodcrc p s) := fin_sound (pdNoGoodcrc_sound h)

theorem execPdSenderResponseTimeout_sound {q : List Instr} {p : PortId} {s : State} (h : Sound q s) :
    SoundOut q (execPdSenderResponseTimeout p s) := fin_sound (pdSenderTimeout_sound h)

theorem execPdCableDiscoverRetry_sound {q : List Instr} {p : PortId} {s : State} (h : Sound q s) :
    SoundOut q (execPdCableDiscoverRetry p s) := fin_sound (pdCableRetry_sound h)

theorem execPdSendSourceCapRepeat_sound {q : List Instr} {p : PortId} {s : State} (h : Sound q s) :
    SoundOut q (execPdSendSourceCapRepeat p s) := fin_sound (pdCapsRepeat_sound h)

theorem execPdSrcTransitionExpire_sound {q : List Instr} {p : PortId} {s : State} (h : Sound q s) :
    SoundOut q (execPdSrcTransitionExpire p s) := fin_sound (pdSrcTransition_sound h)

theorem execPdTransitionSettled_sound {q : List Instr} {p : PortId} {s : State} (h : Sound q s) :
    SoundOut q (execPdTransitionSettled p s) := fin_sound (pdSettledVolt_sound h)

theorem execPdTransitionWindowExpire_sound {q : List Instr} {p : PortId} {s : State} (h : Sound q s) :
    SoundOut q (execPdTransitionWindowExpire p s) := fin_sound (pdWindowExpire_sound h)

theorem execPdPsHardResetExpire_sound {q : List Instr} {p : PortId} {s : State} (h : Sound q s) :
    SoundOut q (execPdPsHardResetExpire p s) := fin_sound (pdPsHardReset_sound h)

theorem execPdSrcRecoverExpire_sound {q : List Instr} {p : PortId} {s : State} (h : Sound q s) :
    SoundOut q (execPdSrcRecoverExpire p s) := fin_sound (pdSrcRecover_sound h)

theorem execPdEprKeepaliveExpire_sound {q : List Instr} {p : PortId} {s : State} (h : Sound q s) :
    SoundOut q (execPdEprKeepaliveExpire p s) := fin_sound (pdKeepaliveLost_sound h)

theorem execPdPuKeepaliveDue_sound {q : List Instr} {s : State} (h : Sound q s) :
    SoundOut q (execPdPuKeepaliveDue s) := fin_sound (puKeepalive_sound h)

theorem execPdSinkTxExpire_sound {q : List Instr} {p : PortId} {s : State} (h : Sound q s) :
    SoundOut q (execPdSinkTxExpire p s) := by
  unfold execPdSinkTxExpire
  refine fin_sound ?_
  repeat' first
    | with_reducible assumption
    | with_reducible refine pdSinkTx_sound ?_
    | intro _
    | split

theorem execPdSinkRequestExpire_sound {q : List Instr} {s : State} (h : Sound q s) :
    SoundOut q (execPdSinkRequestExpire s) := fin_sound (pdSinkRequestExpire_sound h)

theorem execPdPsSourceTimeout_sound {q : List Instr} {p : PortId} {s : State} (h : Sound q s) :
    SoundOut q (execPdPsSourceTimeout p s) := fin_sound (pdPsSourceTimeout_sound h)

theorem execPdFrsNomsg_sound {q : List Instr} {p : PortId} {s : State} (h : Sound q s) :
    SoundOut q (execPdFrsNomsg p s) := fin_sound (pdFrsNomsg_sound h)

theorem execPdHrstWithheld_sound {q : List Instr} {s : State} (h : Sound q s) :
    SoundOut q (execPdHrstWithheld s) := fin_sound (pdHrstWithheld_sound h)

theorem execPdEprExitTimeout_sound {q : List Instr} {p : PortId} {s : State} (h : Sound q s) :
    SoundOut q (execPdEprExitTimeout p s) := fin_sound (pdEprExitTimeout_sound h)

theorem execVbusThresholdCross_sound {q : List Instr} {p : PortId} {l : VbusLevel} {s : State} (h : Sound q s) :
    SoundOut q (execVbusThresholdCross p l s) := fin_sound (vbusCross_sound h)

theorem execPdCmdSoftReset_sound {q : List Instr} {path : Path} {p : PortId} {v : Word} {s : State} (h : Sound q s) :
    SoundOut q (execPdCmdSoftReset path p v s) := fin_sound (writeAt_sound h)

theorem execPdCmdHardReset_sound {q : List Instr} {path : Path} {p : PortId} {v : Word} {s : State} (h : Sound q s) :
    SoundOut q (execPdCmdHardReset path p v s) := fin_sound (writeAt_sound h)

theorem execPdCmdPrSwap_sound {q : List Instr} {path : Path} {p : PortId} {v : Word} {s : State} (h : Sound q s) :
    SoundOut q (execPdCmdPrSwap path p v s) := fin_sound (writeAt_sound h)

theorem execPdCmdVconnSwap_sound {q : List Instr} {path : Path} {p : PortId} {v : Word} {s : State} (h : Sound q s) :
    SoundOut q (execPdCmdVconnSwap path p v s) := fin_sound (writeAt_sound h)

theorem execPdCmdSendCaps_sound {q : List Instr} {path : Path} {p : PortId} {v : Word} {s : State} (h : Sound q s) :
    SoundOut q (execPdCmdSendCaps path p v s) := fin_sound (writeAt_sound h)

theorem execPdCmdGetSinkCap_sound {q : List Instr} {path : Path} {p : PortId} {v : Word} {s : State} (h : Sound q s) :
    SoundOut q (execPdCmdGetSinkCap path p v s) := fin_sound (writeAt_sound h)

theorem execPdCmdEprExit_sound {q : List Instr} {path : Path} {p : PortId} {v : Word} {s : State} (h : Sound q s) :
    SoundOut q (execPdCmdEprExit path p v s) := fin_sound (writeAt_sound h)

theorem execBmRecompute_sound {q : List Instr} {vinAvg : Nat} {s : State} (h : Sound q s) :
    SoundOut q (execBmRecompute vinAvg s) := fin_sound (bmTick_sound h)

theorem execRenegTimeout_sound {q : List Instr} {p : PortId} {s : State} (h : Sound q s) :
    SoundOut q (execRenegTimeout p s) := fin_sound (bmRenegTimeout_sound h)

theorem execBmRaiseDelayExpire_sound {q : List Instr} {s : State} (h : Sound q s) :
    SoundOut q (execBmRaiseDelayExpire s) := fin_sound (bmRaise_sound h)

theorem execPmbTransactionDone_sound {q : List Instr} {ack : PmbAck} {data : BitVec 16} {s : State} (h : Sound q s) :
    SoundOut q (execPmbTransactionDone ack data s) := fin_sound (pmbEnd_sound h)

theorem execPmbRetryDue_sound {q : List Instr} {s : State} (h : Sound q s) :
    SoundOut q (execPmbRetryDue s) := fin_sound (pmbDue_sound h)

theorem execPmbVoutRetryDue_sound {q : List Instr} {s : State} (h : Sound q s) :
    SoundOut q (execPmbVoutRetryDue s) := fin_sound (pmbDue_sound h)

theorem execPmbTonMaxExpire_sound {q : List Instr} {s : State} (h : Sound q s) :
    SoundOut q (execPmbTonMaxExpire s) := fin_sound (pmbExpire_sound h)

theorem execPmbOffConfirmTimeout_sound {q : List Instr} {s : State} (h : Sound q s) :
    SoundOut q (execPmbOffConfirmTimeout s) := fin_sound (pmbExpire_sound h)

theorem execPmbStretchTimeout_sound {q : List Instr} {s : State} (h : Sound q s) :
    SoundOut q (execPmbStretchTimeout s) := fin_sound (pmbEnd_sound h)

theorem execPmbVerifyWrite_sound {q : List Instr} {path : Path} {v : Word} {s : State} (h : Sound q s) :
    SoundOut q (execPmbVerifyWrite path v s) := fin_sound (writeAt_sound h)

theorem execPmbAlert_sound {q : List Instr} {addr : BitVec 7} {pecOk : Bool} {ack : PmbAck} {status : BitVec 16} {s : State} (h : Sound q s) :
    SoundOut q (execPmbAlert addr pecOk ack status s) := fin_sound (pmbAlert_sound h)

theorem execPmbAlertRepeat_sound {q : List Instr} {stillLow : Bool} {s : State} (h : Sound q s) :
    SoundOut q (execPmbAlertRepeat stillLow s) := fin_sound (pmbAlertAgain_sound h)

theorem execPmbAlertStormExpire_sound {q : List Instr} {addr : BitVec 7} {s : State} (h : Sound q s) :
    SoundOut q (execPmbAlertStormExpire addr s) := fin_sound (pmbStormEnd_sound h)

theorem execPmbBusStuck_sound {q : List Instr} {s : State} (h : Sound q s) :
    SoundOut q (execPmbBusStuck s) := fin_sound (pmbBusHeld_sound h)

theorem execPmbBusRecoveryDue_sound {q : List Instr} {s : State} (h : Sound q s) :
    SoundOut q (execPmbBusRecoveryDue s) := by
  unfold execPmbBusRecoveryDue
  refine fin_sound ?_
  repeat' first
    | with_reducible assumption

theorem execPmbStuckClear_sound {q : List Instr} {s : State} (h : Sound q s) :
    SoundOut q (execPmbStuckClear s) := fin_sound (pmbBusFree_sound h)

theorem execPmbSwGo_sound {q : List Instr} {path : Path} {v : Word} {s : State} (h : Sound q s) :
    SoundOut q (execPmbSwGo path v s) := fin_sound (writeAt_sound h)

theorem execUsbGetDescriptor_sound {q : List Instr} {dtype : Byte} {index : Byte} {len : Nat} {s : State} (h : Sound q s) :
    SoundOut q (execUsbGetDescriptor dtype index len s) := fin_sound (getDescriptor_sound h)

theorem execUsbSetAddress_sound {q : List Instr} {addr : BitVec 7} {s : State} (h : Sound q s) :
    SoundOut q (execUsbSetAddress addr s) := fin_sound (setAddress_sound h)

theorem execUsbSetConfiguration_sound {q : List Instr} {cfg : Byte} {s : State} (h : Sound q s) :
    SoundOut q (execUsbSetConfiguration cfg s) := fin_sound (setConfiguration_sound h)

theorem execUsbSetInterface_sound {q : List Instr} {alt : Byte} {s : State} (h : Sound q s) :
    SoundOut q (execUsbSetInterface alt s) := fin_sound (setInterface_sound h)

theorem execUsbGetStatus_sound {q : List Instr} {s : State} (h : Sound q s) :
    SoundOut q (execUsbGetStatus s) := fin_sound (getStatus_sound h)

theorem execUsbDeviceFeature_sound {q : List Instr} {set : Bool} {s : State} (h : Sound q s) :
    SoundOut q (execUsbDeviceFeature set s) := fin_sound (deviceFeature_sound h)

theorem execHubGetHubStatus_sound {q : List Instr} {s : State} (h : Sound q s) :
    SoundOut q (execHubGetHubStatus s) := fin_sound (getHubStatus_sound h)

theorem execHubGetPortStatus_sound {q : List Instr} {port : Nat} {s : State} (h : Sound q s) :
    SoundOut q (execHubGetPortStatus port s) := fin_sound (getPortStatus_sound h)

theorem execHubHubFeature_sound {q : List Instr} {set : Bool} {feature : Nat} {s : State} (h : Sound q s) :
    SoundOut q (execHubHubFeature set feature s) := fin_sound (hubFeature_sound h)

theorem execHubClassStall_sound {q : List Instr} {_request : Byte} {s : State} (h : Sound q s) :
    SoundOut q (execHubClassStall _request s) := fin_sound (classStall_sound h)

theorem execPortResetRequest_sound {q : List Instr} {port : Nat} {s : State} (h : Sound q s) :
    SoundOut q (execPortResetRequest port s) := fin_sound (portReset_sound h)

theorem execPortResetDone_sound {q : List Instr} {port : Nat} {speed : UsbSpeed} {s : State} (h : Sound q s) :
    SoundOut q (execPortResetDone port speed s) := fin_sound (portResetDone_sound h)

theorem execPortSuspendRequest_sound {q : List Instr} {port : Nat} {s : State} (h : Sound q s) :
    SoundOut q (execPortSuspendRequest port s) := fin_sound (portSuspend_sound h)

theorem execPortResumeRequest_sound {q : List Instr} {port : Nat} {s : State} (h : Sound q s) :
    SoundOut q (execPortResumeRequest port s) := fin_sound (portResume_sound h)

theorem execPortResumeDone_sound {q : List Instr} {port : Nat} {s : State} (h : Sound q s) :
    SoundOut q (execPortResumeDone port s) := fin_sound (portResumeDone_sound h)

theorem execPortPowerFeature_sound {q : List Instr} {set : Bool} {port : Nat} {s : State} (h : Sound q s) :
    SoundOut q (execPortPowerFeature set port s) := fin_sound (portPowerFeature_sound h)

theorem execPortEnableClear_sound {q : List Instr} {port : Nat} {s : State} (h : Sound q s) :
    SoundOut q (execPortEnableClear port s) := fin_sound (portEnableClear_sound h)

theorem execPortTestRequest_sound {q : List Instr} {port : Nat} {selector : Byte} {s : State} (h : Sound q s) :
    SoundOut q (execPortTestRequest port selector s) := fin_sound (portTest_sound h)

theorem execPortFeatureStall_sound {q : List Instr} {_port : Nat} {_feature : Nat} {s : State} (h : Sound q s) :
    SoundOut q (execPortFeatureStall _port _feature s) := fin_sound (classStall_sound h)

theorem execPortChangeClear_sound {q : List Instr} {port : Nat} {feature : Nat} {s : State} (h : Sound q s) :
    SoundOut q (execPortChangeClear port feature s) := fin_sound (portChangeClear_sound h)

theorem execPortL1Request_sound {q : List Instr} {port : Nat} {besl : BitVec 4} {rwe : Bool} {dev : BitVec 7} {ans : LpmAnswer} {s : State} (h : Sound q s) :
    SoundOut q (execPortL1Request port besl rwe dev ans s) := fin_sound (portL1_sound h)

theorem execPortL1Clear_sound {q : List Instr} {port : Nat} {s : State} (h : Sound q s) :
    SoundOut q (execPortL1Clear port s) := fin_sound (portL1Clear_sound h)

theorem execPortConnectDetect_sound {q : List Instr} {p : DPort} {speed : UsbSpeed} {s : State} (h : Sound q s) :
    SoundOut q (execPortConnectDetect p speed s) := by
  unfold execPortConnectDetect
  refine fin_sound ?_
  repeat' first
    | with_reducible assumption
    | with_reducible refine portConnect_sound ?_
    | intro _
    | split

theorem execPortDisconnectDetect_sound {q : List Instr} {p : DPort} {s : State} (h : Sound q s) :
    SoundOut q (execPortDisconnectDetect p s) := fin_sound (portDisconnect_sound h)

theorem execPortBabble_sound {q : List Instr} {p : DPort} {s : State} (h : Sound q s) :
    SoundOut q (execPortBabble p s) := fin_sound (portBabble_sound h)

theorem execRemoteWakeK_sound {q : List Instr} {p : DPort} {s : State} (h : Sound q s) :
    SoundOut q (execRemoteWakeK p s) := fin_sound (remoteK_sound h)

theorem execRemoteWakeEvent_sound {q : List Instr} {s : State} (h : Sound q s) :
    SoundOut q (execRemoteWakeEvent s) := fin_sound (remoteEvent_sound h)

theorem execPortL1DeviceExit_sound {q : List Instr} {p : DPort} {s : State} (h : Sound q s) :
    SoundOut q (execPortL1DeviceExit p s) := fin_sound (portL1DeviceExit_sound h)

theorem execUpstreamConnect_sound {q : List Instr} {s : State} (h : Sound q s) :
    SoundOut q (execUpstreamConnect s) := fin_sound (hubConnect_sound h)

theorem execHubConnectWrite_sound {q : List Instr} {path : Path} {v : Word} {s : State} (h : Sound q s) :
    SoundOut q (execHubConnectWrite path v s) := fin_sound (writeAt_sound h)

theorem execHubConnectDisconnect_sound {q : List Instr} {path : Path} {v : Word} {s : State} (h : Sound q s) :
    SoundOut q (execHubConnectDisconnect path v s) := fin_sound (writeAt_sound h)

theorem execConnectReevaluate_sound {q : List Instr} {s : State} (h : Sound q s) :
    SoundOut q (execConnectReevaluate s) := fin_sound (hubConnect_sound h)

theorem execUpstreamBusReset_sound {q : List Instr} {hs : Bool} {s : State} (h : Sound q s) :
    SoundOut q (execUpstreamBusReset hs s) := fin_sound (busReset_sound h)

theorem execUpstreamDetach_sound {q : List Instr} {s : State} (h : Sound q s) :
    SoundOut q (execUpstreamDetach s) := by
  unfold execUpstreamDetach
  refine fin_sound ?_
  repeat' first
    | with_reducible assumption
    | with_reducible refine hubDetach_sound ?_
    | intro _
    | split

theorem execGlobalSuspend_sound {q : List Instr} {s : State} (h : Sound q s) :
    SoundOut q (execGlobalSuspend s) := fin_sound (globalSuspend_sound h)

theorem execHostResume_sound {q : List Instr} {s : State} (h : Sound q s) :
    SoundOut q (execHostResume s) := fin_sound (hostResume_sound h)

theorem execLpmToken_sound {q : List Instr} {linkState : BitVec 4} {rwe : Bool} {s : State} (h : Sound q s) :
    SoundOut q (execLpmToken linkState rwe s) := fin_sound (lpmToken_sound h)

theorem execL1Resume_sound {q : List Instr} {s : State} (h : Sound q s) :
    SoundOut q (execL1Resume s) := fin_sound (l1Resume_sound h)

theorem execL1RemoteWake_sound {q : List Instr} {s : State} (h : Sound q s) :
    SoundOut q (execL1RemoteWake s) := fin_sound (l1Remote_sound h)

theorem execSofReceived_sound {q : List Instr} {frame : BitVec 11} {s : State} (h : Sound q s) :
    SoundOut q (execSofReceived frame s) := fin_sound (sofRx_sound h)

theorem execSofMissed_sound {q : List Instr} {s : State} (h : Sound q s) :
    SoundOut q (execSofMissed s) := fin_sound (sofMissed_sound h)

theorem execTtStartSplit_sound {q : List Instr} {p : DPort} {ty : NpType} {dirIn : Bool} {addr : BitVec 7} {ep : BitVec 4} {data : List Byte} {crcOk : Bool} {s : State} (h : Sound q s) :
    SoundOut q (execTtStartSplit p ty dirIn addr ep data crcOk s) := by
  unfold execTtStartSplit
  refine fin_sound ?_
  repeat' first
    | with_reducible assumption
    | with_reducible refine usbReq_sound ?_ ?_
    | with_reducible refine ttStart_sound ?_
    | intro _

theorem execTtCompleteSplit_sound {q : List Instr} {p : DPort} {_ty : NpType} {dirIn : Bool} {addr : BitVec 7} {ep : BitVec 4} {s : State} (h : Sound q s) :
    SoundOut q (execTtCompleteSplit p _ty dirIn addr ep s) := by
  unfold execTtCompleteSplit
  refine fin_sound ?_
  repeat' first
    | with_reducible assumption
    | with_reducible refine usbReq_sound ?_ ?_
    | with_reducible refine ttComplete_sound ?_
    | intro _

theorem execTtPeriodicStartSplit_sound {q : List Instr} {p : DPort} {iso : Bool} {dirIn : Bool} {addr : BitVec 7} {ep : BitVec 4} {data : List Byte} {s : State} (h : Sound q s) :
    SoundOut q (execTtPeriodicStartSplit p iso dirIn addr ep data s) := by
  unfold execTtPeriodicStartSplit
  refine fin_sound ?_
  repeat' first
    | with_reducible assumption
    | with_reducible refine usbReq_sound ?_ ?_
    | with_reducible refine ttPerStart_sound ?_
    | intro _

theorem execTtPeriodicCompleteSplit_sound {q : List Instr} {p : DPort} {dirIn : Bool} {addr : BitVec 7} {ep : BitVec 4} {last : Bool} {s : State} (h : Sound q s) :
    SoundOut q (execTtPeriodicCompleteSplit p dirIn addr ep last s) := by
  unfold execTtPeriodicCompleteSplit
  refine fin_sound ?_
  repeat' first
    | with_reducible assumption
    | with_reducible refine usbReq_sound ?_ ?_
    | with_reducible refine ttPerComplete_sound ?_
    | intro _

theorem execTtFrameStart_sound {q : List Instr} {p : DPort} {s : State} (h : Sound q s) :
    SoundOut q (execTtFrameStart p s) := fin_sound (ttFrame_sound h)

theorem execTtTransactionEnd_sound {q : List Instr} {p : DPort} {r : XactResult} {data1 : Bool} {data : List Byte} {s : State} (h : Sound q s) :
    SoundOut q (execTtTransactionEnd p r data1 data s) := fin_sound (ttEnd_sound h)

theorem execTtRecordExpire_sound {q : List Instr} {p : DPort} {k : Fin 16} {s : State} (h : Sound q s) :
    SoundOut q (execTtRecordExpire p k s) := fin_sound (ttExpire_sound h)

theorem execTtStale_sound {q : List Instr} {p : DPort} {k : Fin 4} {s : State} (h : Sound q s) :
    SoundOut q (execTtStale p k s) := fin_sound (ttStale_sound h)

theorem execTtClearTtBuffer_sound {q : List Instr} {ttPort : Nat} {wValue : BitVec 16} {s : State} (h : Sound q s) :
    SoundOut q (execTtClearTtBuffer ttPort wValue s) := fin_sound (ttClearBuffer_sound h)

theorem execTtResetTt_sound {q : List Instr} {ttPort : Nat} {s : State} (h : Sound q s) :
    SoundOut q (execTtResetTt ttPort s) := fin_sound (ttResetReq_sound h)

theorem execTtStopTt_sound {q : List Instr} {ttPort : Nat} {s : State} (h : Sound q s) :
    SoundOut q (execTtStopTt ttPort s) := fin_sound (ttStopReq_sound h)

theorem execTtGetTtState_sound {q : List Instr} {ttPort : Nat} {len : Nat} {s : State} (h : Sound q s) :
    SoundOut q (execTtGetTtState ttPort len s) := fin_sound (ttGetState_sound h)

theorem execHpTtCmdReset_sound {q : List Instr} {path : Path} {p : DPort} {v : Word} {s : State} (h : Sound q s) :
    SoundOut q (execHpTtCmdReset path p v s) := fin_sound (writeAt_sound h)

theorem execHpTtCmdClearNp_sound {q : List Instr} {path : Path} {p : DPort} {v : Word} {s : State} (h : Sound q s) :
    SoundOut q (execHpTtCmdClearNp path p v s) := fin_sound (writeAt_sound h)

theorem execEfnVendorRead_sound {q : List Instr} {wValue : BitVec 16} {wIndex : BitVec 16} {len : Nat} {s : State} (h : Sound q s) :
    SoundOut q (execEfnVendorRead wValue wIndex len s) := fin_sound (vendorReq_sound h)

theorem execEfnVendorWrite_sound {q : List Instr} {wValue : BitVec 16} {wIndex : BitVec 16} {len : Nat} {data : List Byte} {s : State} (h : Sound q s) :
    SoundOut q (execEfnVendorWrite wValue wIndex len data s) := fin_sound (vendorReq_sound h)

theorem execEfnVendorEvqRead_sound {q : List Instr} {wValue : BitVec 16} {wIndex : BitVec 16} {len : Nat} {s : State} (h : Sound q s) :
    SoundOut q (execEfnVendorEvqRead wValue wIndex len s) := fin_sound (vendorReq_sound h)

theorem execEfnVendorKeyedWrite_sound {q : List Instr} {wValue : BitVec 16} {wIndex : BitVec 16} {len : Nat} {data : List Byte} {s : State} (h : Sound q s) :
    SoundOut q (execEfnVendorKeyedWrite wValue wIndex len data s) := fin_sound (vendorReq_sound h)

theorem execEfnAccessHoldTimeout_sound {q : List Instr} {s : State} (h : Sound q s) :
    SoundOut q (execEfnAccessHoldTimeout s) := fin_sound (holdTimeout_sound h)

theorem execEfnStandardRequest_sound {q : List Instr} {bmRequestType : Byte} {bRequest : Byte} {wValue : BitVec 16} {wIndex : BitVec 16} {len : Nat} {s : State} (h : Sound q s) :
    SoundOut q (execEfnStandardRequest bmRequestType bRequest wValue wIndex len s) := fin_sound (efnStandard_sound h)

theorem execEfnSetHalt_sound {q : List Instr} {e : Fin 7} {s : State} (h : Sound q s) :
    SoundOut q (execEfnSetHalt e s) := by
  unfold execEfnSetHalt
  refine fin_sound ?_
  repeat' first
    | with_reducible assumption
    | with_reducible refine setHalt_sound ?_
    | with_reducible refine setup_sound ?_
    | intro _
    | split

theorem execEfnClearHalt_sound {q : List Instr} {e : Fin 7} {s : State} (h : Sound q s) :
    SoundOut q (execEfnClearHalt e s) := by
  unfold execEfnClearHalt
  refine fin_sound ?_
  repeat' first
    | with_reducible assumption
    | with_reducible refine clearHalt_sound ?_
    | with_reducible refine setup_sound ?_
    | intro _
    | split

theorem execEfnBulkOut_sound {q : List Instr} {e : Fin 7} {data : List Byte} {s : State} (h : Sound q s) :
    SoundOut q (execEfnBulkOut e data s) := fin_sound (bulkOut_sound h)

theorem execEfnPing_sound {q : List Instr} {e : Fin 7} {s : State} (h : Sound q s) :
    SoundOut q (execEfnPing e s) := fin_sound (bulkPing_sound h)

theorem execEfnBulkIn_sound {q : List Instr} {e : Fin 7} {s : State} (h : Sound q s) :
    SoundOut q (execEfnBulkIn e s) := fin_sound (bulkIn_sound h)

theorem execEfnBulkInAck_sound {q : List Instr} {e : Fin 7} {s : State} (h : Sound q s) :
    SoundOut q (execEfnBulkInAck e s) := fin_sound (bulkInAck_sound h)

theorem execEfnPortReset_sound {q : List Instr} {lost : Bool} {s : State} (h : Sound q s) :
    SoundOut q (execEfnPortReset lost s) := fin_sound (efnPortReset_sound h)

theorem execBatchReceived_sound {q : List Instr} {s : State} (h : Sound q s) :
    SoundOut q (execBatchReceived s) := fin_sound (batchReceived_sound h)

theorem execBatchAbort_sound {q : List Instr} {s : State} (h : Sound q s) :
    SoundOut q (execBatchAbort s) := by
  unfold execBatchAbort
  refine fin_sound ?_
  repeat' first
    | with_reducible assumption
    | with_reducible refine efnResume_sound ?_
    | with_reducible refine batchAbort_sound ?_

theorem execBatchRead_sound {q : List Instr} {s : State} (h : Sound q s) :
    SoundOut q (execBatchRead s) := fin_sound (batchRead_sound h)

theorem execBatchWrite_sound {q : List Instr} {s : State} (h : Sound q s) :
    SoundOut q (execBatchWrite s) := fin_sound (batchWrite_sound h)

theorem execBatchWriteN_sound {q : List Instr} {s : State} (h : Sound q s) :
    SoundOut q (execBatchWriteN s) := fin_sound (batchWriteN_sound h)

theorem execBatchRmw_sound {q : List Instr} {s : State} (h : Sound q s) :
    SoundOut q (execBatchRmw s) := fin_sound (batchRmw_sound h)

theorem execBatchPoll_sound {q : List Instr} {timedOut : Bool} {s : State} (h : Sound q s) :
    SoundOut q (execBatchPoll timedOut s) := fin_sound (batchPoll_sound h)

theorem execBatchKeyedWrite_sound {q : List Instr} {s : State} (h : Sound q s) :
    SoundOut q (execBatchKeyedWrite s) := fin_sound (batchKeyed_sound h)

theorem execBatchDelay_sound {q : List Instr} {s : State} (h : Sound q s) :
    SoundOut q (execBatchDelay s) := fin_sound (batchDelay_sound h)

theorem execBatchEvqPop_sound {q : List Instr} {timedOut : Bool} {s : State} (h : Sound q s) :
    SoundOut q (execBatchEvqPop timedOut s) := fin_sound (batchPop_sound h)

theorem execBatchDone_sound {q : List Instr} {s : State} (h : Sound q s) :
    SoundOut q (execBatchDone s) := fin_sound (batchDone_sound h)

theorem execEvqPushMessage_sound {q : List Instr} {s : State} (h : Sound q s) :
    SoundOut q (execEvqPushMessage s) := fin_sound (evqPush_sound h)

theorem execEfnCarveApply_sound {q : List Instr} {path : Path} {v : Word} {s : State} (h : Sound q s) :
    SoundOut q (execEfnCarveApply path v s) := fin_sound (writeAt_sound h)

theorem execStoreWindowRead_sound {q : List Instr} {path : Path} {addr : BitVec 19} {s : State} (h : Sound q s) :
    SoundOut q (execStoreWindowRead path addr s) := fin_sound (readAt_sound h)

theorem execStoreWindowWrite_sound {q : List Instr} {path : Path} {addr : BitVec 19} {v : Word} {s : State} (h : Sound q s) :
    SoundOut q (execStoreWindowWrite path addr v s) := fin_sound (writeAt_sound h)

theorem execScrubSlot_sound {q : List Instr} {s : State} (h : Sound q s) :
    SoundOut q (execScrubSlot s) := by
  unfold execScrubSlot
  refine fin_sound ?_
  repeat' first
    | with_reducible assumption
    | with_reducible refine scrubSlot_sound ?_
    | intro _
    | split

theorem execStoCmdClrLog_sound {q : List Instr} {path : Path} {v : Word} {s : State} (h : Sound q s) :
    SoundOut q (execStoCmdClrLog path v s) := fin_sound (writeAt_sound h)

theorem execStoCmdClrCnt_sound {q : List Instr} {path : Path} {v : Word} {s : State} (h : Sound q s) :
    SoundOut q (execStoCmdClrCnt path v s) := fin_sound (writeAt_sound h)

theorem execStoEcclogClear_sound {q : List Instr} {path : Path} {k : Fin 16} {v : Word} {s : State} (h : Sound q s) :
    SoundOut q (execStoEcclogClear path k v s) := fin_sound (writeAt_sound h)

theorem execStoFlipArm_sound {q : List Instr} {path : Path} {v : Word} {s : State} (h : Sound q s) :
    SoundOut q (execStoFlipArm path v s) := fin_sound (writeAt_sound h)

theorem execStoRetireWrite_sound {q : List Instr} {path : Path} {k : Fin 16} {v : Word} {s : State} (h : Sound q s) :
    SoundOut q (execStoRetireWrite path k v s) := fin_sound (writeAt_sound h)

theorem execEvqPop_sound {q : List Instr} {path : Path} {s : State} (h : Sound q s) :
    SoundOut q (execEvqPop path s) := fin_sound (readAt_sound h)

theorem execEvqPopBlockTimeout_sound {q : List Instr} {path : Path} {s : State} (h : Sound q s) :
    SoundOut q (execEvqPopBlockTimeout path s) := fin_sound (popTimeout_sound h)

theorem execEvqCmdFlush_sound {q : List Instr} {path : Path} {v : Word} {s : State} (h : Sound q s) :
    SoundOut q (execEvqCmdFlush path v s) := fin_sound (writeAt_sound h)

theorem execHoldoverExpire_sound {q : List Instr} {s : State} (h : Sound q s) :
    SoundOut q (execHoldoverExpire s) := fin_sound (holdoverExpire_sound h)

theorem execTpulseFire_sound {q : List Instr} {s : State} (h : Sound q s) :
    SoundOut q (execTpulseFire s) := fin_sound (tpFire_sound h)

theorem execTpulseEnd_sound {q : List Instr} {s : State} (h : Sound q s) :
    SoundOut q (execTpulseEnd s) := fin_sound (tpEnd_sound h)

theorem execTpulseInputEdge_sound {q : List Instr} {rising : Bool} {s : State} (h : Sound q s) :
    SoundOut q (execTpulseInputEdge rising s) := fin_sound (tpEdge_sound h)

theorem execTimSwCap_sound {q : List Instr} {path : Path} {v : Word} {s : State} (h : Sound q s) :
    SoundOut q (execTimSwCap path v s) := fin_sound (writeAt_sound h)

theorem execTimCapStatRead_sound {q : List Instr} {path : Path} {u : Fin 3} {s : State} (h : Sound q s) :
    SoundOut q (execTimCapStatRead path u s) := fin_sound (readAt_sound h)

theorem execTimTb0NsRead_sound {q : List Instr} {path : Path} {s : State} (h : Sound q s) :
    SoundOut q (execTimTb0NsRead path s) := fin_sound (readAt_sound h)

theorem execTimTb3LoRead_sound {q : List Instr} {path : Path} {s : State} (h : Sound q s) :
    SoundOut q (execTimTb3LoRead path s) := fin_sound (readAt_sound h)

theorem execTb3Alarm_sound {q : List Instr} {s : State} (h : Sound q s) :
    SoundOut q (execTb3Alarm s) := by
  unfold execTb3Alarm
  refine fin_sound ?_
  repeat' first
    | with_reducible assumption
    | with_reducible refine wakeSourceAt_sound ?_
    | with_reducible refine tb3Alarm_sound ?_
    | intro _
    | split

theorem execTbReadvance_sound {q : List Instr} {s : State} (h : Sound q s) :
    SoundOut q (execTbReadvance s) := fin_sound (tbReadvance_sound h)

theorem execCadDiscoveryStart_sound {q : List Instr} {p : DPort} {s : State} (h : Sound q s) :
    SoundOut q (execCadDiscoveryStart p s) := fin_sound (cadDiscover_sound h)

theorem execCadVdmResponse_sound {q : List Instr} {p : DPort} {ans : VdmAnswer} {s : State} (h : Sound q s) :
    SoundOut q (execCadVdmResponse p ans s) := fin_sound (cadResponse_sound h)

theorem execCadVdmTimeout_sound {q : List Instr} {p : DPort} {s : State} (h : Sound q s) :
    SoundOut q (execCadVdmTimeout p s) := fin_sound (cadNoResponse_sound h)

theorem execCadVdmBusyRetry_sound {q : List Instr} {p : DPort} {s : State} (h : Sound q s) :
    SoundOut q (execCadVdmBusyRetry p s) := fin_sound (cadBusyRetry_sound h)

theorem execCadDiscoverIdentityRx_sound {q : List Instr} {s : State} (h : Sound q s) :
    SoundOut q (execCadDiscoverIdentityRx s) := fin_sound (cadIdentity_sound h)

theorem execCadDiscoverSvidsRx_sound {q : List Instr} {s : State} (h : Sound q s) :
    SoundOut q (execCadDiscoverSvidsRx s) := fin_sound (cadSvids_sound h)

theorem execCadDiscoverModesRx_sound {q : List Instr} {s : State} (h : Sound q s) :
    SoundOut q (execCadDiscoverModesRx s) := fin_sound (cadModes_sound h)

theorem execCadEnterModeRx_sound {q : List Instr} {vdo : Word} {s : State} (h : Sound q s) :
    SoundOut q (execCadEnterModeRx vdo s) := fin_sound (cadEnterRx_sound h)

theorem execCadExitModeRx_sound {q : List Instr} {p : PortId} {s : State} (h : Sound q s) :
    SoundOut q (execCadExitModeRx p s) := fin_sound (cadExitRx_sound h)

theorem execCadAttentionRx_sound {q : List Instr} {p : DPort} {vdo : Word} {s : State} (h : Sound q s) :
    SoundOut q (execCadAttentionRx p vdo s) := fin_sound (cadAttentionRx_sound h)

theorem execCadAttentionRepeat_sound {q : List Instr} {s : State} (h : Sound q s) :
    SoundOut q (execCadAttentionRepeat s) := fin_sound (cadAttentionAgain_sound h)

theorem execCadExitModeTimeout_sound {q : List Instr} {p : DPort} {s : State} (h : Sound q s) :
    SoundOut q (execCadExitModeTimeout p s) := fin_sound (cadExitTimeout_sound h)

theorem execClCmdEnter_sound {q : List Instr} {path : Path} {p : PortId} {v : Word} {s : State} (h : Sound q s) :
    SoundOut q (execClCmdEnter path p v s) := fin_sound (writeAt_sound h)

theorem execClCmdRetrain_sound {q : List Instr} {path : Path} {p : PortId} {v : Word} {s : State} (h : Sound q s) :
    SoundOut q (execClCmdRetrain path p v s) := fin_sound (writeAt_sound h)

theorem execCadReceiverLock_sound {q : List Instr} {p : PortId} {s : State} (h : Sound q s) :
    SoundOut q (execCadReceiverLock p s) := fin_sound (cadLock_sound h)

theorem execCadTrainAttemptFail_sound {q : List Instr} {p : PortId} {s : State} (h : Sound q s) :
    SoundOut q (execCadTrainAttemptFail p s) := fin_sound (cadAttemptFail_sound h)

theorem execCadUpFrameRx_sound {q : List Instr} {s : State} (h : Sound q s) :
    SoundOut q (execCadUpFrameRx s) := fin_sound (puLinkUp_sound h)

theorem execCadLossOfLock_sound {q : List Instr} {p : PortId} {s : State} (h : Sound q s) :
    SoundOut q (execCadLossOfLock p s) := fin_sound (cadLostLock_sound h)

theorem execCadRetrainSetRx_sound {q : List Instr} {ver : Fin 2} {s : State} (h : Sound q s) :
    SoundOut q (execCadRetrainSetRx ver s) := fin_sound (cadRetrainRx_sound h)

theorem execCadRetrainTimeout_sound {q : List Instr} {p : PortId} {s : State} (h : Sound q s) :
    SoundOut q (execCadRetrainTimeout p s) := fin_sound (cadRetrainFail_sound h)

theorem execCadFrameRx_sound {q : List Instr} {p : PortId} {codeOk : Bool} {bytes : List Byte} {s : State} (h : Sound q s) :
    SoundOut q (execCadFrameRx p codeOk bytes s) := fin_sound (cadRx_sound h)

theorem execCadSyncRx_sound {q : List Instr} {p : PortId} {bytes : List Byte} {s : State} (h : Sound q s) :
    SoundOut q (execCadSyncRx p bytes s) := fin_sound (cadRxOf_sound h)

theorem execCadDelayReqRx_sound {q : List Instr} {p : PortId} {bytes : List Byte} {s : State} (h : Sound q s) :
    SoundOut q (execCadDelayReqRx p bytes s) := fin_sound (cadRxOf_sound h)

theorem execCadDelayRespRx_sound {q : List Instr} {p : PortId} {bytes : List Byte} {s : State} (h : Sound q s) :
    SoundOut q (execCadDelayRespRx p bytes s) := fin_sound (cadRxOf_sound h)

theorem execCadBellRx_sound {q : List Instr} {p : PortId} {bytes : List Byte} {s : State} (h : Sound q s) :
    SoundOut q (execCadBellRx p bytes s) := fin_sound (cadRxOf_sound h)

theorem execCadEchoRx_sound {q : List Instr} {p : PortId} {bytes : List Byte} {s : State} (h : Sound q s) :
    SoundOut q (execCadEchoRx p bytes s) := fin_sound (cadRxOf_sound h)

theorem execCadFrameTxDone_sound {q : List Instr} {p : PortId} {s : State} (h : Sound q s) :
    SoundOut q (execCadFrameTxDone p s) := fin_sound (cadTxDone_sound h)

theorem execCadSyncDue_sound {q : List Instr} {s : State} (h : Sound q s) :
    SoundOut q (execCadSyncDue s) := fin_sound (cadSyncDue_sound h)

theorem execCadDelayReqDue_sound {q : List Instr} {s : State} (h : Sound q s) :
    SoundOut q (execCadDelayReqDue s) := fin_sound (cadDelayDue_sound h)

theorem execCadDelayRespMiss_sound {q : List Instr} {s : State} (h : Sound q s) :
    SoundOut q (execCadDelayRespMiss s) := fin_sound (cadDelayMiss_sound h)

theorem execCadSyncAbsent_sound {q : List Instr} {s : State} (h : Sound q s) :
    SoundOut q (execCadSyncAbsent s) := fin_sound (cadNoSync_sound h)

theorem execPuClXsStatRead_sound {q : List Instr} {path : Path} {s : State} (h : Sound q s) :
    SoundOut q (execPuClXsStatRead path s) := fin_sound (readAt_sound h)

theorem execCadTailWrite_sound {q : List Instr} {path : Path} {qi : Fin 18} {v : Word} {s : State} (h : Sound q s) :
    SoundOut q (execCadTailWrite path qi v s) := fin_sound (writeAt_sound h)

theorem execCadDescPrepared_sound {q : List Instr} {qi : Fin 18} {s : State} (h : Sound q s) :
    SoundOut q (execCadDescPrepared qi s) := fin_sound (prepareDesc_sound h)

theorem execCadLaunchTime_sound {q : List Instr} {qi : Fin 18} {s : State} (h : Sound q s) :
    SoundOut q (execCadLaunchTime qi s) := fin_sound (launchHead_sound h)

theorem execCadDescComplete_sound {q : List Instr} {qi : Fin 18} {s : State} (h : Sound q s) :
    SoundOut q (execCadDescComplete qi s) := fin_sound (descDone_sound h)

theorem execCadQueueResume_sound {q : List Instr} {path : Path} {qi : Fin 18} {v : Word} {s : State} (h : Sound q s) :
    SoundOut q (execCadQueueResume path qi v s) := fin_sound (writeAt_sound h)

theorem execCadQueueFlush_sound {q : List Instr} {path : Path} {qi : Fin 18} {v : Word} {s : State} (h : Sound q s) :
    SoundOut q (execCadQueueFlush path qi v s) := fin_sound (writeAt_sound h)

theorem execCadRxRdWrite_sound {q : List Instr} {path : Path} {p : PortId} {v : Word} {s : State} (h : Sound q s) :
    SoundOut q (execCadRxRdWrite path p v s) := fin_sound (writeAt_sound h)

theorem execCadEp2Request_sound {q : List Instr} {s : State} (h : Sound q s) :
    SoundOut q (execCadEp2Request s) := fin_sound (ep2Request_sound h)

theorem execCadEpRecordAck_sound {q : List Instr} {ep3 : Bool} {s : State} (h : Sound q s) :
    SoundOut q (execCadEpRecordAck ep3 s) := fin_sound (bulkInAck_sound h)

theorem execStoreFillDone_sound {q : List Instr} {s : State} (h : Sound q s) :
    SoundOut q (execStoreFillDone s) := by
  unfold execStoreFillDone
  refine fin_sound ?_
  repeat' first
    | with_reducible assumption
    | with_reducible refine resume_sound ?_
    | with_reducible refine fillDone_sound ?_

theorem execIdleEnter_sound {q : List Instr} {s : State} (h : Sound q s) :
    SoundOut q (execIdleEnter s) := fin_sound (idleEnter_sound h)

theorem execAutoSleepDue_sound {q : List Instr} {s : State} (h : Sound q s) :
    SoundOut q (execAutoSleepDue s) := fin_sound (autoSleep_sound h)

theorem execAutoDeepDue_sound {q : List Instr} {s : State} (h : Sound q s) :
    SoundOut q (execAutoDeepDue s) := fin_sound (autoDeep_sound h)

theorem execPwrCmdDeep_sound {q : List Instr} {path : Path} {v : Word} {s : State} (h : Sound q s) :
    SoundOut q (execPwrCmdDeep path v s) := fin_sound (writeAt_sound h)

theorem execPwrCmdOff_sound {q : List Instr} {path : Path} {v : Word} {s : State} (h : Sound q s) :
    SoundOut q (execPwrCmdOff path v s) := fin_sound (writeAt_sound h)

theorem execPwrCmdBlocked_sound {q : List Instr} {s : State} (h : Sound q s) :
    SoundOut q (execPwrCmdBlocked s) := fin_sound (cmdBlocked_sound h)

theorem execPowerEntryDone_sound {q : List Instr} {s : State} (h : Sound q s) :
    SoundOut q (execPowerEntryDone s) := by
  unfold execPowerEntryDone
  refine fin_sound ?_
  repeat' first
    | with_reducible assumption
    | with_reducible refine resume_sound ?_
    | with_reducible refine entryDone_sound ?_

theorem execWakeSource_sound {q : List Instr} {src : WakeSrc} {port : Option PortId} {s : State} (h : Sound q s) :
    SoundOut q (execWakeSource src port s) := fin_sound (wakeAny_sound h)

theorem execWakeDone_sound {q : List Instr} {badBanks : BitVec 4} {s : State} (h : Sound q s) :
    SoundOut q (execWakeDone badBanks s) := by
  unfold execWakeDone
  refine fin_sound ?_
  repeat' first
    | with_reducible assumption
    | with_reducible refine resume_sound ?_
    | with_reducible refine wakeDone_sound ?_

theorem execWakeAttemptFail_sound {q : List Instr} {cause : WakeFailCause} {s : State} (h : Sound q s) :
    SoundOut q (execWakeAttemptFail cause s) := fin_sound (attemptFail_sound h)

theorem execWakeRetryDue_sound {q : List Instr} {s : State} (h : Sound q s) :
    SoundOut q (execWakeRetryDue s) := by
  unfold execWakeRetryDue
  refine fin_sound ?_
  repeat' first
    | with_reducible assumption
    | with_reducible refine ladderRetry_sound ?_
    | with_reducible refine retryDue_sound ?_
    | intro _
    | split

theorem execSentinelMessage_sound {q : List Instr} {p : PortId} {msg : List Byte} {s : State} (h : Sound q s) :
    SoundOut q (execSentinelMessage p msg s) := fin_sound (sentinelRx_sound h)

theorem execSentinelKeepalive_sound {q : List Instr} {_p : PortId} {s : State} (h : Sound q s) :
    SoundOut q (execSentinelKeepalive _p s) := by
  unfold execSentinelKeepalive
  refine fin_sound ?_
  repeat' first
    | with_reducible assumption

theorem execI2cAddressMatch_sound {q : List Instr} {addr : BitVec 7} {s : State} (h : Sound q s) :
    SoundOut q (execI2cAddressMatch addr s) := by
  unfold execI2cAddressMatch
  refine fin_sound ?_
  repeat' first
    | with_reducible assumption
    | with_reducible refine i2cMatched_sound ?_
    | intro _
    | split

theorem execDphyPowerDown_sound {q : List Instr} {b : Bool} {s : State} (h : Sound q s) :
    SoundOut q (execDphyPowerDown b s) := fin_sound (dphyDown_sound h)

theorem execDphyPowerUp_sound {q : List Instr} {b : Bool} {s : State} (h : Sound q s) :
    SoundOut q (execDphyPowerUp b s) := fin_sound (dphyUp_sound h)

theorem execWakeNOffExit_sound {q : List Instr} {s : State} (h : Sound q s) :
    SoundOut q (execWakeNOffExit s) := by
  unfold execWakeNOffExit
  refine fin_sound ?_
  repeat' first
    | with_reducible assumption
    | with_reducible refine coldReset_sound ?_
    | intro _
    | split

theorem execTempCrit_sound {q : List Instr} {celsius : Int} {s : State} (h : Sound q s) :
    SoundOut q (execTempCrit celsius s) := fin_sound (tempCritAt_sound h)

theorem execTempHigh_sound {q : List Instr} {celsius : Int} {s : State} (h : Sound q s) :
    SoundOut q (execTempHigh celsius s) := fin_sound (tempHighAt_sound h)

theorem execFaultConditionEnd_sound {q : List Instr} {c : FaultCond} {s : State} (h : Sound q s) :
    SoundOut q (execFaultConditionEnd c s) := fin_sound (conditionEnd_sound h)

theorem execFaultNPulseEnd_sound {q : List Instr} {s : State} (h : Sound q s) :
    SoundOut q (execFaultNPulseEnd s) := fin_sound (State.modFlt_sound h)

theorem execResetLoopWindowExpire_sound {q : List Instr} {s : State} (h : Sound q s) :
    SoundOut q (execResetLoopWindowExpire s) := fin_sound (State.modFlt_sound h)

theorem execRecoveryAutoEnd_sound {q : List Instr} {s : State} (h : Sound q s) :
    SoundOut q (execRecoveryAutoEnd s) := by
  unfold execRecoveryAutoEnd
  refine fin_sound ?_
  repeat' first
    | with_reducible assumption
    | with_reducible refine recoveryEnd_sound ?_
    | intro _
    | split

theorem execFltCmdEndRecovery_sound {q : List Instr} {path : Path} {v : Word} {s : State} (h : Sound q s) :
    SoundOut q (execFltCmdEndRecovery path v s) := fin_sound (writeAt_sound h)

theorem execRecoveryReleaseDue_sound {q : List Instr} {s : State} (h : Sound q s) :
    SoundOut q (execRecoveryReleaseDue s) := by
  unfold execRecoveryReleaseDue
  refine fin_sound ?_
  repeat' first
    | with_reducible assumption
    | with_reducible refine releaseNext_sound ?_
    | intro _
    | split

theorem execFltCapClear_sound {q : List Instr} {path : Path} {v : Word} {s : State} (h : Sound q s) :
    SoundOut q (execFltCapClear path v s) := fin_sound (writeAt_sound h)

theorem execRegisterWrite_sound {q : List Instr} {path : Path} {addr : BitVec 24} {v : Word} {s : State} (h : Sound q s) :
    SoundOut q (execRegisterWrite path addr v s) := fin_sound (writeAt_sound h)

theorem execW1cWrite_sound {q : List Instr} {path : Path} {addr : BitVec 24} {v : Word} {s : State} (h : Sound q s) :
    SoundOut q (execW1cWrite path addr v s) := fin_sound (writeAt_sound h)

theorem execGlbCommit_sound {q : List Instr} {path : Path} {v : Word} {s : State} (h : Sound q s) :
    SoundOut q (execGlbCommit path v s) := fin_sound (writeAt_sound h)

theorem execGlbDiscard_sound {q : List Instr} {path : Path} {v : Word} {s : State} (h : Sound q s) :
    SoundOut q (execGlbDiscard path v s) := fin_sound (writeAt_sound h)

theorem execGlbCommitAtArm_sound {q : List Instr} {path : Path} {v : Word} {s : State} (h : Sound q s) :
    SoundOut q (execGlbCommitAtArm path v s) := fin_sound (writeAt_sound h)

theorem execGlbCommitAtCancel_sound {q : List Instr} {path : Path} {v : Word} {s : State} (h : Sound q s) :
    SoundOut q (execGlbCommitAtCancel path v s) := fin_sound (writeAt_sound h)

theorem execCommitAtFired_sound {q : List Instr} {s : State} (h : Sound q s) :
    SoundOut q (execCommitAtFired s) := by
  unfold execCommitAtFired
  refine fin_sound ?_
  repeat' first
    | with_reducible assumption
    | with_reducible refine commitFire_sound ?_
    | intro _
    | split

theorem execGlbLockringWrite_sound {q : List Instr} {path : Path} {v : Word} {s : State} (h : Sound q s) :
    SoundOut q (execGlbLockringWrite path v s) := fin_sound (writeAt_sound h)

theorem execLockringExpire_sound {q : List Instr} {path : Path} {s : State} (h : Sound q s) :
    SoundOut q (execLockringExpire path s) := fin_sound (State.modPath_sound h)

theorem execI2cWriteTransaction_sound {q : List Instr} {addr : BitVec 7} {bytes : List Byte} {stopped : Bool} {s : State} (h : Sound q s) :
    SoundOut q (execI2cWriteTransaction addr bytes stopped s) := fin_sound (i2cWrite_sound h)

theorem execI2cReadTransaction_sound {q : List Instr} {addr : BitVec 7} {bytes : List Byte} {nread : Nat} {s : State} (h : Sound q s) :
    SoundOut q (execI2cReadTransaction addr bytes nread s) := fin_sound (i2cRead_sound h)

theorem execI2cStretchTimeout_sound {q : List Instr} {s : State} (h : Sound q s) :
    SoundOut q (execI2cStretchTimeout s) := fin_sound (i2cTimeout_sound h)

theorem execI2cAbandon_sound {q : List Instr} {s : State} (h : Sound q s) :
    SoundOut q (execI2cAbandon s) := fin_sound (i2cAbandon_sound h)

/-- Every command keeps the sparse data canonical and leaves the queue alone. -/
theorem exec_sound {q : List Instr} {i : Instr} {s : State} (h : Sound q s) : SoundOut q (exec i s) :=
  match i with
  | .supplyGoodEval .. => execSupplyGoodEval_sound h
  | .resetNLow => execResetNLow_sound h
  | .vaux5Brownout => execVaux5Brownout_sound h
  | .glbResetCold .. => execGlbResetCold_sound h
  | .glbResetWarm .. => execGlbResetWarm_sound h
  | .x24Ready => execX24Ready_sound h
  | .x24Stop => execX24Stop_sound h
  | .x32CrystalFail => execX32CrystalFail_sound h
  | .vddcTurnOnDone .. => execVddcTurnOnDone_sound h
  | .storeFillDone => execStoreFillDone_sound h
  | .flashHeadersRead .. => execFlashHeadersRead_sound h
  | .slotValidated => execSlotValidated_sound h
  | .signatureVerified => execSignatureVerified_sound h
  | .ladderConvertersOff => execLadderConvertersOff_sound h
  | .levelUpTo2 => execLevelUpTo2_sound h
  | .upstreamConnect => execUpstreamConnect_sound h
  | .hubConnectWrite .. => execHubConnectWrite_sound h
  | .hubConnectDisconnect .. => execHubConnectDisconnect_sound h
  | .connectReevaluate => execConnectReevaluate_sound h
  | .bridgeModeEnd => execBridgeModeEnd_sound h
  | .dynNoEpr => execDynNoEpr_sound h
  | .causeRecordProgrammed => execCauseRecordProgrammed_sound h
  | .causeAreaEraseStart => execCauseAreaEraseStart_sound h
  | .causeAreaEraseDone => execCauseAreaEraseDone_sound h
  | .nvmRead .. => execNvmRead_sound h
  | .nvmProgram .. => execNvmProgram_sound h
  | .nvmErase4k .. => execNvmErase4k_sound h
  | .nvmErase64k .. => execNvmErase64k_sound h
  | .nvmVerifySlot .. => execNvmVerifySlot_sound h
  | .nvmReadId .. => execNvmReadId_sound h
  | .nvmOtpProgram .. => execNvmOtpProgram_sound h
  | .nvmBadOp .. => execNvmBadOp_sound h
  | .nvmOpDone .. => execNvmOpDone_sound h
  | .nvmOpTimeout => execNvmOpTimeout_sound h
  | .feedWindowEnter .. => execFeedWindowEnter_sound h
  | .feedWindowExit .. => execFeedWindowExit_sound h
  | .feedQualified .. => execFeedQualified_sound h
  | .feedRevertExpire .. => execFeedRevertExpire_sound h
  | .vinUvlo .. => execVinUvlo_sound h
  | .feedReverseCurrent => execFeedReverseCurrent_sound h
  | .vinBrownoutHoldExpire => execVinBrownoutHoldExpire_sound h
  | .switchoverOldOff => execSwitchoverOldOff_sound h
  | .switchoverConfirmTimeout .. => execSwitchoverConfirmTimeout_sound h
  | .feedPairConducts .. => execFeedPairConducts_sound h
  | .feedPairFullyOn .. => execFeedPairFullyOn_sound h
  | .feedLiveTurnonTimeout .. => execFeedLiveTurnonTimeout_sound h
  | .feedRampEnd .. => execFeedRampEnd_sound h
  | .feedGateCheckFail .. => execFeedGateCheckFail_sound h
  | .feedShortedPass .. => execFeedShortedPass_sound h
  | .feedTrip .. => execFeedTrip_sound h
  | .feedCooldownExpire .. => execFeedCooldownExpire_sound h
  | .feedUnlock .. => execFeedUnlock_sound h
  | .vinOvervoltage .. => execVinOvervoltage_sound h
  | .bellRing .. => execBellRing_sound h
  | .bellClear .. => execBellClear_sound h
  | .degradedSet => execDegradedSet_sound h
  | .degradedClear => execDegradedClear_sound h
  | .tandemEnter .. => execTandemEnter_sound h
  | .ftPresentChange .. => execFtPresentChange_sound h
  | .axOffVsnsCheck .. => execAxOffVsnsCheck_sound h
  | .axPgoodRelease .. => execAxPgoodRelease_sound h
  | .pathRampStart .. => execPathRampStart_sound h
  | .pathRampDone .. => execPathRampDone_sound h
  | .pathFastTrip .. => execPathFastTrip_sound h
  | .brakeTimerExpire .. => execBrakeTimerExpire_sound h
  | .soaBudgetExhausted .. => execSoaBudgetExhausted_sound h
  | .rampTimeout .. => execRampTimeout_sound h
  | .rampOvershoot .. => execRampOvershoot_sound h
  | .pathLimitEnter .. => execPathLimitEnter_sound h
  | .pathLimitExit .. => execPathLimitExit_sound h
  | .pathDischarged .. => execPathDischarged_sound h
  | .backoffExpire .. => execBackoffExpire_sound h
  | .retryCountReset .. => execRetryCountReset_sound h
  | .gateCheckFail .. => execGateCheckFail_sound h
  | .outputPresentFail .. => execOutputPresentFail_sound h
  | .ppUnlock .. => execPpUnlock_sound h
  | .snapshotTaken => execSnapshotTaken_sound h
  | .mtELoRead .. => execMtELoRead_sound h
  | .meterTick => execMeterTick_sound h
  | .tcCcChange .. => execTcCcChange_sound h
  | .tcDrpToggle .. => execTcDrpToggle_sound h
  | .tcCcDebounceExpire .. => execTcCcDebounceExpire_sound h
  | .tcDrpTryExpire .. => execTcDrpTryExpire_sound h
  | .tcTryTimeout .. => execTcTryTimeout_sound h
  | .tcDrpTryWaitExpire .. => execTcDrpTryWaitExpire_sound h
  | .tcDetach .. => execTcDetach_sound h
  | .vbusLate .. => execVbusLate_sound h
  | .tcErrorRecoveryExpire .. => execTcErrorRecoveryExpire_sound h
  | .tcCmdErrRecovery .. => execTcCmdErrRecovery_sound h
  | .tcCmdMoistTest .. => execTcCmdMoistTest_sound h
  | .vconnOc .. => execVconnOc_sound h
  | .vconnTotalOc => execVconnTotalOc_sound h
  | .ccOvp .. => execCcOvp_sound h
  | .ccOvpClear .. => execCcOvpClear_sound h
  | .sbuOvp .. => execSbuOvp_sound h
  | .sbuOvpClear .. => execSbuOvpClear_sound h
  | .moistTestDue .. => execMoistTestDue_sound h
  | .moistTestDone .. => execMoistTestDone_sound h
  | .massWetClear => execMassWetClear_sound h
  | .deepCcPoll .. => execDeepCcPoll_sound h
  | .pdSourceCapsRx .. => execPdSourceCapsRx_sound h
  | .pdRequestRx .. => execPdRequestRx_sound h
  | .pdEprRequestRx .. => execPdEprRequestRx_sound h
  | .pdAcceptRx .. => execPdAcceptRx_sound h
  | .pdRejectRx .. => execPdRejectRx_sound h
  | .pdWaitRx .. => execPdWaitRx_sound h
  | .pdPsRdyRx .. => execPdPsRdyRx_sound h
  | .pdSoftResetRx .. => execPdSoftResetRx_sound h
  | .pdHardResetRx .. => execPdHardResetRx_sound h
  | .pdGetSourceCapRx .. => execPdGetSourceCapRx_sound h
  | .pdGetSinkCapRx .. => execPdGetSinkCapRx_sound h
  | .pdSinkCapsRx .. => execPdSinkCapsRx_sound h
  | .pdPrSwapRx .. => execPdPrSwapRx_sound h
  | .pdVconnSwapRx .. => execPdVconnSwapRx_sound h
  | .pdDrSwapRx .. => execPdDrSwapRx_sound h
  | .pdFrSwapRx .. => execPdFrSwapRx_sound h
  | .pdEprModeEnterRx .. => execPdEprModeEnterRx_sound h
  | .pdEprModeExitRx .. => execPdEprModeExitRx_sound h
  | .pdEprKeepaliveRx .. => execPdEprKeepaliveRx_sound h
  | .pdAlertRx .. => execPdAlertRx_sound h
  | .pdGetStatusRx .. => execPdGetStatusRx_sound h
  | .pdGetSourceInfoRx .. => execPdGetSourceInfoRx_sound h
  | .pdGetRevisionRx .. => execPdGetRevisionRx_sound h
  | .pdGetSrcCapExtRx .. => execPdGetSrcCapExtRx_sound h
  | .pdGetSnkCapExtRx .. => execPdGetSnkCapExtRx_sound h
  | .pdBistRx .. => execPdBistRx_sound h
  | .pdUnsupportedRx .. => execPdUnsupportedRx_sound h
  | .pdUnchunkedExtRx .. => execPdUnchunkedExtRx_sound h
  | .pdSop2Rx p => (execPdSop2Rx_sound h : SoundOut q (execPdSop2Rx p s))
  | .pdIgnoredRx .. => execPdIgnoredRx_sound h
  | .pdSvdmRx .. => execPdSvdmRx_sound h
  | .pdGoodcrcRx .. => execPdGoodcrcRx_sound h
  | .pdSenderResponseTimeout .. => execPdSenderResponseTimeout_sound h
  | .pdCableDiscoverRetry .. => execPdCableDiscoverRetry_sound h
  | .pdSendSourceCapRepeat .. => execPdSendSourceCapRepeat_sound h
  | .pdSrcTransitionExpire .. => execPdSrcTransitionExpire_sound h
  | .pdTransitionSettled .. => execPdTransitionSettled_sound h
  | .pdTransitionWindowExpire .. => execPdTransitionWindowExpire_sound h
  | .pdPsHardResetExpire .. => execPdPsHardResetExpire_sound h
  | .pdSrcRecoverExpire .. => execPdSrcRecoverExpire_sound h
  | .pdEprKeepaliveExpire .. => execPdEprKeepaliveExpire_sound h
  | .pdPuKeepaliveDue => execPdPuKeepaliveDue_sound h
  | .pdSinkTxExpire .. => execPdSinkTxExpire_sound h
  | .pdSinkRequestExpire => execPdSinkRequestExpire_sound h
  | .pdPsSourceTimeout .. => execPdPsSourceTimeout_sound h
  | .pdFrsNomsg .. => execPdFrsNomsg_sound h
  | .pdHrstWithheld => execPdHrstWithheld_sound h
  | .pdEprExitTimeout .. => execPdEprExitTimeout_sound h
  | .pdCmdSoftReset .. => execPdCmdSoftReset_sound h
  | .pdCmdHardReset .. => execPdCmdHardReset_sound h
  | .pdCmdPrSwap .. => execPdCmdPrSwap_sound h
  | .pdCmdVconnSwap .. => execPdCmdVconnSwap_sound h
  | .pdCmdSendCaps .. => execPdCmdSendCaps_sound h
  | .pdCmdGetSinkCap .. => execPdCmdGetSinkCap_sound h
  | .pdCmdEprExit .. => execPdCmdEprExit_sound h
  | .bmRecompute .. => execBmRecompute_sound h
  | .renegTimeout .. => execRenegTimeout_sound h
  | .bmRaiseDelayExpire => execBmRaiseDelayExpire_sound h
  | .pmbTransactionDone .. => execPmbTransactionDone_sound h
  | .pmbRetryDue => execPmbRetryDue_sound h
  | .pmbVoutRetryDue => execPmbVoutRetryDue_sound h
  | .pmbTonMaxExpire => execPmbTonMaxExpire_sound h
  | .pmbOffConfirmTimeout => execPmbOffConfirmTimeout_sound h
  | .pmbStretchTimeout => execPmbStretchTimeout_sound h
  | .pmbVerifyWrite .. => execPmbVerifyWrite_sound h
  | .pmbAlert .. => execPmbAlert_sound h
  | .pmbAlertRepeat .. => execPmbAlertRepeat_sound h
  | .pmbAlertStormExpire .. => execPmbAlertStormExpire_sound h
  | .pmbBusStuck => execPmbBusStuck_sound h
  | .pmbBusRecoveryDue => execPmbBusRecoveryDue_sound h
  | .pmbStuckClear => execPmbStuckClear_sound h
  | .pmbSwGo .. => execPmbSwGo_sound h
  | .usbGetDescriptor .. => execUsbGetDescriptor_sound h
  | .usbSetAddress .. => execUsbSetAddress_sound h
  | .usbSetConfiguration .. => execUsbSetConfiguration_sound h
  | .usbSetInterface .. => execUsbSetInterface_sound h
  | .usbGetStatus => execUsbGetStatus_sound h
  | .usbDeviceFeature .. => execUsbDeviceFeature_sound h
  | .hubGetHubStatus => execHubGetHubStatus_sound h
  | .hubGetPortStatus .. => execHubGetPortStatus_sound h
  | .hubHubFeature .. => execHubHubFeature_sound h
  | .hubClassStall request => (execHubClassStall_sound h : SoundOut q (execHubClassStall request s))
  | .portResetRequest .. => execPortResetRequest_sound h
  | .portResetDone .. => execPortResetDone_sound h
  | .portSuspendRequest .. => execPortSuspendRequest_sound h
  | .portResumeRequest .. => execPortResumeRequest_sound h
  | .portResumeDone .. => execPortResumeDone_sound h
  | .portPowerFeature .. => execPortPowerFeature_sound h
  | .portEnableClear .. => execPortEnableClear_sound h
  | .portTestRequest .. => execPortTestRequest_sound h
  | .portFeatureStall port feature => (execPortFeatureStall_sound h : SoundOut q (execPortFeatureStall port feature s))
  | .portChangeClear .. => execPortChangeClear_sound h
  | .portL1Request .. => execPortL1Request_sound h
  | .portL1Clear .. => execPortL1Clear_sound h
  | .portConnectDetect .. => execPortConnectDetect_sound h
  | .portDisconnectDetect .. => execPortDisconnectDetect_sound h
  | .portBabble .. => execPortBabble_sound h
  | .upstreamBusReset .. => execUpstreamBusReset_sound h
  | .upstreamDetach => execUpstreamDetach_sound h
  | .globalSuspend => execGlobalSuspend_sound h
  | .hostResume => execHostResume_sound h
  | .remoteWakeK .. => execRemoteWakeK_sound h
  | .remoteWakeEvent => execRemoteWakeEvent_sound h
  | .lpmToken .. => execLpmToken_sound h
  | .l1Resume => execL1Resume_sound h
  | .l1RemoteWake => execL1RemoteWake_sound h
  | .portL1DeviceExit .. => execPortL1DeviceExit_sound h
  | .sofReceived .. => execSofReceived_sound h
  | .sofMissed => execSofMissed_sound h
  | .ttStartSplit .. => execTtStartSplit_sound h
  | .ttCompleteSplit p ty dirIn addr ep => (execTtCompleteSplit_sound h : SoundOut q (execTtCompleteSplit p ty dirIn addr ep s))
  | .ttPeriodicStartSplit .. => execTtPeriodicStartSplit_sound h
  | .ttPeriodicCompleteSplit .. => execTtPeriodicCompleteSplit_sound h
  | .ttFrameStart .. => execTtFrameStart_sound h
  | .ttTransactionEnd .. => execTtTransactionEnd_sound h
  | .ttRecordExpire .. => execTtRecordExpire_sound h
  | .ttStale .. => execTtStale_sound h
  | .ttClearTtBuffer .. => execTtClearTtBuffer_sound h
  | .ttResetTt .. => execTtResetTt_sound h
  | .ttStopTt .. => execTtStopTt_sound h
  | .ttGetTtState .. => execTtGetTtState_sound h
  | .hpTtCmdReset .. => execHpTtCmdReset_sound h
  | .hpTtCmdClearNp .. => execHpTtCmdClearNp_sound h
  | .efnVendorRead .. => execEfnVendorRead_sound h
  | .efnVendorWrite .. => execEfnVendorWrite_sound h
  | .efnVendorEvqRead .. => execEfnVendorEvqRead_sound h
  | .efnVendorKeyedWrite .. => execEfnVendorKeyedWrite_sound h
  | .efnAccessHoldTimeout => execEfnAccessHoldTimeout_sound h
  | .efnStandardRequest .. => execEfnStandardRequest_sound h
  | .efnSetHalt .. => execEfnSetHalt_sound h
  | .efnClearHalt .. => execEfnClearHalt_sound h
  | .efnBulkOut .. => execEfnBulkOut_sound h
  | .efnPing .. => execEfnPing_sound h
  | .efnBulkIn .. => execEfnBulkIn_sound h
  | .efnBulkInAck .. => execEfnBulkInAck_sound h
  | .efnPortReset .. => execEfnPortReset_sound h
  | .batchReceived => execBatchReceived_sound h
  | .batchAbort => execBatchAbort_sound h
  | .batchRead => execBatchRead_sound h
  | .batchWrite => execBatchWrite_sound h
  | .batchWriteN => execBatchWriteN_sound h
  | .batchRmw => execBatchRmw_sound h
  | .batchPoll .. => execBatchPoll_sound h
  | .batchKeyedWrite => execBatchKeyedWrite_sound h
  | .batchDelay => execBatchDelay_sound h
  | .batchEvqPop .. => execBatchEvqPop_sound h
  | .batchDone => execBatchDone_sound h
  | .evqPushMessage => execEvqPushMessage_sound h
  | .efnCarveApply .. => execEfnCarveApply_sound h
  | .storeWindowRead .. => execStoreWindowRead_sound h
  | .storeWindowWrite .. => execStoreWindowWrite_sound h
  | .scrubSlot => execScrubSlot_sound h
  | .stoCmdClrLog .. => execStoCmdClrLog_sound h
  | .stoCmdClrCnt .. => execStoCmdClrCnt_sound h
  | .stoEcclogClear .. => execStoEcclogClear_sound h
  | .stoFlipArm .. => execStoFlipArm_sound h
  | .stoRetireWrite .. => execStoRetireWrite_sound h
  | .holdoverExpire => execHoldoverExpire_sound h
  | .tpulseFire => execTpulseFire_sound h
  | .tpulseEnd => execTpulseEnd_sound h
  | .tpulseInputEdge .. => execTpulseInputEdge_sound h
  | .timSwCap .. => execTimSwCap_sound h
  | .timCapStatRead .. => execTimCapStatRead_sound h
  | .timTb0NsRead .. => execTimTb0NsRead_sound h
  | .timTb3LoRead .. => execTimTb3LoRead_sound h
  | .tb3Alarm => execTb3Alarm_sound h
  | .tbReadvance => execTbReadvance_sound h
  | .cadDiscoveryStart .. => execCadDiscoveryStart_sound h
  | .cadVdmResponse .. => execCadVdmResponse_sound h
  | .cadVdmTimeout .. => execCadVdmTimeout_sound h
  | .cadVdmBusyRetry .. => execCadVdmBusyRetry_sound h
  | .cadDiscoverIdentityRx => execCadDiscoverIdentityRx_sound h
  | .cadDiscoverSvidsRx => execCadDiscoverSvidsRx_sound h
  | .cadDiscoverModesRx => execCadDiscoverModesRx_sound h
  | .cadEnterModeRx .. => execCadEnterModeRx_sound h
  | .cadExitModeRx .. => execCadExitModeRx_sound h
  | .cadAttentionRx .. => execCadAttentionRx_sound h
  | .cadAttentionRepeat => execCadAttentionRepeat_sound h
  | .cadExitModeTimeout .. => execCadExitModeTimeout_sound h
  | .clCmdEnter .. => execClCmdEnter_sound h
  | .clCmdRetrain .. => execClCmdRetrain_sound h
  | .cadReceiverLock .. => execCadReceiverLock_sound h
  | .cadTrainAttemptFail .. => execCadTrainAttemptFail_sound h
  | .cadUpFrameRx => execCadUpFrameRx_sound h
  | .cadLossOfLock .. => execCadLossOfLock_sound h
  | .cadRetrainSetRx .. => execCadRetrainSetRx_sound h
  | .cadRetrainTimeout .. => execCadRetrainTimeout_sound h
  | .cadFrameRx .. => execCadFrameRx_sound h
  | .cadSyncRx .. => execCadSyncRx_sound h
  | .cadDelayReqRx .. => execCadDelayReqRx_sound h
  | .cadDelayRespRx .. => execCadDelayRespRx_sound h
  | .cadBellRx .. => execCadBellRx_sound h
  | .cadEchoRx .. => execCadEchoRx_sound h
  | .cadFrameTxDone .. => execCadFrameTxDone_sound h
  | .cadSyncDue => execCadSyncDue_sound h
  | .cadDelayReqDue => execCadDelayReqDue_sound h
  | .cadDelayRespMiss => execCadDelayRespMiss_sound h
  | .cadSyncAbsent => execCadSyncAbsent_sound h
  | .cadTailWrite .. => execCadTailWrite_sound h
  | .cadDescPrepared .. => execCadDescPrepared_sound h
  | .cadLaunchTime .. => execCadLaunchTime_sound h
  | .cadDescComplete .. => execCadDescComplete_sound h
  | .cadQueueResume .. => execCadQueueResume_sound h
  | .cadQueueFlush .. => execCadQueueFlush_sound h
  | .cadRxRdWrite .. => execCadRxRdWrite_sound h
  | .cadEp2Request => execCadEp2Request_sound h
  | .cadEpRecordAck .. => execCadEpRecordAck_sound h
  | .idleEnter => execIdleEnter_sound h
  | .autoSleepDue => execAutoSleepDue_sound h
  | .autoDeepDue => execAutoDeepDue_sound h
  | .pwrCmdDeep .. => execPwrCmdDeep_sound h
  | .pwrCmdOff .. => execPwrCmdOff_sound h
  | .pwrCmdBlocked => execPwrCmdBlocked_sound h
  | .powerEntryDone => execPowerEntryDone_sound h
  | .wakeSource .. => execWakeSource_sound h
  | .wakeDone .. => execWakeDone_sound h
  | .wakeAttemptFail .. => execWakeAttemptFail_sound h
  | .wakeRetryDue => execWakeRetryDue_sound h
  | .sentinelMessage .. => execSentinelMessage_sound h
  | .sentinelKeepalive p => (execSentinelKeepalive_sound h : SoundOut q (execSentinelKeepalive p s))
  | .i2cAddressMatch .. => execI2cAddressMatch_sound h
  | .dphyPowerDown .. => execDphyPowerDown_sound h
  | .dphyPowerUp .. => execDphyPowerUp_sound h
  | .retentionReloadDone .. => execRetentionReloadDone_sound h
  | .wakeNOffExit => execWakeNOffExit_sound h
  | .tempCrit .. => execTempCrit_sound h
  | .tempHigh .. => execTempHigh_sound h
  | .faultNPulseEnd => execFaultNPulseEnd_sound h
  | .resetLoopWindowExpire => execResetLoopWindowExpire_sound h
  | .recoveryAutoEnd => execRecoveryAutoEnd_sound h
  | .fltCmdEndRecovery .. => execFltCmdEndRecovery_sound h
  | .recoveryReleaseDue => execRecoveryReleaseDue_sound h
  | .fltCapClear .. => execFltCapClear_sound h
  | .evqPop .. => execEvqPop_sound h
  | .evqPopBlockTimeout .. => execEvqPopBlockTimeout_sound h
  | .evqCmdFlush .. => execEvqCmdFlush_sound h
  | .i2cWriteTransaction .. => execI2cWriteTransaction_sound h
  | .i2cReadTransaction .. => execI2cReadTransaction_sound h
  | .i2cStretchTimeout => execI2cStretchTimeout_sound h
  | .i2cAbandon => execI2cAbandon_sound h
  | .registerWrite .. => execRegisterWrite_sound h
  | .w1cWrite .. => execW1cWrite_sound h
  | .glbCommit .. => execGlbCommit_sound h
  | .glbDiscard .. => execGlbDiscard_sound h
  | .glbCommitAtArm .. => execGlbCommitAtArm_sound h
  | .glbCommitAtCancel .. => execGlbCommitAtCancel_sound h
  | .commitAtFired => execCommitAtFired_sound h
  | .glbLockringWrite .. => execGlbLockringWrite_sound h
  | .lockringExpire .. => execLockringExpire_sound h
  | .puClXsStatRead .. => execPuClXsStatRead_sound h
  | .internalLdosReady => execInternalLdosReady_sound h
  | .vbusThresholdCross .. => execVbusThresholdCross_sound h
  | .vin36vCrossing .. => execVin36vCrossing_sound h
  | .meterSample .. => execMeterSample_sound h
  | .faultConditionEnd .. => execFaultConditionEnd_sound h
  | .pdNoGoodcrc .. => execPdNoGoodcrc_sound h
  | .pdCableIdentityRx .. => execPdCableIdentityRx_sound h
  | .pdResponseRx .. => execPdResponseRx_sound h

end Sys2Proof.Machine
end

