-- ==== Sys2Proof/Tests/Slice0.lean ====
section
/-! SUPPORT. Tests: the well-formedness checks with an ill-formed command for each, and for the statements of
Certificates/Slice0/Obligations.lean states and operands that meet their hypotheses, with a fact of the state reached. What
is expected is read from the rule each statement cites. -/

namespace Sys2Proof.Machine

set_option maxRecDepth 100000
set_option Elab.async false

/-! ### What the tests are built of -/

/-- The outcome is a next state of which `f` holds. -/
def outTest (o : Host.Outcome State Fault Refusal) (f : State → Bool) : Bool :=
  match o with
  | .next t => f t
  | _ => false

/-- The state of an outcome. -/
def after (c : Instr) (s : State) : State := match exec c s with
  | .next t => t
  | _ => s

/-- The hypotheses hold, and the command answers a next state of which `f` holds. -/
def wit (hyp : Bool) (c : Instr) (s : State) (f : State → Bool) : Bool := hyp && outTest (exec c s) f

/-- A hub that runs at Level 1 with every domain powered. -/
def up : State :=
  let p := { State.reset.pwr with st := .run, vaux := .buck, ldosOk := true, x24Run := true, x24Ready := true, rc8Run := true }
  let q := { p with pmbCtrl := true, vddcOn := true, dphyA := true, dphyB := true, afeOn := true }
  let g := { State.reset.glb with phase := .up, level := 1, levelSet := true, causeDone := true }
  { State.reset with glb := g, pwr := q, feed := { State.reset.feed with vin := 48000 } }

/-- `up` with the lockring of the USB path open. -/
def unlocked : State := up.modPath .usb fun x => { x with lockOpen := true }

/-- A hub in a phase of the start ladder, with VIN good. -/
def ladder (ph : Phase) : State := { up with glb := { State.reset.glb with phase := ph } }

/-- The smallest valid image: PMB_MAP with the VDDC regulator at its default address, and USB_DESC. -/
def image : List Byte := 
  [69, 74, 67, 70, 1, 2, 1, 0, 60, 0, 0, 0, 5, 0, 0, 0, 128, 166, 131, 153, 0, 0, 0, 0, 0, 0, 0, 0, 0, 0, 0, 0,
   7, 0, 8, 0, 0, 1, 0, 0, 32, 32, 0, 0, 9, 0, 11, 0, 52, 18, 120, 86, 0, 1, 0, 0, 0, 0, 0, 0]

/-- Slot A holds the image. -/
def flashed (s : State) : State := s.modNvm fun n => { n with flash := SMap.setSeq flashReset 1 [] 0 image }

/-- A loader about to judge slot A, then slot B. -/
def loading : State := flashed ((ladder .loader).modNvm fun n => { n with order := [.a, .b] })

/-- A queue of events with room, its pages in place. -/
def filled : State := storeFill up


/-! ### Well-formed commands -/

theorem test_wf_voltages : (Instr.wf (.vinUvlo 100000) && !Instr.wf (.vinUvlo 100001) && !Instr.wf (.vinOvervoltage 100001) &&
    !Instr.wf (.bellRing 100001) && !Instr.wf (.bellClear 100001 0) && !Instr.wf (.vin36vCrossing true 100001) &&
    !Instr.wf (.supplyGoodEval 100001 0 0 .rp15 0) && Instr.wf (.ccOvp 0 58000) && !Instr.wf (.ccOvp 0 58001) &&
    !Instr.wf (.sbuOvp 0 58001)) = true := by decide
theorem test_wf_lengths : (Instr.wf (.pdSourceCapsRx 0 false true (List.replicate 11 0)) &&
    !Instr.wf (.pdSourceCapsRx 0 false false (List.replicate 8 0)) && !Instr.wf (.pdSourceCapsRx 0 false false []) &&
    !Instr.wf (.pdCableIdentityRx 0 (List.replicate 8 0)) && Instr.wf (.ttStartSplit 0 .bulk true 0 0 (List.replicate 64 0) true) &&
    !Instr.wf (.ttStartSplit 0 .bulk true 0 0 (List.replicate 65 0) true) &&
    !Instr.wf (.ttPeriodicStartSplit 0 true true 0 0 (List.replicate 189 0)) &&
    !Instr.wf (.ttTransactionEnd 0 .ack false (List.replicate 1024 0)) && !Instr.wf (.efnVendorWrite 0 0 4 (List.replicate 5 0)) &&
    !Instr.wf (.efnVendorKeyedWrite 0 0 8 (List.replicate 9 0)) && !Instr.wf (.efnBulkOut 1 (List.replicate 513 0)) &&
    !Instr.wf (.meterSample [] []) && Instr.wf (.meterSample (List.replicate 21 0) (List.replicate 21 0)) &&
    !Instr.wf (.flashHeadersRead 0 [(0x1000000, 0)])) = true := by decide
theorem test_wf_frames : (Instr.wf (.cadSyncRx PU (mkFrame 1 0 0 0xF 0 1 0 [] ++ [0, 0, 0, 0])) &&
    !Instr.wf (.cadSyncRx PU (mkFrame 2 0 0 0xF 0 1 0 [] ++ [0, 0, 0, 0])) && !Instr.wf (.cadDelayReqRx 0 []) &&
    !Instr.wf (.cadDelayRespRx PU []) && !Instr.wf (.cadBellRx PU []) && !Instr.wf (.cadEchoRx 0 []) &&
    !Instr.wf (.registerWrite .usb 2 0) && !Instr.wf (.w1cWrite .usb 1 0) && Instr.wf (.w1cWrite .usb 4 0)) = true := by decide
theorem test_no_words : decodeTableWord 32 7 = none ∧ State.withFetchWord up 32 7 = up := ⟨rfl, rfl⟩

/-! ### Start and resets (01, 02) -/

theorem test_supply_good : outTest (exec (.supplyGoodEval 48000 0 0 .rp15 5) State.reset) (fun u =>
    u.glb.phase == .ldos && u.glb.straps == 5 && u.pwr.vaux == .buck && u.rd F.GLB_RST_CAUSE_CAUSE == 1) = true := by decide +kernel
theorem test_supply_pu : outTest (exec (.supplyGoodEval 0 5000 0 .rp15 5) State.reset) (fun u =>
    u.pwr.vaux == .puVbus && u.rd F.GLB_RST_CAUSE_CAUSE == 2) = true := by decide +kernel
theorem test_supply_vtan : outTest (exec (.supplyGoodEval 0 4399 5000 .rp30 5) State.reset) (fun u =>
    u.pwr.vaux == .vtan && u.rd F.GLB_RST_CAUSE_CAUSE == 3) = true := by decide +kernel
theorem test_reset_n : (up.canonical && up.aonUp) = true ∧ outTest (exec .resetNLow up) (fun u =>
    u.glb.phase == .ldos && u.rd F.GLB_RST_CAUSE_CAUSE == 4 && u.rd F.GLB_RST_CAUSE_PORT == 0xFF) = true := by decide +kernel
theorem test_brownout : (up.supplyNow != .none) = true ∧ outTest (exec .vaux5Brownout up) (fun u =>
    u.glb.phase == .ldos && u.rd F.GLB_RST_CAUSE_CAUSE == 5) = true := by decide +kernel
theorem test_brownout_dark : let s := up.modFeed fun x => { x with vin := 0 }
    (s.aonUp && s.supplyNow == .none && !s.feed.tandem) = true ∧ outTest (exec .vaux5Brownout s) (fun u =>
    u.glb.phase == .unpowered && u.rd F.GLB_RST_CAUSE_CAUSE == 5) = true := by decide +kernel
theorem test_ldos : wit true .internalLdosReady (ladder .ldos) (fun u => u.glb.phase == .x24 && u.pwr.x24Run) = true := by decide +kernel
theorem test_x24 : wit true .x24Ready ((ladder .x24).modPwr fun p => { p with x24Ready := false })
    (fun u => u.glb.phase == .vddc && u.pwr.pmbCtrl) = true := by decide +kernel
theorem test_x24_stop : wit (up.coreUp && up.pwr.x24Run) .x24Stop up (fun u => u.flt.x24Stop && !u.pwr.x24Ready &&
    u.flt.recovery) = true := by decide +kernel
theorem test_x32 : wit up.aonUp .x32CrystalFail up (fun u => u.tim.x32Rc && bitOf (u.reg R.TIM_EVT) 9) = true := by decide +kernel
theorem test_vddc : wit true (.vddcTurnOnDone .ok) (ladder .vddc) (fun u => u.glb.phase == .fill && u.pwr.vddcOn) = true := by
  decide +kernel
theorem test_vddc_fails : wit ((ladder .vddc).canonical && vddcCause .noPowerGood == some .vddcPg) (.vddcTurnOnDone .noPowerGood) (ladder .vddc)
    (fun u => u.glb.phase == .x24 && u.rd F.PWR_WAKE_REC_FAIL_CAUSE == 2) = true := by decide +kernel
theorem test_fill : wit true .storeFillDone (ladder .fill) (fun u => u.glb.phase == .loader && u.sto.fillDone) = true := by decide +kernel
theorem test_headers : wit true (.flashHeadersRead 0xEF4018 []) (ladder .loader) (fun u => u.nvm.jedec == 0xEF4018 &&
    u.glb.causeDone) = true := by decide +kernel
theorem test_no_flash : wit true (.flashHeadersRead 0 []) (ladder .loader) (fun u => u.glb.phase == .converters) = true := by decide +kernel
theorem test_slot_signed : let s := loading.modNvm fun n => { n with otp := [(0, 1)] }
    wit (slotCheck1 s .a == 0 && s.signedMode) .slotValidated s (fun u => u.glb.phase == .signature) = true := by decide +kernel
theorem test_slot_bad : let s := (ladder .loader).modNvm fun n => { n with order := [.a, .b] }
    wit (slotCheck1 s .a == 1 && s.canonical) .slotValidated s (fun u => u.nvm.order == [.b] &&
      u.rd F.NVM_LOAD_A_RESULT == 1) = true := by decide +kernel
theorem test_slot_good : wit (slotCheck1 loading .a == 0 && !loading.signedMode && slotCheck3 loading .a == 0) .slotValidated
    loading (fun u => u.glb.phase == .converters && u.img.applied) = true := by decide +kernel
theorem test_signature_bad : let s := { loading with glb := { loading.glb with phase := .signature } }
    let s := s.modNvm fun n => { n with otp := [(0, 1)] }
    wit (slotCheck2 s .a == 6 && s.canonical) .signatureVerified s (fun u => u.nvm.order == [.b] && u.glb.phase == .loader &&
      u.rd F.NVM_LOAD_A_RESULT == 6) = true := by decide +kernel
theorem test_signature_good : let s := { loading with glb := { loading.glb with phase := .signature } }
    wit (slotCheck2 s .a == 0 && slotCheck3 s .a == 0) .signatureVerified s (fun u => u.glb.phase == .converters) = true := by
  decide +kernel
theorem test_ladder_end : wit (!(ladder .converters).offsPending) .ladderConvertersOff (ladder .converters)
    (fun u => u.glb.phase == .up && u.glb.levelSet && u.glb.level == 0) = true := by decide +kernel
/-- Level 1 with feed FA ACTIVE. -/
def onFeed : State := up.modFeed fun x => { x with sel := some .fa, fa := { x.fa with st := .active, gate := .full } }
theorem test_level2 : wit onFeed.level2Ok .levelUpTo2 onFeed (fun u => u.glb.level == 2) = true := by decide +kernel
theorem test_bridge : wit true .bridgeModeEnd (up.modDyn fun d => { d with bridge := true })
    (fun u => !u.dyn.bridge && u.pwr.vaux == .buck) = true := by decide +kernel
theorem test_no_epr : let s := up.modDyn fun d => { d with step := .req5 }
    wit s.dynRuns .dynNoEpr s (fun u => !u.dynRuns) = true := by decide +kernel
theorem test_nvm_read : wit ((unlocked.reaches .usb R.NVM_CMD) && !unlocked.nvmRefuses) (.nvmRead .usb 0)
    (unlocked.wr F.NVM_LEN_LEN 16) (fun u => u.nvm.op == some (.read 0 16)) = true := by decide +kernel
theorem test_nvm_program : wit (unlocked.reaches .usb R.NVM_CMD) (.nvmProgram .usb 0) (unlocked.wr F.NVM_LEN_LEN 16)
    (fun u => match u.nvm.op with | some (.program 0 l) => l.length == 16 | _ => false) = true := by decide +kernel
theorem test_nvm_erase4k : wit true (.nvmErase4k .usb 0) (unlocked.wr F.NVM_ADDR_ADDR 0x1234)
    (fun u => u.nvm.op == some (.erase 0x1000 4096)) = true := by decide +kernel
theorem test_nvm_erase64k : wit true (.nvmErase64k .usb 0) (unlocked.wr F.NVM_ADDR_ADDR 0x11234)
    (fun u => u.nvm.op == some (.erase 0x10000 65536)) = true := by decide +kernel
theorem test_nvm_verify : wit true (.nvmVerifySlot .usb 0x100) unlocked (fun u => u.nvm.op == some (.verifySlot .b)) = true := by
  decide +kernel
theorem test_nvm_id : wit true (.nvmReadId .usb 0) unlocked (fun u => u.nvm.op == some .readId) = true := by decide +kernel
theorem test_nvm_otp : wit true (.nvmOtpProgram .usb 0) unlocked (fun u => u.nvm.op.isSome) = true := by decide +kernel
theorem test_nvm_bad : wit true (.nvmBadOp .usb 0) unlocked (fun u => u.nvm.op == none && u.rd F.NVM_STATUS_RESULT == 5) = true := by
  decide +kernel
theorem test_nvm_key : wit (!(up.usbP.lockOpen)) (.nvmReadId .usb 0) up (fun u => u.nvm.op == none) = true := by decide +kernel
/-- A flash operation runs. -/
def flashing (o : NvmOp) : State := flashed (up.modNvm fun n => { n with op := some o })
theorem test_program_done : wit true (.nvmOpDone 0 0) (flashing (.program 0 [0x0F])) (fun u => u.nvm.op == none &&
    u.flashByte 0 == 0x05 && u.flashByte 1 == 0x4A) = true := by decide +kernel
theorem test_erase_done : wit true (.nvmOpDone 0 0) (flashing (.erase 0 4096)) (fun u => u.nvm.op == none &&
    u.nvm.flash == []) = true := by decide +kernel
theorem test_otp_done : wit true (.nvmOpDone 0 1) (flashing (.otpProgram 3 5)) (fun u => u.otpWord 3 == 4 &&
    u.rd F.NVM_STATUS_RESULT == 3) = true := by decide +kernel
theorem test_verify_done : wit (flashing (.verifySlot .a)).canonical (.nvmOpDone 0 0) (flashing (.verifySlot .a))
    (fun u => u.rd F.NVM_STATUS_VERDICT == 0 && u.rd F.NVM_STATUS_RESULT == 0) = true := by decide +kernel
theorem test_id_done : wit true (.nvmOpDone 0xEF4018 0) (flashing .readId) (fun u => u.nvm.jedec == 0xEF4018) = true := by decide +kernel
theorem test_read_done : wit true (.nvmOpDone 0 0) (flashing (.read 0 4)) (fun u => u.nvm.op == none) = true := by decide +kernel
theorem test_nvm_timeout : wit (NvmOp.timed (.erase 0 4096)) .nvmOpTimeout (flashing (.erase 0 4096)) (fun u =>
    u.nvm.op == none && u.rd F.NVM_STATUS_RESULT == 2) = true := by decide +kernel
theorem test_cause_written : let s := up.modNvm fun n => { n with causePend := some 3 }
    wit (s.causeBlank == some 0) .causeRecordProgrammed s (fun u => u.nvm.causePend == none &&
      u.flashBytes causeBase 5 == [0x45, 0x4A, 0x48, 0x52, 3]) = true := by decide +kernel
/-- A cause area with 192 places used. -/
def fullCause : State := up.modNvm fun n => { n with flash := (List.range 192).map fun k => (causeBase + 16 * k, 0) }
theorem test_cause_erase : wit fullCause.causeEraseDue .causeAreaEraseStart fullCause (fun u => u.nvm.causeErase) = true := by
  decide +kernel
theorem test_cause_erased : wit true .causeAreaEraseDone (fullCause.modNvm fun n => { n with causeErase := true })
    (fun u => !u.nvm.causeErase && u.nvm.flash == []) = true := by decide +kernel
theorem test_retention_reload : let s := (flashed up).modNvm fun n => { n with active := some .a }
    let s := s.modPwr fun p => { p with reload := 2 }
    wit (s.coreUp && s.reloadSlot.isSome) (.retentionReloadDone 1) s (fun u => u.pwr.reload == 0) = true := by decide +kernel
theorem test_nvm_busy : let s := flashing (.erase 0 4096)
    (s.nvmRefuses && (nvmCmd 1 s).rd F.NVM_STATUS_RESULT == 4 && s.canonical) = true := by decide +kernel
theorem test_nvm_protected : let s := up.modNvm fun n => { n with active := some .a }
    (!s.nvmRefuses && s.inActive 0 4096 && (nvmCmd 3 s).rd F.NVM_STATUS_RESULT == 1) = true := by decide +kernel
theorem test_nvm_tandem : let s := up.modFeed fun x => { x with tandem := true }
    (!s.nvmRefuses && (nvmCmd 2 s).rd F.NVM_STATUS_RESULT == 7) = true := by decide +kernel

/-! ### Feeds (03_feeds.md) -/

/-- Feed `f` in a state, its pair's gate as given. -/
def feedIn (f : FeedId) (st : FeedState) (g : Gate) (s : State) : State :=
  let s := s.modLine f fun l => { l with st := st, gate := g, inWindow := true }
  if st == .active then s.modFeed fun x => { x with sel := some f } else s
/-- Level 1, FA drives the bus. -/
def fed : State := feedIn .fa .active .full up
/-- FA is being turned off for FB. -/
def moving : State := (feedIn .fb .ready .off fed).modFeed fun x => { x with switching := true, old := some .fa }
theorem test_window : wit (up.aonUp && (up.line .fa).st == .absent && up.mayQualify .fa) (.feedWindowEnter .fa) up
    (fun u => (u.line .fa).st == .qualifying && (u.line .fb).st == .absent) = true := by decide +kernel
theorem test_window_exit : let s := feedIn .fb .ready .off up
    wit true (.feedWindowExit .fb) s (fun u => (u.line .fb).st == .absent) = true := by decide +kernel
theorem test_window_exit_active : wit true (.feedWindowExit .fa) fed (fun u => (u.line .fa).st == .active &&
    !(u.line .fa).inWindow) = true := by decide +kernel
theorem test_qualified : wit true (.feedQualified .fb) (feedIn .fb .qualifying .off fed)
    (fun u => (u.line .fb).st == .ready && (u.line .fa).st == .active) = true := by decide +kernel
theorem test_revert : let s := (feedIn .fa .ready .off (feedIn .fb .active .full up)).wr F.FEED_CTRL_REVERT 1
    wit (s.activeFeed == some .fb && s.feedRank .fa < s.feedRank .fb && !s.feed.switching && s.rd F.FEED_CTRL_REVERT != 0)
      (.feedRevertExpire .fa) s (fun u => u.feed.switching && u.feed.old == some .fb) = true := by decide +kernel
theorem test_uvlo : wit (fed.aonUp && fed.activeFeed == some .fa) (.vinUvlo 30999) fed
    (fun u => u.feed.vin == 30999 && u.feed.switching && u.feed.oldNext == .absent) = true := by decide +kernel
theorem test_uvlo_dark : wit (up.aonUp && up.activeFeed == none && up.feed.failed == none && !up.feed.switching &&
    !up.feed.totalLoss) (.vinUvlo 30999) up (fun u => u.feed.totalLoss && bitOf (u.reg R.FEED_EVT) 3) = true := by
  decide +kernel
theorem test_reverse : wit true .feedReverseCurrent fed (fun u => (u.line .fa).gate != .full) = true := by decide +kernel
theorem test_brownout_hold : let s := (feedIn .fb .ready .off fed).modFeed fun x => { x with below36 := true }
    let t := levelDown (rdTrack (s.modFeed fun x => { x with below36Held := true }))
    wit (t.activeFeed == some .fa && t.feedPick == some .fb) .vinBrownoutHoldExpire s
      (fun u => u.feed.switching && u.feed.old == some .fa) = true := by decide +kernel
theorem test_36v : wit fed.aonUp (.vin36vCrossing true 36000) fed (fun u => !u.feed.below36 && u.pwr.vaux == .buck) = true := by
  decide +kernel
theorem test_36v_down : wit true (.vin36vCrossing false 35999) fed (fun u => u.feed.below36) = true := by decide +kernel
theorem test_feed_cooldown : wit true (.feedCooldownExpire .fa) ((feedIn .fa .tripped .off up).modLine .fa fun l =>
    { l with inWindow := false }) (fun u => (u.line .fa).st == .absent) = true := by decide +kernel
theorem test_feed_unlock : let s := feedIn .fa .locked .off unlocked
    wit (s.reaches .usb R.FEED_UNLOCK && s.usbP.lockOpen) (.feedUnlock .usb 1) s
      (fun u => (u.line .fa).st == .absent) = true := by decide +kernel
theorem test_old_off : wit true .switchoverOldOff moving (fun u => (u.line .fb).st == .active && (u.line .fb).gate == .charging) =
    true := by decide +kernel
theorem test_confirm : wit true (.switchoverConfirmTimeout true) moving (fun u => (u.line .fa).st == .locked &&
    u.feed.failed == some .fa) = true := by decide +kernel
theorem test_confirm_dark : wit true (.switchoverConfirmTimeout false) moving (fun u => (u.line .fa).st == .locked &&
    u.feed.totalLoss) = true := by decide +kernel
theorem test_conducts : let s := feedIn .fa .active .charging up
    wit (!s.breaking) (.feedPairConducts .fa) s (fun u => (u.line .fa).gate == .conducting) = true := by decide +kernel
theorem test_full : let s := feedIn .fa .active .conducting up
    wit (!s.breaking) (.feedPairFullyOn .fa) s (fun u => (u.line .fa).gate == .full) = true := by decide +kernel
theorem test_live : let s := (feedIn .fa .active .charging up).modLine .fa fun l => { l with live := true }
    wit (!s.breaking) (.feedLiveTurnonTimeout .fa) s (fun u => u.feed.oldNext == .tripped &&
      (u.line .fa).cause == .gate) = true := by decide +kernel
theorem test_ramp_end : let s := feedIn .fa .active .charging up
    wit (!s.breaking) (.feedRampEnd .fa) s (fun u => (u.line .fa).rampEnded && (u.line .fa).gate == .conducting) = true := by
  decide +kernel
theorem test_gate_check : let s := feedIn .fa .active .conducting up
    wit (!s.breaking) (.feedGateCheckFail .fa) s (fun u => u.feed.switching && u.feed.oldNext == .locked &&
      (u.line .fa).cause == .gate) = true := by decide +kernel
theorem test_shorted : wit (fed.activeFeed == some .fa) (.feedShortedPass .fb) fed (fun u => (u.line .fb).st == .locked) = true := by
  decide +kernel
theorem test_feed_trip : wit (!fed.breaking) (.feedTrip .fa .brakeCurve) fed (fun u => u.feed.oldNext == .tripped) = true := by
  decide +kernel
theorem test_feed_trip_pu : wit true (.feedTrip .fc .fastTrip) (up.modPp PU fun x => { x with st := .on })
    (fun u => (u.port PU).pp.st == .tripped) = true := by decide +kernel
theorem test_overvoltage : wit (up.aonUp && !up.flt.vinOv) (.vinOvervoltage 78001) up (fun u => u.flt.vinOv &&
    u.flt.recovery) = true := by decide +kernel
theorem test_stress : exec (.vinOvervoltage 100001) up = .fault .stressBeyondRating := by rfl
theorem test_ring : wit (36499 < up.warnMv && up.aonUp) (.bellRing 36499) up (fun u => u.feed.bell &&
    bitOf (u.reg R.FEED_EVT) 0) = true := by decide +kernel
theorem test_bell_clear : let s := up.modFeed fun x => { x with bell := true }
    wit (s.warnMv + 1000 < 48000) (.bellClear 48000 7) s (fun u => !u.feed.bell && u.reg R.FEED_BELL_DUR == 7) = true := by
  decide +kernel
theorem test_degraded : wit true .degradedSet (up.modFeed fun x => { x with bell := true }) (fun u => u.feed.degraded) = true := by
  decide +kernel
theorem test_degraded_clear : wit true .degradedClear (up.modFeed fun x => { x with degraded := true })
    (fun u => !u.feed.degraded) = true := by decide +kernel
theorem test_tandem : let s := up.modFeed fun x => { x with totalLoss := true }
    wit (s.feedEn 3 && !s.puHolds) (.tandemEnter 4400) s (fun u => u.feed.tandem && u.pwr.vaux == .vtan) = true := by decide +kernel
theorem test_ft : wit up.aonUp (.ftPresentChange 4400) up (fun u => u.feed.ftPresent) = true := by decide +kernel
theorem test_ax_shorted : wit true (.axOffVsnsCheck 0 3000) (up.modAx 0 fun x => { x with offCheck := true })
    (fun u => (u.ax 0).st == .locked) = true := by decide +kernel
theorem test_ax_off : wit true (.axOffVsnsCheck 0 2999) (up.modAx 0 fun x => { x with offCheck := true })
    (fun u => (u.ax 0).st == .off && !(u.ax 0).offCheck) = true := by decide +kernel
theorem test_ax_pgood : wit true (.axPgoodRelease 1) (up.modAx 1 fun x => { x with st := .on, gateFull := true })
    (fun u => (u.ax 1).pgood) = true := by decide +kernel

/-! ### Power paths and meters (04_port_power_path.md) -/

/-- The path of port `p` in a state. -/
def pathIn (p : PortId) (st : PpState) (s : State := up) : State := s.modPp p fun x => { x with st := st }
def axIn (a : Fin 2) (st : PpState) : State := up.modAx a fun x => { x with st := st }
/-- P0 attached as a source whose converter may turn on. -/
def readyP : State :=
  let t : Target := { addr := 0x20, role := 0, required := false, st := .verified, exp := some (-9), confirmed := 5000 }
  let s := (fed.modPmb fun b => { b with targets := [t] }).modImg fun i => { i with enabled := 0xFFFF }
  ((s.modTc 0 fun t => { t with st := .attachedSrc }).modPd 0 fun d => { d with source := true }).modPp 0 fun x =>
    { x with call := true }
/-- A 48 V contract of PU, with FC about to drive the bus. -/
def readyU : State :=
  let s := up.modPd PU fun d => { d with contract := some { rdo := 0x50000000, mv := 48000, ma10 := 500, rated := 240000 } }
  s.modFeed fun x => { x with sel := some .fc, fc := { x.fc with st := .active } }
theorem test_ramp : wit (readyP.rampReady 0 5000) (.pathRampStart (.port 0) 5000) readyP (fun u => (u.port 0).pp.st == .ramp &&
    (u.port 0).pp.rampRef == 5000) = true := by decide +kernel
theorem test_ramp_pu : wit (readyU.rampReady PU 48000) (.pathRampStart (.port PU) 48000) readyU
    (fun u => (u.port PU).pp.st == .ramp) = true := by decide +kernel
theorem test_ax_ramp : let s := fed.wr F.FEED_CTRL_ENABLE 0x3F
    wit (s.axRampReady 1) (.pathRampStart (.ax 1) 0) s (fun u => (u.ax 1).st == .ramp) = true := by decide +kernel
theorem test_ramp_done : wit true (.pathRampDone (.port 1)) (pathIn 1 .ramp) (fun u => (u.port 1).pp.st == .on) = true := by
  decide +kernel
theorem test_ramp_done_pu : wit (up.dyn.step != .ramp) (.pathRampDone (.port PU)) (pathIn PU .ramp)
    (fun u => (u.port PU).pp.st == .on) = true := by decide +kernel
theorem test_ax_ramp_done : wit true (.pathRampDone (.ax 0)) (axIn 0 .ramp) (fun u => (u.ax 0).st == .on) = true := by
  decide +kernel
theorem test_limit : wit true (.pathLimitEnter (.port 2)) (pathIn 2 .on) (fun u => (u.port 2).pp.st == .limit &&
    bitOf (u.reg (R.PP_EVT 2)) 2) = true := by decide +kernel
theorem test_ax_limit : wit true (.pathLimitEnter (.ax 1)) (axIn 1 .on) (fun u => (u.ax 1).st == .limit) = true := by
  decide +kernel
theorem test_limit_exit : wit true (.pathLimitExit (.port 2)) (pathIn 2 .limit) (fun u => (u.port 2).pp.st == .on) = true := by
  decide +kernel
theorem test_ax_limit_exit : wit true (.pathLimitExit (.ax 1)) (axIn 1 .limit) (fun u => (u.ax 1).gateFull) = true := by
  decide +kernel
theorem test_retries : wit true (.retryCountReset (.port 3)) ((pathIn 3 .on).modPp 3 fun x => { x with retries := 2 })
    (fun u => (u.port 3).pp.retries == 0) = true := by decide +kernel
theorem test_ax_retries : wit true (.retryCountReset (.ax 0)) ((axIn 0 .on).modAx 0 fun x => { x with retries := 2 })
    (fun u => (u.ax 0).retries == 0) = true := by decide +kernel
theorem test_backoff : wit true (.backoffExpire (.port 3)) (pathIn 3 .cooldown) (fun u => (u.port 3).pp.backoffDone) = true := by
  decide +kernel
theorem test_ax_backoff : wit true (.backoffExpire (.ax 0)) (axIn 0 .cooldown) (fun u => (u.ax 0).backoffDone) = true := by
  decide +kernel
theorem test_fast_trip : wit true (.pathFastTrip (.port 0)) (pathIn 0 .on) (fun u => (u.port 0).pp.st == .tripped) = true := by
  decide +kernel
theorem test_ax_fast_trip : wit true (.pathFastTrip (.ax 0)) (axIn 0 .on) (fun u => (u.ax 0).st == .tripped &&
    (u.ax 0).offCheck) = true := by decide +kernel
theorem test_brake : wit (up.brkTh (.port 0) 0 != 0) (.brakeTimerExpire (.port 0) 0) (pathIn 0 .on)
    (fun u => (u.port 0).pp.st == .tripped) = true := by decide +kernel
theorem test_brake_unused : let s := (pathIn 0 .on).setReg (R.PP_BRK 0 0) 0
    wit (s.brkTh (.port 0) 0 == 0) (.brakeTimerExpire (.port 0) 0) s (fun u => (u.port 0).pp.st == .on) = true := by decide +kernel
theorem test_soa : wit true (.soaBudgetExhausted (.port 0)) (pathIn 0 .limit) (fun u => (u.port 0).pp.st == .tripped) = true := by
  decide +kernel
theorem test_ramp_timeout : wit true (.rampTimeout 4) (pathIn 4 .ramp) (fun u => (u.port 4).pp.st == .tripped) = true := by
  decide +kernel
theorem test_overshoot : wit true (.rampOvershoot 4) (pathIn 4 .ramp) (fun u => (u.port 4).pp.st == .locked) = true := by
  decide +kernel
theorem test_gate_fail : wit true (.gateCheckFail 4) ((pathIn 4 .on).modPp 4 fun x => { x with gateCheck := true })
    (fun u => (u.port 4).pp.st == .locked && bitOf (u.reg (R.PP_EVT 4)) 4) = true := by decide +kernel
theorem test_output : let s := up.modPp 4 fun x => { x with check := true }
    wit (!s.ppSuppress 4) (.outputPresentFail 4) s (fun u => (u.port 4).pp.st == .locked &&
      bitOf (u.reg (R.PP_EVT 4)) 5) = true := by decide +kernel
theorem test_discharged_locks : let s := (pathIn 4 .tripped).modPp 4 fun x => { x with counted := true, retries := 15 }
    wit (s.rd (F.PP_CTRL_RETRY_CNT 4) ≤ 15) (.pathDischarged (.port 4)) s (fun u => (u.port 4).pp.st == .locked) = true := by
  decide +kernel
theorem test_discharged_cools : let s := (pathIn 4 .tripped).modPp 4 fun x => { x with counted := false }
    wit (!(s.port 4).pp.offPend && (s.conv 4).isNone) (.pathDischarged (.port 4)) s
      (fun u => (u.port 4).pp.st == .cooldown) = true := by decide +kernel
theorem test_ax_discharged : wit true (.pathDischarged (.ax 0)) (axIn 0 .tripped) (fun u => (u.ax 0).st == .off) = true := by
  decide +kernel
theorem test_unlock : let s := pathIn 4 .locked unlocked
    wit (s.reaches .usb (R.PP_UNLOCK 4) && s.usbP.lockOpen) (.ppUnlock .usb 4 0) s (fun u => (u.port 4).pp.st == .off) = true := by
  decide +kernel
theorem test_sample : wit (up.pwr.afeOn && up.coreUp) (.meterSample (List.replicate 21 1000) (List.replicate 21 250)) up
    (fun u => u.mt.m[0] != up.mt.m[0] && u.mt.m[20] != up.mt.m[20]) = true := by decide +kernel
theorem test_sample_off : wit true (.meterSample (List.replicate 21 1000) (List.replicate 21 250))
    (up.modPwr fun x => { x with afeOn := false }) (fun u => u.mt == up.mt) = true := by decide +kernel
theorem test_snapshot : wit true .snapshotTaken (up.modMt fun x => { x with snapPend := 1 }) (fun u => u.mt.snapPend == 0) = true := by
  decide +kernel
theorem test_energy : let s := up.modMt fun x => { x with m := x.m.set 0 { x.m[0] with energy := 0x500000007 } }
    wit (s.reaches .usb (mtBase 0 + 0x18)) (.mtELoRead .usb 0) s (fun u => u.usbP.latch == [(mtBase 0 + 0x1C, 5)]) = true := by
  decide +kernel
theorem test_meter_tick : let s := (up.wr F.EFN_MTR_CTRL_EN 1).wr F.EFN_MTR_CTRL_TICK 1
    wit s.coreUp .meterTick s (fun u => u.rd F.EFN_MTR_STAT_TICKSEQ == 1) = true := by decide +kernel

/-! ### Type-C (05_typec_attach.md) -/

/-- Type-C state `st` of a port, with terminations seen, where a port may source. -/
def tcIn (p : PortId) (st : TcState) (a b : CcTerm) : State :=
  let c : Target := { addr := 0x21, role := 3, required := false, st := .verified, exp := some (-9), confirmed := 5000 }
  let s := readyP.modPmb fun b => { b with targets := b.targets ++ [c] }
  (s.modFeed fun x => { x with rdRule := false }).modTc p fun t => { t with st := st, cc1 := a, cc2 := b }
def tcSt (u : State) (p : PortId) : TcState := (u.port p).tc.st
theorem test_cc_snk : let s := tcIn 0 .unattachedSnk .open .open
    wit s.tcUp (.tcCcChange 0 .rp30 .open) s (fun u => tcSt u 0 == .attachWaitSnk) = true := by decide +kernel
theorem test_cc_try : let s := tcIn 0 .trySrc .open .open
    wit s.tcUp (.tcCcChange 0 .open .rd) s (fun u => tcSt u 0 == .attachedSrc) = true := by decide +kernel
theorem test_toggle : let s := tcIn 0 .unattachedSnk .open .open
    wit (s.tcUp && !s.rdAlone 0) (.tcDrpToggle 0) s (fun u => tcSt u 0 == .unattachedSrc) = true := by decide +kernel
theorem test_toggle_back : wit true (.tcDrpToggle 0) (tcIn 0 .unattachedSrc .open .open)
    (fun u => tcSt u 0 == .unattachedSnk) = true := by decide +kernel
theorem test_debounce_src : let s := tcIn 0 .attachWaitSrc .rd .open
    wit (s.tcUp && sinkSeen (s.port 0).tc) (.tcCcDebounceExpire 0 799) s (fun u => tcSt u 0 == .attachedSrc) = true := by
  decide +kernel
theorem test_debounce_snk : let s := (tcIn PU .attachWaitSnk .open .rp15)
    wit (s.tcUp && sourceSeen (s.port PU).tc) (.tcCcDebounceExpire PU 4000) s (fun u => tcSt u PU == .attachedSnk) = true := by
  decide +kernel
theorem test_debounce_try : let s := (tcIn 3 .attachWaitSnk .open .rp15).wr (F.TC_CTRL_TRY_EN 3) 1
    wit (s.tcUp && sourceSeen (s.port 3).tc && s.tries 3 && !s.rdAlone 3) (.tcCcDebounceExpire 3 4000) s
      (fun u => tcSt u 3 == .trySrc) = true := by decide +kernel
theorem test_try_expire : wit true (.tcDrpTryExpire 3) (tcIn 3 .trySrc .open .open) (fun u => tcSt u 3 == .tryWaitSnk) = true := by
  decide +kernel
theorem test_try_timeout : wit true (.tcTryTimeout 3) (tcIn 3 .trySnk .open .open) (fun u => tcSt u 3 == .tryWaitSrc) = true := by
  decide +kernel
theorem test_try_wait : wit true (.tcDrpTryWaitExpire 3) (tcIn 3 .tryWaitSrc .open .open)
    (fun u => tcSt u 3 == .unattachedSnk) = true := by decide +kernel
theorem test_detach : let s := tcIn 3 .attachedSnk .open .open
    wit s.tcUp (.tcDetach 3) s (fun u => bitOf (u.reg (R.TC_EVT 3)) 1) = true := by decide +kernel
theorem test_vbus_late : let s := (tcIn 3 .attachedSrc .rd .open).modTc 3 fun t => { t with vbusCount := true }
    wit true (.vbusLate 3) s (fun u => tcSt u 3 == .errorRecovery) = true := by decide +kernel
theorem test_error_recovery : wit true (.tcErrorRecoveryExpire 3) (tcIn 3 .errorRecovery .open .open)
    (fun u => tcSt u 3 == .unattachedSnk) = true := by decide +kernel
theorem test_tc_cmd : let s := tcIn 3 .attachedSrc .rd .open
    wit (s.reaches .usb (R.TC_CMD 3)) (.tcCmdErrRecovery .usb 3 0) s (fun u => tcSt u 3 == .errorRecovery) = true := by
  decide +kernel
theorem test_deep_poll : let s := up.modPwr fun x => { x with st := .deep }
    wit true (.deepCcPoll 4 .rd .open) s (fun u => bitOf (u.reg R.PWR_WAKE_SRC) 5) = true := by decide +kernel
theorem test_vconn_oc : let s := (tcIn 3 .attachedSrc .rd .ra).modTc 3 fun t => { t with vconn := true, cableRa := true }
    wit (s.vconnLatest == some 3) .vconnTotalOc s (fun u => !(u.port 3).tc.vconn && (u.port 3).tc.vconnLost) = true := by
  decide +kernel
theorem test_vconn_oc_port : let s := (tcIn 3 .attachedSrc .rd .ra).modTc 3 fun t => { t with vconn := true, cableRa := true }
    wit true (.vconnOc 3) s (fun u => (u.port 3).tc.vconnLost) = true := by decide +kernel
theorem test_cc_ovp : let s := tcIn 3 .attachedSrc .rd .open
    wit s.tcUp (.ccOvp 3 6001) s (fun u => tcSt u 3 == .ccFault && bitOf (u.reg (R.TC_EVT 3)) 5) = true := by decide +kernel
theorem test_cc_stress : exec (.ccOvp 3 58001) up = .fault .stressBeyondRating := by rfl
theorem test_cc_ovp_clear : wit true (.ccOvpClear 3) (tcIn 3 .ccFault .open .open) (fun u => tcSt u 3 != .ccFault) = true := by
  decide +kernel
theorem test_sbu_ovp : let s := tcIn 3 .attachedSrc .rd .open
    wit (s.tcUp && !(s.port 3).cl.sbuOff) (.sbuOvp 3 58000) s (fun u => (u.port 3).cl.sbuOff) = true := by decide +kernel
theorem test_sbu_stress : exec (.sbuOvp 3 58001) up = .fault .stressBeyondRating := by rfl
theorem test_sbu_clear : wit true (.sbuOvpClear 3) (up.modCl 3 fun l => { l with sbuOff := true })
    (fun u => !(u.port 3).cl.sbuOff) = true := by decide +kernel
theorem test_moist_due : let s := (tcIn 3 .unattachedSnk .open .open).wr (F.TC_CTRL_MOIST_EN 3) 1
    wit (s.tcUp && s.glb.levelSet && s.rdB (F.TC_CTRL_MOIST_EN 3)) (.moistTestDue 3) s (fun u => tcSt u 3 == .moistTest) = true := by
  decide +kernel
theorem test_moist_cmd : let s := tcIn 3 .unattachedSnk .open .open
    wit (s.reaches .usb (R.TC_CMD 3)) (.tcCmdMoistTest .usb 3 0) s (fun u => tcSt u 3 == .moistTest) = true := by decide +kernel
theorem test_moist_done : wit (moistWet 2000000 2000000 499999 2000000) (.moistTestDone 3 2000000 2000000 499999 2000000)
    (tcIn 3 .moistTest .open .open) (fun u => (u.port 3).tc.wetCnt == 1 || (u.port 3).tc.mstate == .wet) = true := by
  decide +kernel
theorem test_mass_clear : let s := { up with mass := { up.mass with active := true }, tim := { up.tim with tb3 := 0x2000000 } }
    wit s.massClearDue .massWetClear s (fun u => !u.mass.active) = true := by decide +kernel

/-! ### Power Delivery (06_pd_engine.md) -/

/-- P0 as source at PD 3.x with a 5 V contract, what it advertised in place. -/
def srcP : State := (tcIn 0 .attachedSrc .rd .ra).modPd 0 fun d =>
  { d with rev := 2, source := true, vconnSrc := true, st := .ready, grant := 15000, firstContract := true, discDone := true,
           contract := some { rdo := 0x1004B12C, mv := 5000, ma10 := 300, rated := 300 }, adv := d.adv.set 0 0x0801912C }
/-- PU, or another port, as sink at PD 3.x. -/
def snkP (p : PortId) : State := (tcIn p .attachedSnk .rp30 .open).modPd p fun d => { d with rev := 2, st := .ready }
/-- What a port is about to send. -/
def sends (u : State) (p : PortId) : List PdMsg := (u.port p).pd.tx
theorem test_get_caps : wit (srcP.pdUp 0) (.pdGetSourceCapRx 0 false) srcP (fun u => (sends u 0).length == 1) = true := by decide +kernel
theorem test_get_snk : wit (srcP.pdUp 0) (.pdGetSinkCapRx 0 false) srcP (fun u => sends u 0 == [.sinkCaps [pnSinkPdo]]) = true := by
  decide +kernel
theorem test_snk_caps : wit true (.pdSinkCapsRx 0 0x01800000) srcP (fun u => (u.port 0).pd.snkCapValid &&
    (u.port 0).pd.frsCur == 3) = true := by decide +kernel
theorem test_dr_swap : wit true (.pdDrSwapRx 0) srcP (fun u => sends u 0 == [.reject]) = true := by decide +kernel
theorem test_keepalive : wit true (.pdEprKeepaliveRx 0) srcP (fun u => sends u 0 == [.eprKeepAliveAck]) = true := by decide +kernel
theorem test_alert : wit true (.pdAlertRx 0 7) srcP (fun u => (u.port 0).pd.lastAlert == 7 && sends u 0 == []) = true := by
  decide +kernel
theorem test_alert_pu : wit ((snkP PU).pdUp PU) (.pdAlertRx PU 7) (snkP PU) (fun u => (u.port PU).pd.lastAlert == 7) = true := by
  decide +kernel
theorem test_get_status : wit true (.pdGetStatusRx 0) (srcP.modPd 0 fun d => { d with evFlags := 5 })
    (fun u => (u.port 0).pd.evFlags == 0 && (sends u 0).length == 1) = true := by decide +kernel
theorem test_source_info : wit true (.pdGetSourceInfoRx 0) srcP (fun u => (sends u 0).length == 1) = true := by decide +kernel
theorem test_revision : wit true (.pdGetRevisionRx 0) srcP (fun u => sends u 0 == [.revision]) = true := by decide +kernel
theorem test_src_ext : wit true (.pdGetSrcCapExtRx PU) (snkP PU) (fun u => sends u PU == [.notSupported]) = true := by decide +kernel
theorem test_snk_ext : wit true (.pdGetSnkCapExtRx 0) srcP (fun u => sends u 0 == [.snkCapsExt]) = true := by decide +kernel
theorem test_bist : wit true (.pdBistRx 0 true) srcP (fun u => (u.port 0).pd.bist == some true) = true := by decide +kernel
theorem test_unsupported : wit true (.pdUnsupportedRx 0) srcP (fun u => sends u 0 == [.notSupported]) = true := by decide +kernel
theorem test_unchunked : wit true (.pdUnchunkedExtRx 0) srcP (fun u => sends u 0 == [.notSupported]) = true := by decide +kernel
theorem test_ignored : wit true (.pdIgnoredRx 0) srcP (fun u => sends u 0 == []) = true := by decide +kernel
theorem test_sop2 : exec (.pdSop2Rx 0) srcP = .next (settled srcP) := by rfl
theorem test_svdm : let s := srcP.modImg fun i => { i with svid := none }
    wit (s.img.svid == none && bitsOf (0x12348001 : Word) 16 16 != 0xFF00) (.pdSvdmRx 0 0x12348001) s
      (fun u => (sends u 0).length == 1) = true := by decide +kernel
theorem test_epr_entered : let s := (snkP PU).modPd PU fun d => { d with await := some .eprEnter }
    wit true (.pdResponseRx PU .eprEnterSucceeded) s (fun u => (u.port PU).pd.epr && bitOf (u.reg (R.PD_EVT PU)) 9) = true := by
  decide +kernel
theorem test_revision_rx : wit true (.pdResponseRx 0 (.revision 0)) (srcP.modPd 0 fun d => { d with await := some .revision })
    (fun u => (u.port 0).pd.await == none) = true := by decide +kernel
theorem test_request : let s := srcP.modPd 0 fun d => { d with contract := none }
    let c := requestedContract (s.port 0).pd 0x1004B12C
    wit (s.pdAsked 0 && c == some { rdo := 0x1004B12C, mv := 5000, ma10 := 300, rated := 300 }) (.pdRequestRx 0 false 0x1004B12C)
      s (fun u => (sends u 0).contains .accept) = true := by decide +kernel
theorem test_request_bad : wit (srcP.pdAsked 0 && requestedContract (srcP.port 0).pd 0x2004B12C == none)
    (.pdRequestRx 0 false 0x2004B12C) srcP (fun u => sends u 0 == [.reject]) = true := by decide +kernel
theorem test_epr_request : wit (srcP.pdAsked 0) (.pdEprRequestRx 0 0x1004B12C 0x0801912D) srcP
    (fun u => sends u 0 == [.reject]) = true := by decide +kernel
theorem test_epr_request_same : wit (srcP.pdAsked 0) (.pdEprRequestRx 0 0x1004B12C 0x0801912C) srcP
    (fun u => (sends u 0).contains .accept) = true := by decide +kernel
/-- PU has sent a Request. -/
def asked : State := (snkP PU).modPd PU fun d => { d with await := some (.request 0x1004B12C), trans := some { new :=
  { rdo := 0x1004B12C, mv := 9000, ma10 := 300, rated := 300 } } }
theorem test_accepted : wit true (.pdAcceptRx PU) asked (fun u => (u.port PU).pd.st == .transition &&
    (u.port PU).pd.await == none) = true := by decide +kernel
theorem test_rejected : wit true (.pdRejectRx PU) asked (fun u => (u.port PU).pd.trans == none) = true := by decide +kernel
theorem test_waited : wit true (.pdWaitRx PU) asked (fun u => (u.port PU).pd.lastReq == some (.request 0x1004B12C)) = true := by
  decide +kernel
theorem test_ps_rdy : let c : Contract := { rdo := 0x1004B12C, mv := 5000, ma10 := 300, rated := 300 }
    let s := (snkP 3).modPd 3 fun d => { d with trans := some { new := c, commanded := true } }
    wit (s.pdUp 3) (.pdPsRdyRx 3) s (fun u => (u.port 3).pd.contract == some c && (u.port 3).pd.st == .ready) = true := by
  decide +kernel
theorem test_ps_rdy_vconn : wit true (.pdPsRdyRx 0) (srcP.modPd 0 fun d => { d with swap := .sentVconn })
    (fun u => !(u.port 0).pd.vconnSrc) = true := by decide +kernel
theorem test_soft_reset : wit true (.pdSoftResetRx PU) (snkP PU) (fun u => sends u PU == [.accept] &&
    bitOf (u.reg (R.PD_EVT PU)) 4) = true := by decide +kernel
theorem test_soft_reset_swap : wit true (.pdSoftResetRx 0) (srcP.modPd 0 fun d => { d with swap := .sentPr })
    (fun u => (sends u 0).contains .hardReset) = true := by decide +kernel
theorem test_hard_reset : wit (!srcP.feed.tandem) (.pdHardResetRx 0) srcP (fun u => (u.port 0).pd.contract == none) = true := by
  decide +kernel
theorem test_hard_reset_tandem : let s := srcP.modFeed fun x => { x with tandem := true }
    wit (s.pdUp 0) (.pdHardResetRx 0) s (fun u => u.rd F.GLB_RST_CAUSE_PORT == 0 || u.nvm.causePend == some 0) = true := by
  decide +kernel
theorem test_pr_swap_pu : wit true (.pdPrSwapRx PU) (snkP PU) (fun u => sends u PU == [.reject]) = true := by decide +kernel
theorem test_pr_swap : let s := (srcP.wr (F.PD_CTRL_PRS_ACCEPT 0) 1).modImg fun i => { i with tandemCap := 1 }
    wit (s.pdUp 0) (.pdPrSwapRx 0) s (fun u => sends u 0 == [.accept] && (u.port 0).pd.swap == .oldWaitAccept) = true := by
  decide +kernel
theorem test_vconn_swap : wit true (.pdVconnSwapRx 0) srcP (fun u => (sends u 0).contains .accept) = true := by decide +kernel
theorem test_fr_swap : wit true (.pdFrSwapRx 3) ((snkP 3).modPd 3 fun d => { d with swap := .frsSignal })
    (fun u => sends u 3 == [.accept] && (u.port 3).pd.swap == .frsAccepted) = true := by decide +kernel
theorem test_fr_swap_pu : wit true (.pdFrSwapRx PU) (snkP PU) (fun u => sends u PU == [.notSupported]) = true := by decide +kernel
theorem test_epr_enter : let s := (srcP.modImg fun i => { i with eprClass := 1 }).modBm fun b => { b with avail := 200000 }
    let s := ((s.wr (F.TC_CABLE_EPR_OK 0) 1).wr (F.PD_CTRL_EPR_EN 0) 1).wr (F.PD_CTRL_MAX_W 0) 240
    let s := (s.modGlb fun g => { g with level := 2 }).modPd 0 fun d =>
      { d with contract := some { rdo := 0x1044B12C, mv := 5000, ma10 := 300, rated := 300 }, adv := d.adv.set 0 0x0881912C }
    wit (s.eprPermitted 0) (.pdEprModeEnterRx 0) s (fun u => (u.port 0).pd.epr && bitOf (u.reg (R.PD_EVT 0)) 9) = true := by
  decide +kernel
theorem test_epr_exit : wit true (.pdEprModeExitRx PU) ((snkP PU).modPd PU fun d => { d with epr := true })
    (fun u => !(u.port PU).pd.epr && bitOf (u.reg (R.PD_EVT PU)) 10) = true := by decide +kernel
theorem test_source_caps : wit true (.pdSourceCapsRx 3 false false [0x0001912C]) (snkP 3) (fun u =>
    (u.port 3).pd.srcCaps == [0x0001912C] && (sends u 3).length == 1) = true := by decide +kernel
theorem test_source_caps_pu : wit true (.pdSourceCapsRx PU false false [0x0001912C]) (snkP PU) (fun u =>
    (u.port PU).pd.srcCaps == [0x0001912C] && (sends u PU).length == 1) = true := by decide +kernel
theorem test_goodcrc : wit true (.pdGoodcrcRx 0) (srcP.modPd 0 fun d => { d with tx := [.getSinkCap] })
    (fun u => sends u 0 == [] && (u.port 0).pd.await == some .getSinkCap) = true := by decide +kernel
theorem test_no_goodcrc_cable : wit true (.pdNoGoodcrc 0) (srcP.modPd 0 fun d => { d with tx := [.discoverCable] })
    (fun u => sends u 0 == []) = true := by decide +kernel
theorem test_no_goodcrc : wit true (.pdNoGoodcrc 0) (srcP.modPd 0 fun d => { d with tx := [.accept] })
    (fun u => (sends u 0).contains .softReset) = true := by decide +kernel
theorem test_response_timeout : wit srcP.coreUp (.pdSenderResponseTimeout 0) (srcP.modPd 0 fun d => { d with await := some .prSwap })
    (fun u => (sends u 0).contains .softReset) = true := by decide +kernel
theorem test_cable_retry : wit true (.pdCableDiscoverRetry 0) (srcP.modPd 0 fun d => { d with discCount := 3, discDone := false })
    (fun u => (u.port 0).pd.discCount == 4 && sends u 0 == [.discoverCable]) = true := by decide +kernel
theorem test_cable_end : wit true (.pdCableDiscoverRetry 0) (srcP.modPd 0 fun d => { d with discCount := 4, discDone := false })
    (fun u => (u.port 0).pd.discDone && u.rd (F.TC_CABLE_VALID 0) == 1) = true := by decide +kernel
theorem test_cable_identity : let d : DPort := ⟨0, by decide⟩
    wit srcP.coreUp (.pdCableIdentityRx d [0x18000000, 0, 0, 0x00000640]) (srcP.modPd 0 fun d =>
      { d with discCount := 1, discDone := false }) (fun u => u.rd (F.TC_CABLE_I_5A 0) == 1 && u.rd (F.TC_CABLE_V_50 0) == 1 &&
        u.rd (F.TC_CABLE_EMARKED 0) == 1) = true := by decide +kernel
theorem test_caps_repeat : wit true (.pdSendSourceCapRepeat 0) (srcP.modPd 0 fun d =>
    { d with contract := none, capsCount := 49, tx := [.sourceCaps []] }) (fun u => (u.port 0).pd.capsCount == 50) = true := by decide +kernel
theorem test_caps_end : wit true (.pdSendSourceCapRepeat 0) (srcP.modPd 0 fun d =>
    { d with contract := none, capsCount := 50, tx := [.sourceCaps []] }) (fun u => (u.port 0).pd.st == .implicit && sends u 0 == []) = true := by decide +kernel
/-- A change of P0's voltage to `mv`. -/
def changing (mv : Nat) (c : Bool) : State := 
  let n : Contract := { rdo := 0x2004B12C, mv := mv, ma10 := 300, rated := 300 }
  srcP.modPd 0 fun d => { d with st := .transition, trans := some { new := n, sent := c, commanded := c } }
theorem test_transition_same : wit ((srcP.port 0).pd.nowMv == 5000) (.pdSrcTransitionExpire 0) (changing 5000 false)
    (fun u => (u.port 0).pd.trans.map (·.commanded) == some true) = true := by decide +kernel
theorem test_transition : wit (srcP.conv 0 == some 0) (.pdSrcTransitionExpire 0) (changing 9000 false)
    (fun u => u.pmb.all.any fun t => t.cmd == .voutCommand 9000) = true := by decide +kernel
theorem test_settled : wit true (.pdTransitionSettled 0) (changing 9000 true)
    (fun u => (u.port 0).pd.contract.map (·.mv) == some 9000 && (sends u 0).contains .psRdy) = true := by decide +kernel
theorem test_trans_window : wit ((hardReset 0 (pdEvt 0 1 (changing 9000 true))).conv 0 == some 0) (.pdTransitionWindowExpire 0)
    (changing 9000 true) (fun u => bitOf (u.reg (R.PD_EVT 0)) 1) = true := by decide +kernel
theorem test_ps_hard_reset : wit true (.pdPsHardResetExpire 0) (srcP.modPd 0 fun d => { d with hrst := .psHardReset })
    (fun u => (u.port 0).pd.hrst == .discharge && (u.port 0).pp.st == .off) = true := by decide +kernel
theorem test_src_recover : wit true (.pdSrcRecoverExpire 0) (srcP.modPd 0 fun d => { d with hrst := .recover })
    (fun u => (u.port 0).pd.hrst == .none && (u.port 0).pp.call) = true := by decide +kernel
theorem test_keepalive_lost : wit srcP.coreUp (.pdEprKeepaliveExpire 0) (srcP.modPd 0 fun d => { d with epr := true })
    (fun u => bitOf (u.reg (R.PD_EVT 0)) 11) = true := by decide +kernel
theorem test_pu_keepalive : wit (snkP PU).coreUp .pdPuKeepaliveDue ((snkP PU).modPd PU fun d => { d with epr := true })
    (fun u => sends u PU == [.eprKeepAlive]) = true := by decide +kernel
theorem test_sink_tx : wit true (.pdSinkTxExpire 0) (srcP.modPd 0 fun d => { d with sinkTxNG := true, sinkTxPend := [.prSwap] })
    (fun u => sends u 0 == [.prSwap] && !(u.port 0).pd.sinkTxNG) = true := by decide +kernel
theorem test_sink_request : wit true .pdSinkRequestExpire ((snkP PU).modPd PU fun d => { d with lastReq := some (.request 5) })
    (fun u => sends u PU == [.request 5]) = true := by decide +kernel
theorem test_ps_source : wit true (.pdPsSourceTimeout 0) (srcP.modPd 0 fun d => { d with swap := .oldWaitPsRdy })
    (fun u => (sends u 0).contains .hardReset) = true := by decide +kernel
theorem test_frs_nomsg : wit true (.pdFrsNomsg 3) ((snkP 3).modPd 3 fun d => { d with swap := .frsSignal })
    (fun u => (u.port 3).pd.swap == .none && bitOf (u.reg (R.PD_EVT 3)) 8) = true := by decide +kernel
theorem test_withheld : let s := ((snkP PU).modPwr fun x => { x with vaux := .puVbus }).modPd PU fun d => { d with st := .softReset }
    wit s.puSole .pdHrstWithheld s (fun u => (u.port PU).pd.st != .hardReset) = true := by decide +kernel
theorem test_epr_exit_timeout : wit true (.pdEprExitTimeout 0) (srcP.modPd 0 fun d => { d with epr := true, eprExiting := true })
    (fun u => (sends u 0).contains .hardReset) = true := by decide +kernel
theorem test_below3 : wit true (.vbusThresholdCross 3 .below3) (up.modPp 3 fun x => { x with check := true })
    (fun u => !(u.port 3).pp.check) = true := by decide +kernel
theorem test_below08 : wit true (.vbusThresholdCross 0 .below08) (srcP.modPd 0 fun d => { d with hrst := .discharge })
    (fun u => (u.port 0).pd.hrst == .recover) = true := by decide +kernel
theorem test_safe5v : wit true (.vbusThresholdCross 3 .belowSafe5V) ((snkP 3).modPd 3 fun d => { d with swap := .frsAccepted })
    (fun u => (u.port 3).pd.swap != .frsAccepted) = true := by decide +kernel
theorem test_pd_cmd : wit (srcP.reaches .usb (R.PD_CMD 0) && srcP.pdUp 0) (.pdCmdSoftReset .usb 0 0) srcP
    (fun u => (sends u 0).contains .softReset) = true := by decide +kernel
theorem test_pd_cmd_hard : wit true (.pdCmdHardReset .usb 0 0) srcP (fun u => (sends u 0).contains .hardReset) = true := by
  decide +kernel
theorem test_pd_cmd_hard_tandem : let s := srcP.modFeed fun x => { x with tandem := true }
    wit true (.pdCmdHardReset .usb 0 0) s (fun u => bitOf (u.reg (R.PD_EVT 0)) 13) = true := by decide +kernel
theorem test_pd_cmd_swap : wit (srcP.pdFree 0) (.pdCmdPrSwap .usb 0 0) srcP (fun u => (u.port 0).pd.swap == .sentPr) = true := by
  decide +kernel
theorem test_pd_cmd_rejected : wit (!up.pdUp 0) (.pdCmdVconnSwap .usb 0 0) up (fun u => bitOf (u.reg (R.PD_EVT 0)) 13) = true := by
  decide +kernel
theorem test_pd_cmd_vconn : wit (srcP.pdFree 0) (.pdCmdVconnSwap .usb 0 0) srcP
    (fun u => (u.port 0).pd.sinkTxPend == [.vconnSwap]) = true := by decide +kernel
theorem test_pd_cmd_caps : wit (srcP.pdUp 0) (.pdCmdSendCaps .usb 0 0) (srcP.modPd 0 fun d => { d with started := true })
    (fun u => (u.port 0).pd.sinkTxPend.length == 1) = true := by decide +kernel
theorem test_pd_cmd_sink : wit (srcP.pdUp 0) (.pdCmdGetSinkCap .usb 0 0) srcP
    (fun u => (u.port 0).pd.sinkTxPend == [.getSinkCap]) = true := by decide +kernel
theorem test_pd_cmd_epr : wit (srcP.pdUp 0) (.pdCmdEprExit .usb 0 0) (srcP.modPd 0 fun d => { d with epr := true })
    (fun u => (u.port 0).pd.eprExiting) = true := by decide +kernel
theorem test_recompute : wit up.coreUp (.bmRecompute 48000) up (fun u => u.bm.vinAvg == 48000) = true := by decide +kernel
theorem test_reneg : wit true (.renegTimeout 0) (srcP.modPd 0 fun d => { d with target := some 7500 })
    (fun u => (u.port 0).pd.bmLimited && bitOf (u.reg (R.PD_EVT 0)) 12) = true := by decide +kernel
theorem test_raise : wit true .bmRaiseDelayExpire (srcP.modBm fun b => { b with heldAvail := some 0 })
    (fun u => u.bm.heldAvail == none) = true := by decide +kernel

/-! ### PMBus (07_pmbus_link.md) -/

/-- P0's converter, with a command on the wire. -/
def wire (c : PmbCmd) (ph : TxnPhase) (n : Nat) : State := readyP.modPmb fun b =>
  { b with wire := some { cls := 3, tgt := 0, cmd := c, why := .pathOn, phase := ph, attempts := n } }
/-- P0's converter, with a command that waits. -/
def late (c : PmbCmd) (ph : TxnPhase) : State := readyP.modPmb fun b =>
  { b with delayed := [{ cls := 3, tgt := 0, cmd := c, why := .pathOn, phase := ph }] }
def tgt0 (u : State) (f : Target → Bool) : Bool := match u.target? 0 with | some t => f t | none => false
theorem test_pmb_sent : wit (!PmbCmd.isRead .opOn) (.pmbTransactionDone .ok 0) (wire .opOn .send 0)
    (fun u => u.pmb.all.any fun t => t.phase == .confirm) = true := by decide +kernel
theorem test_pmb_confirmed : wit true (.pmbTransactionDone .ok 0) (wire .opOff .confirm 0)
    (fun u => !(u.pmb.all.any fun t => t.phase == .confirm && t.cmd == .opOff) || u.pmb.delayed != []) = true := by decide +kernel
theorem test_pmb_nak : wit true (.pmbTransactionDone .noAck 0) (wire .opOn .send 2)
    (fun u => u.rd F.PMB_ERRCNT_NAK == 1 && u.pmb.delayed.length == 1) = true := by decide +kernel
theorem test_pmb_stretch : wit true .pmbStretchTimeout (wire .opOn .send 3)
    (fun u => u.rd F.PMB_ERRCNT_NAK == 1 && tgt0 u fun t => t.st == .faulty && t.cause == .timeout) = true := by decide +kernel
theorem test_pmb_retry : wit true .pmbRetryDue (late .opOn .send) (fun u => u.pmb.delayed == [] && u.pmb.wire.isSome) = true := by
  decide +kernel
theorem test_pmb_vout : wit true .pmbVoutRetryDue (late .opOn .confirm) (fun u => u.pmb.delayed == [] && u.pmb.wire.isSome) = true := by
  decide +kernel
theorem test_pmb_ton : wit true .pmbTonMaxExpire (late .opOn .confirm) (fun u => tgt0 u fun t => t.st == .faulty &&
    t.cause == .vout) = true := by decide +kernel
theorem test_pmb_off : wit true .pmbOffConfirmTimeout (late .opOff .confirm) (fun u => tgt0 u fun t => t.st == .faulty &&
    t.cause == .status) = true := by decide +kernel
theorem test_pmb_verify : wit (readyP.reaches .usb R.PMB_VERIFY) (.pmbVerifyWrite .usb 1) (readyP.modTarget 0 fun t =>
    { t with st := .faulty }) (fun u => u.pmb.all.any fun t => t.why matches .verify _) = true := by decide +kernel
theorem test_pmb_sw : wit (unlocked.reaches .usb R.PMB_SW_CTRL) (.pmbSwGo .usb 0x0007) unlocked
    (fun u => !u.pmb.swBusy) = true := by decide +kernel
theorem test_pmb_alert : let s := readyP.wr F.PMB_CFG_ALERT_EN 1
    wit s.alertOn (.pmbAlert 0x21 true .ok 0) s (fun u => u.pmb.alertLow && u.pmb.responders.length == 1) = true := by decide +kernel
theorem test_pmb_repeat : wit true (.pmbAlertRepeat false) (readyP.modPmb fun b => { b with alertLow := true })
    (fun u => !u.pmb.alertLow) = true := by decide +kernel
theorem test_pmb_storm : wit true (.pmbAlertStormExpire 0x21) (readyP.modPmb fun b => { b with storms := [0x21] })
    (fun u => u.pmb.storms == []) = true := by decide +kernel
theorem test_pmb_clocks : wit true .pmbBusStuck readyP (fun u => u.pmb.recovering && !u.pmb.stuck) = true := by decide +kernel
theorem test_pmb_stuck : wit true .pmbBusStuck (readyP.modPmb fun b => { b with recovering := true })
    (fun u => u.pmb.stuck && bitOf (u.reg R.PMB_EVT) 5) = true := by decide +kernel
theorem test_pmb_recovery : exec .pmbBusRecoveryDue up = .next (settled up) := by rfl
theorem test_pmb_clear : wit true .pmbStuckClear (readyP.modPmb fun b => { b with stuck := true }) (fun u => !u.pmb.stuck) = true := by
  decide +kernel
theorem test_pmb_mark : wit (tgt0 readyP fun t => t.port?.isSome) (.pmbTransactionDone .ok 0x8000)
    ((wire .opOff .confirm 0).modPmb fun b => { b with wire := b.wire.map fun t => { t with why := .pathOff } })
    (fun u => u.pmb.wire.isSome || u.pmb.delayed != [] || tgt0 u fun t => t.st == .faulty) = true := by decide +kernel
theorem test_pmb_order : let t : Txn := { cls := 2, tgt := 1, cmd := .opOn, why := .pathOn }
    let l := [{ t with cls := 1 }, { t with cls := 3 }]
    (pmbInsert t l == [{ t with cls := 1 }, t, { t with cls := 3 }] &&
      (pmbPump (readyP.modPmb fun b => { b with queue := l })).pmb.wire == some { t with cls := 1 } &&
      (pmbCut 1 (readyP.modPmb fun b => { b with queue := l })).pmb.queue == []) = true := by decide +kernel

/-! ### The USB hub (08_usb_hub.md) -/

/-- A configured hub at high speed. -/
def usb : State := fed.modHub fun h => { h with st := .configured, speed := .high, addr := 5 }
def addressed : State := usb.modHub fun h => { h with st := .addressed }
/-- Port 4 of the hub in a state, a device connected. -/
def uIn (st : UState) (s : State := usb) : State := s.modU 3 fun u => { u with ust := st, conn := true, speed := .full, power := true }
def ust (u : State) : UState := (u.port 3).u.ust
def d3 : DPort := 3
theorem test_descriptor : wit (hubDescriptor 1 0 (leaveIdle usb)).isSome (.usbGetDescriptor 1 0 8) usb
    (fun u => match u.hub.answer with | .data l _ _ => l.length == 8 && l.take 2 == [18, 1] | _ => false) = true := by decide +kernel
theorem test_descriptor_none : wit (hubDescriptor 2 1 (leaveIdle usb)).isNone (.usbGetDescriptor 2 1 8) usb
    (fun u => u.hub.answer == .stall) = true := by decide +kernel
theorem test_set_address : wit true (.usbSetAddress 9) addressed (fun u => u.hub.addr == 9 && u.hub.answer == .ack) = true := by
  decide +kernel
theorem test_configure : wit addressed.usbUp (.usbSetConfiguration 1) addressed (fun u => u.hub.st == .configured) = true := by
  decide +kernel
theorem test_configure_bad : wit true (.usbSetConfiguration 2) usb (fun u => u.hub.answer == .stall) = true := by decide +kernel
theorem test_unconfigure : wit true (.usbSetConfiguration 0) usb (fun u => u.hub.st == .addressed) = true := by decide +kernel
theorem test_interface : wit usb.configured (.usbSetInterface 1) usb (fun u => u.hub.alt) = true := by decide +kernel
theorem test_interface_full : wit true (.usbSetInterface 1) (usb.modHub fun h => { h with speed := .full })
    (fun u => u.hub.answer == .stall) = true := by decide +kernel
theorem test_status : wit true .usbGetStatus usb (fun u => u.hub.answer == .data [1, 0] true true ||
    (match u.hub.answer with | .data l _ _ => l == [1, 0] | _ => false)) = true := by decide +kernel
theorem test_feature : wit true (.usbDeviceFeature true) usb (fun u => u.hub.rwakeEn) = true := by decide +kernel
theorem test_hub_status : wit true .hubGetHubStatus usb (fun u =>
    match u.hub.answer with | .data l _ _ => l.length == 4 | _ => false) = true := by decide +kernel
theorem test_port_status : wit true (.hubGetPortStatus 17) usb (fun u =>
    match u.hub.answer with | .data l _ _ => l.length == 4 | _ => false) = true := by decide +kernel
theorem test_port_status_bad : wit true (.hubGetPortStatus 18) usb (fun u => u.hub.answer == .stall) = true := by decide +kernel
theorem test_hub_feature : wit true (.hubHubFeature true 0) usb (fun u => u.hub.cLocal) = true := by decide +kernel
theorem test_class_stall : wit usb.usbUp (.hubClassStall 7) usb (fun u => u.hub.answer == .stall) = true := by decide +kernel
theorem test_feature_stall : wit usb.usbUp (.portFeatureStall 1 99) usb (fun u => u.hub.answer == .stall) = true := by decide +kernel
theorem test_lpm : let s := usb.wr F.HUB_CFG_U_L1_EN 0
    wit (!s.rdB F.HUB_CFG_U_L1_EN) (.lpmToken 1 true) s (fun u => u.hub.answer == .stall) = true := by decide +kernel
theorem test_port_reset : wit (usb.usbUp && usb.configured) (.portResetRequest 4) (uIn .enabled) (fun u => ust u == .resetting) = true := by
  decide +kernel
theorem test_port_suspend : wit true (.portSuspendRequest 4) (uIn .enabled) (fun u => ust u == .suspended &&
    bitOf (u.reg (R.HP_EVT 3)) 4) = true := by decide +kernel
theorem test_port_resume : wit true (.portResumeRequest 4) (uIn .suspended) (fun u => ust u == .resuming) = true := by decide +kernel
/-- Power switching coupled to the ports (R219). -/
def coupledU : State := usb.modImg fun i => { i with coupled := true }
theorem test_port_power : wit coupledU.coupled (.portPowerFeature true 4) coupledU (fun u => ust u == .disconnected &&
    (u.port 3).u.power) = true := by decide +kernel
theorem test_port_power_off : wit coupledU.coupled (.portPowerFeature false 4) (uIn .enabled coupledU)
    (fun u => ust u == .poweredOff) = true := by decide +kernel
theorem test_port_power_whole : wit (!usb.coupled) (.portPowerFeature true 4) usb (fun u => u.hub.answer == .ack) = true := by
  decide +kernel
theorem test_port_disable : wit true (.portEnableClear 4) (uIn .enabled) (fun u => ust u == .disabled) = true := by decide +kernel
theorem test_port_test_bad : wit true (.portTestRequest 4 6) usb (fun u => u.hub.answer == .stall) = true := by decide +kernel
theorem test_port_test : let s := forEach downPorts (fun p s => s.modU p fun u => { u with ust := .disconnected }) usb
    wit true (.portTestRequest 4 5) (uIn .disabled s) (fun u => ust u == .testing && u.hub.testMode) = true := by decide +kernel
theorem test_change_clear : wit true (.portChangeClear 4 16) (uIn .enabled) (fun u => !(u.port 3).u.chg.connection) = true := by
  decide +kernel
theorem test_port_l1_17 : wit true (.portL1Request 17 3 false 2 .ack) usb (fun u => u.hub.answer != .none) = true := by decide +kernel
theorem test_port_l1 : let s := (uIn .enabled (usb.wr F.HUB_CFG_D_L1_EN 1)).wr (F.HP_CTRL_L1_EN 3) 1
    wit (s.rdB F.HUB_CFG_D_L1_EN && s.rdB (F.HP_CTRL_L1_EN 3)) (.portL1Request 4 3 true 2 .ack) s
      (fun u => ust u == .l1 && bitOf (u.reg (R.HP_EVT 3)) 7) = true := by decide +kernel
theorem test_port_l1_clear : wit true (.portL1Clear 4) (uIn .l1) (fun u => ust u == .resuming && (u.port 3).u.resumeL1) = true := by
  decide +kernel
theorem test_reset_done : wit true (.portResetDone 4 .full) (uIn .resetting) (fun u => ust u == .enabled &&
    (u.port 3).u.chg.reset && u.rd (F.HP_ERR_RESETS 3) == 1) = true := by decide +kernel
theorem test_resume_done : wit true (.portResumeDone 4) (uIn .resuming) (fun u => ust u == .enabled &&
    (u.port 3).u.chg.suspend) = true := by decide +kernel
theorem test_connect : let s := uIn .disconnected (usb.modTc 3 fun t => { t with st := .attachedSrc })
    let s := s.modU 3 fun u => { u with conn := false }
    wit (s.coreUp && s.gateOpen 3) (.portConnectDetect d3 .full) s (fun u => (u.port 3).u.conn &&
      (u.port 3).u.chg.connection) = true := by decide +kernel
theorem test_disconnect : wit true (.portDisconnectDetect d3) (uIn .enabled) (fun u => !(u.port 3).u.conn) = true := by
  decide +kernel
theorem test_babble : wit true (.portBabble d3) (uIn .enabled) (fun u => ust u == .disabled && (u.port 3).u.chg.enable) = true := by
  decide +kernel
theorem test_remote_k : wit true (.remoteWakeK d3) (uIn .resuming) (fun u => u.rd (F.HP_STATUS_RWAKE_SEEN 3) == 1) = true := by
  decide +kernel
theorem test_remote_event : wit true .remoteWakeEvent (usb.modHub fun h => { h with suspended := true, rwakeEn := true })
    (fun u => u.hub.resuming && bitOf (u.reg R.HUB_EVT) 8) = true := by decide +kernel
theorem test_l1_exit : wit true (.portL1DeviceExit d3) (uIn .l1) (fun u => ust u == .resuming) = true := by decide +kernel
/-- A hub that may connect upstream. -/
def mayUp : State :=
  (fed.modTc PU fun t => { t with st := .attachedSnk }).modSto fun x => { x with fillDone := true }
theorem test_upstream : wit mayUp.mayConnect .upstreamConnect mayUp (fun u => u.hub.st == .pullUp) = true := by decide +kernel
theorem test_reevaluate : wit mayUp.mayConnect .connectReevaluate mayUp (fun u => bitOf (u.reg R.HUB_EVT) 0) = true := by
  decide +kernel
theorem test_connect_write : wit (mayUp.reaches .usb R.HUB_CONNECT) (.hubConnectWrite .usb 1) mayUp
    (fun u => u.rdB F.HUB_CONNECT_CONNECT) = true := by decide +kernel
theorem test_disconnect_write : wit true (.hubConnectDisconnect .usb 0) usb (fun u => u.hub.st == .detached) = true := by
  decide +kernel
theorem test_bus_reset : wit true (.upstreamBusReset true) usb (fun u => u.hub.st == .default_ && u.hub.addr == 0) = true := by
  decide +kernel
theorem test_upstream_detach : wit usb.coreUp .upstreamDetach usb (fun u => u.hub.st == .detached) = true := by decide +kernel
theorem test_suspend : wit true .globalSuspend (uIn .enabled) (fun u => u.hub.suspended && ust u == .suspended) = true := by
  decide +kernel
theorem test_host_resume : wit true .hostResume (usb.modHub fun h => { h with suspended := true })
    (fun u => !u.hub.suspended) = true := by decide +kernel
theorem test_l1_resume : wit true .l1Resume (usb.modHub fun h => { h with l1 := true }) (fun u => !u.hub.l1 &&
    bitOf (u.reg R.HUB_EVT) 7) = true := by decide +kernel
theorem test_l1_wake : wit true .l1RemoteWake (usb.modHub fun h => { h with l1 := true, l1Rwe := true })
    (fun u => u.hub.resuming) = true := by decide +kernel
/-- TB2 follows frame 7. -/
def framed : State := usb.modTim fun x => { x with tb2 := { x.tb2 with valid := true, frame := 7, uframe := 6 } }
theorem test_sof : wit framed.usbUp (.sofReceived 7) framed (fun u => u.tim.tb2.uframe == 7 && u.tim.tb2.agree == 1) = true := by
  decide +kernel
theorem test_sof_missed : wit true .sofMissed (framed.modTim fun x => { x with tb2 := { x.tb2 with missed := 1 } })
    (fun u => u.tim.tb2.missed == 2 && u.tim.tb2.valid) = true := by decide +kernel

/-! ### Transaction translators (09_transaction_translators.md) -/

/-- The translator of P3 runs, its port enabled. -/
def tt : State := (uIn .enabled (storeFill usb)).modTt 3 fun t => { t with st := .run, pages := [16, 17, 18] }
/-- A buffer of that translator. -/
def npIn (b : NpBuf) : State := tt.modTt 3 fun t => { t with np := t.np.set 1 b }
def npOf (u : State) (k : Fin 4) : NpBuf := (u.port 3).tt.np[k]
theorem test_split : wit (tt.usbUp && tt.ttTakes 3 && (tt.port 3).tt.freeBuf == some 0 && ((tt.port 3).tt.find true 5 1).isNone)
    (.ttStartSplit d3 .bulk true 5 1 [] true) tt (fun u => u.hub.answer == .ack && (npOf u 0).addr == 5) = true := by
  decide +kernel
theorem test_split_full : let s := tt.modTt 3 fun t => { t with np := Vector.replicate 4 { st := .done } }
    wit ((s.port 3).tt.freeBuf == none) (.ttStartSplit d3 .bulk true 5 1 [] true) s (fun u => u.hub.answer == .nak &&
      (u.port 3).tt.naked == [(5, 1, true)]) = true := by decide +kernel
theorem test_split_crc : wit (tt.ttTakes 3) (.ttStartSplit d3 .bulk true 5 1 [] false) tt
    (fun u => u.hub.answer == .noHandshake) = true := by decide +kernel
theorem test_split_again : let s := npIn { st := .queued, addr := 5, ep := 2 }
    wit ((s.port 3).tt.find false 5 2 == some 1) (.ttStartSplit d3 .bulk false 5 2 [1, 2] true) s
      (fun u => u.hub.answer == .ack && (npOf u 1).len == 2) = true := by decide +kernel
theorem test_complete_early : wit true (.ttCompleteSplit d3 .bulk false 5 2) (npIn { st := .queued, addr := 5, ep := 2 })
    (fun u => u.hub.answer == .nyet) = true := by decide +kernel
theorem test_complete : wit true (.ttCompleteSplit d3 .bulk false 5 2) (npIn { st := .done, res := some .ack, addr := 5, ep := 2 })
    (fun u => u.hub.answer == .ack && (npOf u 1).st == .free) = true := by decide +kernel
theorem test_complete_naked : wit true (.ttCompleteSplit d3 .bulk true 5 2) (tt.modTt 3 fun t => { t with naked := [(5, 2, true)] })
    (fun u => u.hub.answer == .nyet) = true := by decide +kernel
theorem test_periodic : wit ((tt.port 3).tt.freeRec == some 0 && (tt.port 3).tt.ringRoom 0)
    (.ttPeriodicStartSplit d3 true true 5 1 []) tt (fun u => u.hub.answer == .noHandshake &&
      (u.port 3).tt.recs.length == 1) = true := by decide +kernel
/-- Sixteen periodic records. -/
def records (st : PrState) (n : Nat) : List PRecord := (List.range n).map fun k =>
  { slot := k, st := st, iso := false, dirIn := true, addr := 5, ep := BitVec.ofNat 4 k, off := 0, len := 0, res := some .nak }
theorem test_overrun : let s := tt.modTt 3 fun t => { t with recs := records .waiting 16 }
    wit ((s.port 3).tt.freeRec == none) (.ttPeriodicStartSplit d3 true true 6 1 []) s
      (fun u => u.rd (F.HP_TT_ERR_OVERRUN 3) == 1) = true := by decide +kernel
theorem test_periodic_complete : let s := tt.modTt 3 fun t => { t with recs := records .ended 1 }
    wit true (.ttPeriodicCompleteSplit d3 true 5 0 true) s (fun u => u.hub.answer == .nak && (u.port 3).tt.recs == []) = true := by
  decide +kernel
theorem test_split_off : let s := tt.modTt 3 fun t => { t with st := .stopped }
    wit (!s.ttTakes 3) (.ttStartSplit d3 .bulk true 5 1 [] true) s (fun u => u.hub.answer == .noHandshake) = true := by
  decide +kernel
theorem test_periodic_off : let s := tt.modTt 3 fun t => { t with st := .stopped }
    wit (!s.ttTakes 3) (.ttPeriodicCompleteSplit d3 true 5 0 true) s (fun u => u.hub.answer == .err) = true := by decide +kernel
theorem test_frame : wit true (.ttFrameStart d3) (tt.modTim fun x => { x with tb2 := { x.tb2 with frame := 7 } })
    (fun u => (u.port 3).tt.frame == 7) = true := by decide +kernel
theorem test_xact_end : wit true (.ttTransactionEnd d3 .ack false []) (npIn { st := .running, addr := 5, ep := 2 })
    (fun u => (npOf u 1).st == .done && (npOf u 1).res == some .ack) = true := by decide +kernel
theorem test_record_expire : let s := tt.modTt 3 fun t => { t with recs := records .ended 1 }
    wit s.coreUp (.ttRecordExpire d3 0) s (fun u => (u.port 3).tt.recs == []) = true := by decide +kernel
theorem test_stale : wit true (.ttStale d3 1) (npIn { st := .done, res := some .ack }) (fun u => (npOf u 1).stale &&
    bitOf (u.reg (R.HP_TT_EVT 3)) 0) = true := by decide +kernel
/-- Every translator of its own (the alternate setting). -/
def multi : State := tt.modHub fun h => { h with alt := true }
theorem test_tt_reset : wit (multi.configured && portOf 4 == some 3) (.ttResetTt 4) (multi.modTt 3 fun t =>
    { t with np := Vector.replicate 4 { st := .done } }) (fun u => u.hub.answer == .ack && (npOf u 0).st == .free) = true := by
  decide +kernel
theorem test_tt_clear : wit true (.ttClearTtBuffer 4 0) multi (fun u => u.hub.answer == .ack) = true := by decide +kernel
theorem test_tt_stop : wit true (.ttStopTt 4) multi (fun u => (u.port 3).tt.st == .stopped) = true := by decide +kernel
theorem test_tt_state : wit true (.ttGetTtState 4 4) (multi.modTt 3 fun t => { t with st := .stopped }) (fun u =>
    match u.hub.answer with | .data l _ _ => l.length == 4 | _ => false) = true := by decide +kernel
theorem test_tt_state_run : wit true (.ttGetTtState 4 4) multi (fun u => u.hub.answer == .stall) = true := by decide +kernel
theorem test_tt_stop_all : wit (!tt.hub.alt) (.ttStopTt 1) tt (fun u => (u.port 3).tt.st == .stopped) = true := by decide +kernel
theorem test_tt_stop_bad : wit true (.ttStopTt 2) tt (fun u => u.hub.answer == .stall) = true := by decide +kernel
theorem test_tt_cmd : wit (tt.reaches .usb (R.HP_TT_CMD 3)) (.hpTtCmdReset .usb d3 0) (npIn { st := .done, res := some .ack })
    (fun u => (npOf u 1).st == .free) = true := by decide +kernel
theorem test_tt_cmd_np : wit true (.hpTtCmdClearNp .usb d3 0) (npIn { st := .running }) (fun u => (npOf u 1).dropped) = true := by
  decide +kernel


/-! ### The embedded function (10_embedded_function.md) -/

/-- The embedded function, configured. -/
def efn : State := (storeFill usb).modEfn fun e => { e with st := .configured }
def open_ : State := efn.modPath .usb fun x => { x with lockOpen := true }
def dataOf (u : State) : List Byte := match u.hub.answer with | .data l _ _ => l | _ => []
theorem test_vendor_read : wit (efn.efnUp && vendorAddr 0 0 == some 0 && wordLen 4 && !(leaveIdle (setup efn)).vendorHeld 0x40 0 4)
    (.efnVendorRead 0 0 4) efn (fun u => dataOf u == wordBytes (regReset R.GLB_ID)) = true := by decide +kernel
theorem test_vendor_write : let a := BitVec.ofNat 16 R.FEED_CTRL
    wit (vendorAddr a 0 == some R.FEED_CTRL) (.efnVendorWrite a 0 4 [1, 0, 0, 0]) efn (fun u => u.hub.answer == .ack) = true := by
  decide +kernel
/-- One event is queued. -/
def queued : State := pushEvent 0x20 0xFF09 7 efn
theorem test_vendor_pop : let a := BitVec.ofNat 16 R.EVQ_POP
    wit (vendorAddr a (BitVec.ofNat 16 (R.EVQ_POP / 65536)) == some R.EVQ_POP &&
        !(leaveIdle (setup queued)).vendorHeld 0x42 R.EVQ_POP 16) (.efnVendorEvqRead a
      (BitVec.ofNat 16 (R.EVQ_POP / 65536)) 16) queued (fun u => (dataOf u).length == 16 && u.evq.held.isEmpty) = true := by decide +kernel
theorem test_vendor_keyed : let a := BitVec.ofNat 16 R.GLB_RESET
    wit (vendorAddr a (BitVec.ofNat 16 (R.GLB_RESET / 65536)) == some R.GLB_RESET) (.efnVendorKeyedWrite a
      (BitVec.ofNat 16 (R.GLB_RESET / 65536)) 8 (leBytes 4 0x6B1C ++ wordBytes 0)) efn (fun u => u.hub.answer == .ack) = true := by
  decide +kernel
theorem test_vendor_key : wit true (.efnVendorKeyedWrite 0 0 8 (leBytes 4 0x6B1D ++ wordBytes 0)) efn
    (fun u => u.hub.answer == .stall) = true := by decide +kernel
/-- A batch is being executed: its bytes. -/
def batching (l : List Byte) : State := efn.modEfn fun e => { e with batch := .executing, bytes := l, off := 8 }
theorem test_vendor_held : wit ((leaveIdle (setup (batching []))).vendorHeld 0x40 0 4) (.efnVendorRead 0 0 4) (batching [])
    (fun u => u.hub.answer == .nak && u.efn.held.isSome) = true := by decide +kernel
theorem test_vendor_bad : wit (!wordLen 5) (.efnVendorRead 0 0 5) efn (fun u => u.hub.answer == .stall) = true := by decide +kernel
theorem test_hold_timeout : let s := efn.modEfn fun e => { e with held := some (0x40, 0, 4, []) }
    wit (!s.usbP.popWait && !s.batchOutOfReach) .efnAccessHoldTimeout s (fun u => u.hub.answer == .stall && u.efn.held.isNone) = true := by
  decide +kernel
theorem test_descriptor_efn : wit (efnDescriptor 1 0 (leaveIdle (setup efn))).isSome (.efnStandardRequest 0x80 6 0x100 0 8) efn
    (fun u => (dataOf u).take 2 == [18, 1]) = true := by decide +kernel
theorem test_configure_efn : wit efn.efnUp (.efnStandardRequest 0 9 1 0 0) (efn.modEfn fun e => { e with st := .addressed })
    (fun u => u.efn.st == .configured) = true := by decide +kernel
theorem test_address_efn : wit true (.efnStandardRequest 0 5 9 0 0) (efn.modEfn fun e => { e with st := .default_ })
    (fun u => u.efn.addr == 9 && u.efn.st == .addressed) = true := by decide +kernel
theorem test_status_efn : wit true (.efnStandardRequest 0x80 0 0 0 2) efn (fun u => dataOf u == [1, 0]) = true := by decide +kernel
theorem test_halt : wit (efn.epExists 4) (.efnSetHalt 4) efn (fun u => (u.ep 4).halted && u.hub.answer == .ack) = true := by
  decide +kernel
theorem test_clear_halt : wit true (.efnClearHalt 4) (efn.modEp 4 fun b => { b with halted := true, toggle := true })
    (fun u => !(u.ep 4).halted && !(u.ep 4).toggle) = true := by decide +kernel
theorem test_efn_reset : wit efn.efnUp (.efnPortReset true) efn (fun u => u.efn.st == .detached) = true := by decide +kernel
theorem test_bulk_out : wit (efn.epUp 1 && efn.epFree 1 ≥ 4) (.efnBulkOut 1 [1, 2, 3, 4]) efn (fun u => (u.ep 1).fill == 4 &&
    (u.ep 1).xfers == [4] && (u.ep 1).toggle) = true := by decide +kernel
theorem test_bulk_full : let s := efn.modEp 1 fun b => { b with fill := efn.epSize 1 - 1 }
    wit (s.epFree 1 == 1) (.efnBulkOut 1 [1, 2]) s (fun u => u.hub.answer == .nak) = true := by decide +kernel
theorem test_bulk_halted : wit true (.efnBulkOut 1 [1, 2]) (efn.modEp 1 fun b => { b with halted := true })
    (fun u => u.hub.answer == .stall) = true := by decide +kernel
theorem test_ping : wit (512 ≤ efn.epFree 1) (.efnPing 1) efn (fun u => u.hub.answer == .ack) = true := by decide +kernel
/-- EP1 IN holds four bytes. -/
def full2 : State := (epQueueIn 2 [9, 8, 7, 6] efn).2
theorem test_bulk_in : wit (nextPacket 2 full2 == some 4) (.efnBulkIn 2) full2 (fun u => dataOf u == [9, 8, 7, 6] &&
    (u.ep 2).sent == some 4) = true := by decide +kernel
theorem test_bulk_empty : wit (nextPacket 2 efn).isNone (.efnBulkIn 2) efn (fun u => u.hub.answer == .nak) = true := by
  decide +kernel
theorem test_bulk_in_halted : wit true (.efnBulkIn 2) (efn.modEp 2 fun b => { b with halted := true })
    (fun u => u.hub.answer == .stall) = true := by decide +kernel
theorem test_bulk_ack : wit true (.efnBulkInAck 2) (full2.modEp 2 fun b => { b with sent := some 4 })
    (fun u => (u.ep 2).fill == 0 && (u.ep 2).toggle) = true := by decide +kernel
/-- EP1 OUT holds a whole batch of one DELAY. -/
def received : State := after (.efnBulkOut 1 [0x45, 0, 1, 0, 16, 0, 0, 0, 7, 0, 0, 0, 1, 0, 0, 0]) efn
theorem test_received : wit (received.efn.batch == .receiving) .batchReceived received (fun u => u.efn.batch == .executing &&
    u.efn.op == 7 && u.efn.arg == 1) = true := by decide +kernel
theorem test_malformed : let s := after (.efnBulkOut 1 [0x45, 0, 1, 0, 16, 0, 0, 0, 9, 0, 0, 0, 1, 0, 0, 0]) efn
    wit (s.efn.batch == .receiving) .batchReceived s (fun u => u.efn.batch == .responseUnread &&
      u.rd F.EFN_ERRCNT_MALFORMED == 1) = true := by decide +kernel
theorem test_abort : let s := efn.modEfn fun e => { e with batch := .receiving }
    wit ((batchExtent s).1.1 matches .partly) .batchAbort s (fun u => u.efn.batch == .idle && bitOf (u.reg R.EFN_EVT) 3) = true := by
  decide +kernel
/-- A batch of one command, its eight bytes and extra words as given, about to execute. -/
def command (op a arg : Nat) (l : List Word := []) (s : State := efn) : State := s.modEfn fun e =>
  let b := [0x45, 0, 1, 0] ++ leBytes 4 16 ++ leBytes 1 op ++ leBytes 3 a ++ leBytes 4 arg ++ wordsBytes l
  { e with batch := .executing, bytes := b, off := 8 }
theorem test_batch_read : wit ((command 1 R.GLB_ID 1).batchAt 1) .batchRead (command 1 R.GLB_ID 1)
    (fun u => u.efn.resp == cmdResp 0 1 [regReset R.GLB_ID] && u.efn.batchOver) = true := by decide +kernel
theorem test_batch_write : let s := command 2 R.STO_FLIP_D 5
    wit (s.batchAt 2) .batchWrite s (fun u => u.reg R.STO_FLIP_D == 5 && u.efn.resp == cmdResp 0 2 []) = true := by decide +kernel
theorem test_batch_write_n : let s := command 3 R.STO_FLIP_D 1 [6]
    wit (s.batchAt 3) .batchWriteN s (fun u => u.reg R.STO_FLIP_D == 6) = true := by decide +kernel
theorem test_batch_rmw : let s := command 4 R.STO_FLIP_D 0xF0 [0x55] (efn.setReg R.STO_FLIP_D 0xFF)
    wit (s.batchAt 4) .batchRmw s (fun u => u.reg R.STO_FLIP_D == 0x5F) = true := by decide +kernel
theorem test_batch_poll : let s := command 5 R.STO_FLIP_D 1 [0xF, 0xF] (efn.setReg R.STO_FLIP_D 0xFF)
    wit (s.batchAt 5) (.batchPoll false) s (fun u => u.efn.resp == cmdResp 0 5 [0xFF]) = true := by decide +kernel
theorem test_batch_poll_out : let s := command 5 R.STO_FLIP_D 1 [0xF, 0xE] (efn.setReg R.STO_FLIP_D 0xFF)
    wit (s.batchAt 5) (.batchPoll true) s (fun u => u.efn.resp == cmdResp 4 5 [0xFF]) = true := by decide +kernel
theorem test_batch_keyed : let s := command 6 R.STO_FLIP_D 5 [0x6B1C]
    wit (s.batchAt 6) .batchKeyedWrite s (fun u => u.efn.resp == cmdResp 0 6 []) = true := by decide +kernel
theorem test_batch_key : let s := command 6 R.STO_FLIP_D 5 [0x6B1D]
    wit (s.batchAt 6) .batchKeyedWrite s (fun u => u.efn.resp == cmdResp 5 6 []) = true := by decide +kernel
theorem test_batch_delay : wit ((command 7 0 1).batchAt 7) .batchDelay (command 7 0 1) (fun u => u.efn.batchOver) = true := by
  decide +kernel
theorem test_batch_pop : let s := command 8 R.EVQ_POP 1 [] queued
    wit (s.batchAt 8) (.batchEvqPop false) s (fun u => u.evq.held.isEmpty && u.efn.batchOver) = true := by decide +kernel
theorem test_batch_done : let s := (command 7 0 1).modEfn fun e => { e with index := 1, resp := cmdResp 0 7 [], executed := 1 }
    wit (s.efn.batchOver && 12 ≤ s.epFree 2) .batchDone s (fun u => u.efn.batch == .responseUnread && (u.ep 2).fill == 12) = true := by
  decide +kernel
theorem test_evq_push : let s := queued.wr F.EFN_CTRL_EVQ_PUSH 1
    wit (s.epUp 2 && 24 ≤ s.epFree 2) .evqPushMessage s (fun u => u.evq.held.isEmpty && (u.ep 2).fill == 24) = true := by
  decide +kernel
theorem test_carve : wit (efn.reaches .usb R.EFN_CARVE) (.efnCarveApply .usb 0) efn (fun u => u.efn.batch == .idle) = true := by
  decide +kernel

/-! ### Resets, the store, the event queue and time (01, 11, 12, 16) -/

theorem test_glb_cold : wit (unlocked.reaches .usb R.GLB_RESET && unlocked.usbP.lockOpen) (.glbResetCold .usb 0) unlocked
    (fun u => u.glb.phase == .ldos && u.rd F.GLB_RST_CAUSE_CAUSE == 7) = true := by decide +kernel
theorem test_glb_warm : wit (!bitOf (0 : Word) 1) (.glbResetWarm .usb 0) unlocked
    (fun u => u.rd F.GLB_RST_CAUSE_CAUSE == 8 && u.feed.vin == 48000) = true := by decide +kernel
/-- Word 16384 of the store, with the bits of its 39 given flipped. -/
def word (l : List (Fin 39)) : State := up.setCell 16384 (flipped 0x12345678 l)
theorem test_window_read : wit (up.reaches .usb (windowAt 65536) && eccClass ((word []).cell 16384) == .clean)
    (.storeWindowRead .usb 65536) (word []) (fun u => u.cell 16384 == cleanCell 0x12345678 && u.rd (F.STO_BANK_CE 0) == 0) =
      true := by decide +kernel
theorem test_window_corrects : wit (eccClass ((word [3]).cell 16384) == .corrected) (.storeWindowRead .usb 65536) (word [3])
    (fun u => u.cell 16384 == cleanCell 0x12345678 && u.rd (F.STO_BANK_CE 0) == 1) = true := by decide +kernel
theorem test_window_poisons : wit (eccClass ((word [3, 35]).cell 16384) == .uncorrectable) (.storeWindowRead .usb 65536)
    (word [3, 35]) (fun u => u.cell 16384 == (word [3, 35]).cell 16384 && u.rd (F.STO_BANK_UE 0) == 1) = true := by
  decide +kernel
theorem test_window_write : wit (up.sto.armed != some .usb) (.storeWindowWrite .usb 65536 7) (word [3, 35])
    (fun u => u.cell 16384 == cleanCell 7) = true := by decide +kernel
theorem test_window_flip : let s := (up.modSto fun x => { x with armed := some .usb }).setReg R.STO_FLIP_D 1
    wit true (.storeWindowWrite .usb 65536 7) s (fun u => (u.cell 16384).dErr == 1 && u.sto.armed == none) = true := by
  decide +kernel
/-- The scrub is at a word. -/
def scrubAt (k : Nat) (s : State) : State := (s.wr F.STO_CFG_SCRUB_EN 1).modSto fun x => { x with scrubPos := k, fillDone := true }
theorem test_scrub : let s := scrubAt 16384 (word [3])
    wit (s.scrubs && !s.retired 64) .scrubSlot s (fun u => u.cell 16384 == cleanCell 0x12345678 && u.sto.scrubPos == 16385) = true := by
  decide +kernel
theorem test_scrub_retired : let s := (scrubAt 16384 (word [3])).setReg (R.STO_RETIRE 2) 1
    wit (s.scrubs && s.retired 64) .scrubSlot s (fun u => u.cell 16384 == (word [3]).cell 16384 && u.sto.scrubPos == 16385) = true := by
  decide +kernel
theorem test_scrub_last : let s := scrubAt 131071 up
    wit s.scrubs .scrubSlot s (fun u => u.sto.scrubPos == 0 && u.rd F.STO_SCRUB_PASSES == 1) = true := by decide +kernel
theorem test_clear_log : wit (up.reaches .usb R.STO_CMD) (.stoCmdClrLog .usb 0) (up.setReg (R.STO_ECCLOG 3) 0x80000001)
    (fun u => u.reg (R.STO_ECCLOG 3) == 0) = true := by decide +kernel
theorem test_clear_counts : wit true (.stoCmdClrCnt .usb 0) (up.wr (F.STO_BANK_CE 0) 5)
    (fun u => u.rd (F.STO_BANK_CE 0) == 0) = true := by decide +kernel
theorem test_clear_entry : wit (up.reaches .usb (R.STO_ECCLOG 15)) (.stoEcclogClear .usb 15 0)
    (up.setReg (R.STO_ECCLOG 15) 0x80000001) (fun u => u.reg (R.STO_ECCLOG 15) == 0) = true := by decide +kernel
theorem test_flip_arm : wit (unlocked.reaches .usb R.STO_FLIP_C) (.stoFlipArm .usb 0x100) unlocked
    (fun u => u.sto.armed == some .usb) = true := by decide +kernel
theorem test_retire : wit (unlocked.reaches .usb (R.STO_RETIRE 15)) (.stoRetireWrite .usb 15 4) (unlocked.setReg (R.STO_RETIRE 15) 1)
    (fun u => u.reg (R.STO_RETIRE 15) == 5) = true := by decide +kernel
theorem test_pop : wit (queued.reaches .usb R.EVQ_POP && queued.evq.held.length == 1) (.evqPop .usb) queued
    (fun u => u.evq.held == [] && u.usbP.latch != []) = true := by decide +kernel
theorem test_pop_empty : let s := up.modGlb fun g => { g with level := 2 }
    wit (s.evq.held == [] && !s.popBlocks) (.evqPop .usb) s (fun u => !u.usbP.popWait) = true := by decide +kernel
theorem test_pop_waits : wit (up.popBlocks && up.evq.held == []) (.evqPop .usb) up (fun u => u.usbP.popWait) = true := by decide +kernel
theorem test_pop_timeout : wit true (.evqPopBlockTimeout .i2c) (up.modPath .i2c fun x => { x with popWait := true })
    (fun u => !u.i2cP.popWait) = true := by decide +kernel
theorem test_flush : wit (queued.reaches .usb R.EVQ_CMD) (.evqCmdFlush .usb 0) queued (fun u => u.evq.held == []) = true := by
  decide +kernel
/-- TIME runs, TB0 at 5 s. -/
def timed : State := (up.modPwr fun x => { x with x24Ready := true }).modTim fun x =>
  { x with tb0 := { sec := 5, ns := 100 }, undisc := false, readvance := false }
theorem test_holdover : let s := timed.wr F.TIM_CTRL_HOLDOVER 1
    wit s.timeUp .holdoverExpire s (fun u => u.tim.undisc && bitOf (u.reg R.TIM_EVT) 5) = true := by decide +kernel
theorem test_pulse : let s := (timed.wr F.TIM_CTRL_TP_MODE 2).modTim fun x => { x with tpNext := 5 }
    wit (s.tpMode == 2 && s.timeUp) .tpulseFire s (fun u => u.tim.tpPulse && u.tim.tpNext == 6) = true := by decide +kernel
theorem test_pulse_at : let s := ((timed.wr F.TIM_CTRL_TP_MODE 3).wr F.TIM_TP_AT_NS_ARM 1)
    wit (s.tpMode == 3 && tbLe s.tpAt s.tb0) .tpulseFire s (fun u => u.tim.tpPulse && !u.rdB F.TIM_TP_AT_NS_ARM) = true := by
  decide +kernel
theorem test_pulse_end : wit true .tpulseEnd (timed.modTim fun x => { x with tpPulse := true }) (fun u => !u.tim.tpPulse) = true := by
  decide +kernel
theorem test_edge : let s := timed.wr F.TIM_CTRL_TP_MODE 1
    wit (s.tpMode == 1 && !s.rdB F.TIM_CTRL_TP_POL) (.tpulseInputEdge true) s (fun u => bitOf (u.reg R.TIM_EVT) 0 &&
      u.reg (R.TIM_CAP_SLO 0) == 5) = true := by decide +kernel
theorem test_sw_cap : wit (timed.reaches .usb R.TIM_CMD && timed.timeUp) (.timSwCap .usb 0) timed
    (fun u => u.reg (R.TIM_CAP_SLO 2) == 5) = true := by decide +kernel
theorem test_cap_read : wit (timed.reaches .usb (R.TIM_CAP_STAT 2)) (.timCapStatRead .usb 2)
    ((timed.setReg (R.TIM_CAP_STAT 2) 3).setReg (R.TIM_CAP_SLO 2) 7) (fun u => u.reg (R.TIM_CAP_STAT 2) == 0 &&
      u.usbP.latch == [(R.TIM_CAP_SLO 2, 7)]) = true := by decide +kernel
theorem test_tb0_read : wit (timed.reaches .usb R.TIM_TB0_NS) (.timTb0NsRead .usb) timed
    (fun u => u.readValue .usb R.TIM_TB0_SLO == 5) = true := by decide +kernel
theorem test_tb3_read : let s := timed.modTim fun x => { x with tb3 := 0x900000001 }
    wit (s.reaches .i2c R.TIM_TB3_LO) (.timTb3LoRead .i2c) s (fun u => u.readValue .i2c R.TIM_TB3_HI == 9) = true := by
  decide +kernel
theorem test_alarm : let s := timed.wr F.TIM_TB3_ALARM_HI_EN 1
    wit s.alarmDue .tb3Alarm s (fun u => bitOf (u.reg R.TIM_EVT) 8 && !u.rdB F.TIM_TB3_ALARM_HI_EN) = true := by decide +kernel
theorem test_readvance : let s := timed.modTim fun x => { x with readvance := true, tb3 := 128, shadow3 := 0, shadow1 := 7 }
    wit s.pwr.x24Run .tbReadvance s (fun u => u.tim.tb1 == 3906257 && u.tim.undisc) = true := by decide +kernel

/-! ### The Cadence Link (13_cadence_link.md, 14_cadence_queues.md) -/

def d0 : DPort := 0
/-- P0 may find the alternate mode; its link in a state. -/
def linkIn (p : PortId) (st : LState) : State :=
  let s := ((storeFill srcP).modImg fun i => { i with svid := some 0x1234 }).wr (F.CL_CTRL_EN p) 1
  s.modCl p fun l => { l with st := st, rx := { l.rx with alloc := true } }
/-- P0 in a step of the discovery. -/
def finding (st : DiscStep) : State := (linkIn 0 .discover).modCl 0 fun l => { l with disc := st }
def lst (u : State) (p : PortId) : LState := (u.port p).cl.st
theorem test_discover : wit ((linkIn 0 .off).mayDiscover 0) (.cadDiscoveryStart d0) (linkIn 0 .off)
    (fun u => lst u 0 == .discover && (u.port 0).pd.sinkTxPend.length == 1) = true := by decide +kernel
theorem test_identity : wit (linkIn 0 .off).coreUp (.cadVdmResponse d0 (.ack [])) (finding .identity)
    (fun u => (u.port 0).cl.disc == .svids) = true := by decide +kernel
theorem test_svids : wit ((finding .svids).cadSvid == 0x1234) (.cadVdmResponse d0 (.ack [0x12340000])) (finding .svids)
    (fun u => (u.port 0).cl.disc == .modes) = true := by decide +kernel
theorem test_svids_none : wit true (.cadVdmResponse d0 (.ack [0x12350000])) (finding .svids)
    (fun u => lst u 0 == .noMode && (u.port 0).cl.cause == .noSvid) = true := by decide +kernel
theorem test_modes_bad : wit (!modeVdoOk 0xCE013400) (.cadVdmResponse d0 (.ack [0xCE013400])) (finding .modes)
    (fun u => lst u 0 == .noMode && (u.port 0).cl.cause == .badVdo) = true := by decide +kernel
theorem test_modes : wit (modeVdoOk 0xCD013400) (.cadVdmResponse d0 (.ack [0xCD013400])) (finding .modes)
    (fun u => (u.port 0).cl.disc == .enter && (u.port 0).cl.objPos == 1) = true := by decide +kernel
theorem test_entered : wit true (.cadVdmResponse d0 (.ack [])) (finding .enter) (fun u => lst u 0 == .train) = true := by
  decide +kernel
theorem test_vdm_nak : wit true (.cadVdmResponse d0 .nak) (finding .enter) (fun u => (u.port 0).cl.cause == .nak) = true := by
  decide +kernel
theorem test_vdm_busy : wit true (.cadVdmResponse d0 .busy) ((finding .enter).modCl 0 fun l => { l with busy := 4 })
    (fun u => (u.port 0).cl.busy == 5 && lst u 0 == .discover) = true := by decide +kernel
theorem test_vdm_timeout : wit true (.cadVdmTimeout d0) (finding .enter) (fun u => (u.port 0).cl.cause == .noResponse) = true := by
  decide +kernel
theorem test_vdm_retry : wit true (.cadVdmBusyRetry d0) ((finding .identity).modCl 0 fun l => { l with busy := 1 })
    (fun u => (u.port 0).pd.sinkTxPend.length == 1) = true := by decide +kernel
/-- P0 has sent Exit Mode. -/
def leaving : State := (linkIn 0 .off).modCl 0 fun l => { l with exiting := true, entered := true }
theorem test_exit_timeout : wit true (.cadExitModeTimeout d0) leaving (fun u => !(u.port 0).cl.exiting) = true := by decide +kernel
theorem test_exit_ack : wit leaving.coreUp (.cadVdmResponse d0 (.ack [])) leaving (fun u => !(u.port 0).cl.entered) = true := by
  decide +kernel
theorem test_attention : wit ((linkIn 0 .up).pdUp 0) (.cadAttentionRx d0 0xCD000100) ((linkIn 0 .up).modCl 0 fun l => { l with ver := 1 })
    (fun u => lst u 0 == .retrain) = true := by decide +kernel
/-- PU attached, its link in a state. -/
def upper (st : LState) : State := (linkIn PU st).modTc PU fun t => { t with st := .attachedSnk, cc1 := .rp30 }
theorem test_svids_rx : wit ((upper .off).pdUp PU && (upper .off).puCad) .cadDiscoverSvidsRx (upper .off)
    (fun u => (sends u PU).length == 1) = true := by decide +kernel
theorem test_modes_rx : wit (upper .off).puCad .cadDiscoverModesRx (upper .off) (fun u => (sends u PU).length == 1) = true := by
  decide +kernel
theorem test_svids_off : let s := (upper .off).wr (F.CL_CTRL_EN PU) 0
    wit (s.pdUp PU && !s.puCad) .cadDiscoverSvidsRx s (fun u => (sends u PU).length == 1) = true := by decide +kernel
theorem test_enter_rx : wit ((upper .off).puCad && 1 ≤ (upper .off).maxVer) (.cadEnterModeRx 0x00010000) (upper .off)
    (fun u => (u.port PU).cl.enterVer == 1) = true := by decide +kernel
theorem test_enter_bad : wit true (.cadEnterModeRx 0) (upper .off) (fun u => (u.port PU).cl.enterVer == 0 &&
    (sends u PU).length == 1) = true := by decide +kernel
theorem test_exit_rx : wit ((linkIn 0 .up).pdUp 0) (.cadExitModeRx 0) (linkIn 0 .up) (fun u => lst u 0 == .off &&
    (u.port 0).cl.cause == .exitMode) = true := by decide +kernel
theorem test_attention_repeat : wit (LState.live .up) .cadAttentionRepeat ((upper .up).modCl PU fun l => { l with attention := some 1 })
    (fun u => !(sends u PU).isEmpty || !(u.port PU).pd.sinkTxPend.isEmpty) = true := by decide +kernel
theorem test_lock : wit (linkIn 0 .train).coreUp (.cadReceiverLock 0) (linkIn 0 .train) (fun u => (u.port 0).cl.locked &&
    ((u.port 0).cl.wire.isSome || (u.port 0).cl.outQ != [])) = true := by decide +kernel
theorem test_lock_pu : wit true (.cadReceiverLock PU) (upper .train) (fun u => (u.port PU).cl.locked) = true := by decide +kernel
theorem test_train_fail : wit true (.cadTrainAttemptFail 0) ((linkIn 0 .train).modCl 0 fun l => { l with fails := 1 })
    (fun u => (u.port 0).cl.fails == 2 && lst u 0 == .train) = true := by decide +kernel
theorem test_train_failed : wit true (.cadTrainAttemptFail 0) ((linkIn 0 .train).modCl 0 fun l => { l with fails := 2 })
    (fun u => lst u 0 == .failed) = true := by decide +kernel
theorem test_up_frame : wit true .cadUpFrameRx (upper .train) (fun u => lst u PU == .up) = true := by decide +kernel
theorem test_loss : wit true (.cadLossOfLock 0) (linkIn 0 .up) (fun u => lst u 0 == .retrain) = true := by decide +kernel
theorem test_loss_pu : wit true (.cadLossOfLock PU) (upper .up) (fun u => (u.port PU).cl.attention.isSome) = true := by decide +kernel
theorem test_retrain_set : wit true (.cadRetrainSetRx 0) (upper .up) (fun u => lst u PU == .retrain && (u.port PU).cl.ver == 1) = true := by
  decide +kernel
theorem test_retrain_timeout : wit true (.cadRetrainTimeout 0) (linkIn 0 .retrain) (fun u => lst u 0 == .train &&
    (u.port 0).cl.cause == .retrainFail) = true := by decide +kernel
theorem test_cl_cmd : wit ((linkIn 0 .up).reaches .usb (R.CL_CMD 0)) (.clCmdRetrain .usb 0 0) (linkIn 0 .up)
    (fun u => lst u 0 == .retrain) = true := by decide +kernel
theorem test_cl_cmd_enter : wit true (.clCmdEnter .usb 0 0) (linkIn 0 .noMode) (fun u => lst u 0 == .off) = true := by
  decide +kernel
/-- A frame as it arrives: type, hop, route, payload, with its CRC. -/
def frame (ty hop : Nat) (route : Nat) (pl : List Byte) : List Byte :=
  let l := mkFrame ty 0 1 route 0 hop 0 pl
  l ++ leBytes 4 (crc32 l).toNat
theorem test_rx_code : wit (linkIn 0 .up).coreUp (.cadFrameRx 0 false []) (linkIn 0 .up)
    (fun u => u.rd (F.CL_ERR0_CODE_ROUTE 0) == 1) = true := by decide +kernel
theorem test_rx_format : wit (rxCheck true [1, 2] == .format) (.cadFrameRx 0 true [1, 2]) (linkIn 0 .up)
    (fun u => u.rd (F.CL_ERR0_FORMAT_UNKNOWN 0) == 1) = true := by decide +kernel
theorem test_rx_crc : let b := frame 0x10 0 0 [] |>.set 21 0
    wit (rxCheck true b == .crc) (.cadFrameRx 0 true b) (linkIn 0 .up) (fun u => u.rd (F.CL_ERR0_CRC_NO_ROUTE 0) == 1) = true := by
  decide +kernel
theorem test_rx_poison : let b := frame 0x10 0 0 [] |>.set 1 1
    wit (rxCheck true b == .poison) (.cadFrameRx 0 true b) (linkIn 0 .up) (fun u => u.rd (F.CL_ERR0_POISON_FWD_DROP 0) == 1 &&
      bitOf (u.reg (R.CL_EVT 0)) 3) = true := by decide +kernel
/-- A hub at tier 0 with P0 UP: what P0 sends up is delivered. -/
def root : State := (linkIn 0 .up).wr F.CAD_MODE_MODE 2
theorem test_rx_up : let b := frame 0x10 0 0 [1, 2]
    wit (rxCheck true b == .good && routeMode (frRoute b) == 0) (.cadFrameRx 0 true b) root
      (fun u => u.port 0 != root.port 0 && u.reg (R.CL_ERR1 0) == 0) = true := by decide +kernel
/-- A hub whose time follows PU. -/
def follower : State := (upper .up).wr F.CAD_MODE_MODE 1
theorem test_sync : let b := frame 1 2 0x00000F (List.replicate 16 0)
    wit (rxCheck true b == .good && frType b == 1 && frHop b == 2 && follower.cadSync && !follower.cadRoot) (.cadSyncRx PU b) follower
      (fun u => u.tier == 2 && u.cad.xs.length == 1) = true := by decide +kernel
theorem test_sync_deep : let b := frame 1 6 0x00000F (List.replicate 16 0)
    wit (rxCheck true b == .good) (.cadFrameRx PU true b) follower (fun u => u.tier == 0 && u.cad.tooDeep &&
      bitOf (u.reg R.CAD_EVT) 1) = true := by decide +kernel
theorem test_delay_req : let b := frame 2 0 0 []
    wit (rxCheck true b == .good && frType b == 2) (.cadDelayReqRx 0 b) root (fun u => u.port 0 != root.port 0 || u.regs != root.regs) =
      true := by decide +kernel
theorem test_delay_resp : let b := frame 3 0 0 (List.replicate 10 0)
    wit (rxCheck true b == .good && frType b == 3) (.cadDelayRespRx PU b) follower (fun u => u.cad.xs == []) = true := by
  decide +kernel
theorem test_bell : let b := frame 0x12 0 0 [1]
    wit (rxCheck true b == .good && frType b == 0x12) (.cadBellRx PU b) follower (fun u => bitOf (u.reg (R.CL_EVT PU)) 5) = true := by
  decide +kernel
theorem test_echo : let b := frame 0x3F 0 0 []
    wit (rxCheck true b == .good && frType b == 0x3F) (.cadEchoRx 0 b) root (fun u => u.port 0 != root.port 0) = true := by
  decide +kernel
theorem test_sync_from_below : let b := frame 1 2 0x00000F (List.replicate 16 0)
    wit (rxCheck true b == .good) (.cadFrameRx 0 true b) root (fun u => u.rd (F.CL_ERR1_CODE_ROUTE 0) == 1) = true := by
  decide +kernel
theorem test_forward : let b := frame 0x10 1 0x000001 [1]
    let s := { follower with cad := { follower.cad with tier := 1 } }
    wit (rxCheck true b == .good && frHop b == 1 && routeMode (frRoute b) == 1) (.cadFrameRx PU true b)
      (s.modCl 0 fun l => { l with st := .up }) (fun u => (u.port 0).cl.outQ.length == 1) = true := by
  decide +kernel
/-- A frame is on P0's wire. -/
def onWire (k : FrameKind) : State := root.modCl 0 fun l => { l with wire := some { kind := k, bytes := mkFrame 0 0 0 0 0 0 0 [] } }
theorem test_tx_done : wit true (.cadFrameTxDone 0) (onWire .other) (fun u => (u.port 0).cl.wire.isNone) = true := by decide +kernel
theorem test_tx_launch : wit true (.cadFrameTxDone 0) (onWire (.launch 0)) (fun u => (u.port 0).cl.wire.isNone) = true := by
  decide +kernel
theorem test_tx_train : wit true (.cadFrameTxDone 0) ((onWire .train).modCl 0 fun l => { l with st := .train })
    (fun u => lst u 0 == .up) = true := by decide +kernel
theorem test_sync_due : wit (root.sendsSync && downPorts.any root.timedMay) .cadSyncDue root
    (fun u => u.cad.seqSync == 1 && (u.port 0).cl.wire.isSome) = true := by decide +kernel
/-- A DELAY exchange waits. -/
def exchange (t3 : Option TbTime) : State := { follower with cad := { follower.cad with
  xs := [{ t1 := ⟨0, 0⟩, c1 := 0, t2 := ⟨0, 0⟩, due := ⟨0, 0⟩, t3 := t3 }] } }
theorem test_delay_due : wit (tbLe ⟨0, 0⟩ follower.tb0 && follower.timedMay PU) .cadDelayReqDue (exchange none)
    (fun u => u.cad.seqReq == 1 && (u.port PU).cl.wire.isSome) = true := by decide +kernel
theorem test_delay_miss : wit true .cadDelayRespMiss (exchange (some ⟨0, 0⟩)) (fun u => u.cad.xs == [] &&
    u.rd F.CL_XS_STAT_MISS == 1) = true := by decide +kernel
theorem test_sync_absent : wit follower.cadSync .cadSyncAbsent follower (fun u => u.cad.syncAbsent) = true := by decide +kernel
theorem test_xs_read : wit (follower.reaches .usb R.CL_XS_STAT) (.puClXsStatRead .usb) (follower.setReg R.CL_XS_T1_SHI 5)
    (fun u => u.readValue .usb R.CL_XS_T1_SHI == 5) = true := by decide +kernel
/-- P0's launch queue runs, owned by the register paths. -/
def queue (f : LaunchQ → LaunchQ) : State := (root.modLq 0 fun l => f { l with st := .run, base := 60 }).wr (F.CL_LQ_CTRL_OWNER 0) 1
theorem test_tail : wit ((queue id).reaches .usb (lqTailReg 0)) (.cadTailWrite .usb 0 1) (queue id)
    (fun u => (u.lq 0).tail == 1 && (u.lq 0).handed.length == 1) = true := by decide +kernel
theorem test_resume : wit true (.cadQueueResume .usb 0 0) (queue fun l => { l with st := .halted }) (fun u => (u.lq 0).st == .run) = true := by
  decide +kernel
theorem test_flush_queue : wit true (.cadQueueFlush .usb 0 0) (queue id) (fun u => (u.lq 0).handed == []) = true := by decide +kernel
theorem test_rx_rd : wit ((queue id).reaches .usb (R.CL_RX_RD 0)) (.cadRxRdWrite .usb 0 0) (queue id) (fun u =>
    (u.port 0).cl.rx.rd == 0) = true := by decide +kernel
theorem test_prepared : wit true (.cadDescPrepared 0) (queue fun l => { l with tail := 1, handed := [(1, 3)] })
    (fun u => (u.lq 0).handed == []) = true := by decide +kernel
/-- A descriptor for P0. -/
def desc (o : PortOutcome) : HeadDesc := { words := List.replicate 8 0, seq := 0, frame := mkFrame 0x10 0 0 0 0 0 0 [], out := [(0, o)] }
theorem test_launch : wit (tbLe (desc .waiting).time root.tb0) (.cadLaunchTime 0) (queue fun l => { l with head := some (desc .waiting) })
    (fun u => u.port 0 != (queue fun l => { l with head := some (desc .waiting) }).port 0) = true := by decide +kernel
theorem test_complete_desc : wit (desc .onTime).ready (.cadDescComplete 0) (queue fun l => { l with tail := 1, flight := [desc .onTime] })
    (fun u => (u.lq 0).flight == [] && (u.lq 0).done == 1) = true := by decide +kernel
theorem test_ep2 : let b := (epPut 3 ([0, 0] ++ leBytes 2 36 ++ List.replicate 32 0) efn).modEp 3 fun e => { e with xfers := [36] }
    wit ((b.ep 3).fill == 36) .cadEp2Request b (fun u => (u.ep 3).fill == 0 || (u.ep 4).fill != 0) = true := by decide +kernel
theorem test_ep_ack : wit true (.cadEpRecordAck true) efn (fun u => u.ep 5 == efn.ep 5) = true := by decide +kernel

/-! ### Power states, faults, the management bus and registers (15, 16, 17) -/

/-- A hub with nothing to do, at which entry to SLEEP and DEEP is enabled. -/
def idle : State := (up.wr F.PWR_CTRL_SLEEP_EN 1).wr F.PWR_CTRL_DEEP_EN 1
def pst (u : State) : PwrState := u.pwr.st
def inSt (p : PwrState) (s : State := up) : State := s.modPwr fun x => { x with st := p }
theorem test_idle : let s := up.wr F.PWR_CTRL_IDLE_EN 1
    wit (s.isUp && s.rdB F.PWR_CTRL_IDLE_EN) .idleEnter s (fun u => pst u == .idle) = true := by decide +kernel
theorem test_sleep : wit (idle.awake && idle.entryAll 8) .autoSleepDue idle (fun u => pst u == .entering && u.pwr.target == .sleep) =
    true := by decide +kernel
theorem test_deep : wit (idle.awake && idle.entryAll 11) .autoDeepDue idle (fun u => pst u == .entering && u.pwr.target == .deep) =
    true := by decide +kernel
theorem test_cmd_deep : wit (up.reaches .usb R.PWR_CMD && !up.usbP.lockOpen) (.pwrCmdDeep .usb 0) up
    (fun u => u.pwr.request == some .deep || u.pwr.target == .deep) = true := by decide +kernel
theorem test_cmd_off : wit (unlocked.reaches .usb R.PWR_CMD && unlocked.usbP.lockOpen) (.pwrCmdOff .usb 0) unlocked
    (fun u => u.pwr.request == some .off || u.pwr.target == .off) = true := by decide +kernel
theorem test_cmd_blocked : wit true .pwrCmdBlocked (srcP.modPwr fun x => { x with request := some .off }) (fun u => u.pwr.request == none &&
    u.rd F.PWR_STATUS_RESULT == 2) = true := by decide +kernel
theorem test_asleep : wit true .powerEntryDone ((inSt .entering).modPwr fun x => { x with target := .sleep }) (fun u => pst u == .sleep) =
    true := by decide +kernel
theorem test_in_deep : wit true .powerEntryDone ((inSt .entering).modPwr fun x => { x with target := .deep }) (fun u => pst u == .deep &&
    !u.pwr.vddcOn) = true := by decide +kernel
theorem test_off : wit true .powerEntryDone ((inSt .entering).modPwr fun x => { x with target := .off }) (fun u =>
    u.glb.phase == .off) = true := by decide +kernel
theorem test_off_exit : wit true .wakeNOffExit (ladder .off) (fun u => u.glb.phase == .ldos && u.rd F.GLB_RST_CAUSE_CAUSE == 6) = true := by
  decide +kernel
theorem test_wake : wit ((inSt .sleep).isUp && (inSt .sleep).wakes .pd) (.wakeSource .pd none) (inSt .sleep)
    (fun u => pst u == .waking && u.pwr.from_ == .sleep) = true := by decide +kernel
theorem test_wake_deep : wit ((inSt .deep).wakes .pd) (.wakeSource .pd none) (inSt .deep)
    (fun u => pst u == .waking && u.pwr.from_ == .deep) = true := by decide +kernel
theorem test_wake_masked : let s := (inSt .sleep).setReg R.PWR_WAKE_EN 0
    wit (!s.wakes .wakeN) (.wakeSource .wakeN none) s (fun u => pst u == .sleep && u.reg R.PWR_WAKE_SRC != 0) = true := by decide +kernel
/-- A wake runs. -/
def waking (f : PwrState) (n : Fin 4) : State := (inSt .waking).modPwr fun x => { x with from_ := f, attempts := n }
theorem test_wake_done : wit (!(waking .sleep 1).pwr.retryDue) (.wakeDone 0) (waking .sleep 1) (fun u => pst u == .run) = true := by
  decide +kernel
theorem test_attempt : wit true (.wakeAttemptFail .vddcPg) (waking .deep 2) (fun u => u.pwr.retryDue &&
    u.rd F.PWR_WAKE_REC_FAIL_CAUSE == WakeFailCode .vddcPg) = true := by decide +kernel
theorem test_attempt_last : wit true (.wakeAttemptFail .vddcPg) (waking .deep 3) (fun u => pst u == .wakeFail && u.flt.wakeHold) = true := by
  decide +kernel
theorem test_retry : wit ((waking .deep 1).glb.phase != .x24) .wakeRetryDue ((waking .deep 1).modPwr fun x => { x with retryDue := true })
    (fun u => u.pwr.pmbCtrl && !u.pwr.retryDue) = true := by decide +kernel
theorem test_sentinel : wit (!isAttention [1, 2]) (.sentinelMessage 0 [1, 2]) (inSt .sleep srcP) (fun u =>
    (u.port 0).pd.sentinel == some [1, 2] && pst u == .waking) = true := by decide +kernel
theorem test_sentinel_keepalive : exec (.sentinelKeepalive 0) up = .next (settled up) := by rfl
theorem test_match : wit ((0x58 : BitVec 7).toNat == up.i2cAddr && up.aonUp) (.i2cAddressMatch 0x58) up (fun u => u.i2c.matched) = true := by
  decide +kernel
theorem test_dphy_down : let s := up.wr F.PWR_CTRL_DPHY_GATE 1
    wit (s.awake && !(quadPorts false).any s.gateOpen) (.dphyPowerDown false) s (fun u => u.pwr.dphyA != u.pwr.dphyB) = true := by
  decide +kernel
theorem test_dphy_up : let s := up.modPwr fun x => { x with dphyA := false, dphyB := false }
    wit (s.coreUp && s.isUp) (.dphyPowerUp true) s (fun u => u.pwr.dphyA != u.pwr.dphyB) = true := by decide +kernel
theorem test_crit : wit (up.aonUp && !up.flt.tempCrit) (.tempCrit 150) up (fun u => u.flt.tempCrit && u.flt.recovery &&
    u.rd F.FLT_TEMP_TEMP == 150) = true := by decide +kernel
theorem test_high : wit (!up.flt.tempHigh) (.tempHigh 135) up (fun u => u.flt.tempHigh && !u.flt.recovery) = true := by decide +kernel
theorem test_crit_end : wit true (.faultConditionEnd .tempCrit) (up.modFlt fun f => { f with tempCrit := true })
    (fun u => !u.flt.tempCrit) = true := by decide +kernel
theorem test_ov_end : wit true (.faultConditionEnd .vinOv) (up.modFlt fun f => { f with vinOv := true }) (fun u => !u.flt.vinOv) = true := by
  decide +kernel
theorem test_pulse_fault : wit true .faultNPulseEnd (up.modFlt fun f => { f with pulse := true }) (fun u => !u.flt.pulse) = true := by
  decide +kernel
theorem test_loop_end : wit true .resetLoopWindowExpire (up.modFlt fun f => { f with resets := [1, 2, 3], demoted := true })
    (fun u => u.flt.resets == [] && !u.flt.demoted) = true := by decide +kernel
def recovering : State := fed.modFlt fun f => { f with recovery := true }
theorem test_auto_end : wit (!recovering.classA && recovering.activeFeed.isSome) .recoveryAutoEnd recovering (fun u => !u.flt.recovery ||
    u.flt.releasing) = true := by decide +kernel
theorem test_end_recovery : let s := recovering.modPath .usb fun x => { x with lockOpen := true }
    wit (s.reaches .usb R.FLT_CMD) (.fltCmdEndRecovery .usb 0) s (fun u => !u.flt.recovery || u.flt.releasing) = true := by decide +kernel
theorem test_release : wit true .recoveryReleaseDue (recovering.modFlt fun f => { f with releasing := true, release := [.port 3] })
    (fun u => u.flt.release == []) = true := by decide +kernel
theorem test_cap_clear : wit (up.reaches .usb R.FLT_CAP_INFO) (.fltCapClear .usb 0) (up.setReg R.FLT_CAP_INFO 0x80000005)
    (fun u => u.reg R.FLT_CAP_INFO == 0) = true := by decide +kernel
/-- A transaction on the management bus: the register address, N and the bytes that follow. -/
def i2cBytes (a n : Nat) (l : List Byte) : List Byte := beBytes 3 a ++ [BitVec.ofNat 8 n] ++ l
def withPec (l : List Byte) : List Byte := l ++ [pec (0xB0 :: l)]
theorem test_i2c_write : let b := withPec (i2cBytes R.STO_FLIP_D 1 [5, 0, 0, 0])
    wit (i2cNOk b && (i2cMatched up).i2cReach b && !(i2cMatched up).i2cBusy) (.i2cWriteTransaction 0x58 b true) up
      (fun u => u.reg R.STO_FLIP_D == 5) = true := by decide +kernel
theorem test_i2c_pec : let b := i2cBytes R.STO_FLIP_D 1 [5, 0, 0, 0] ++ [0]
    wit (pec (0xB0 :: b.take 8) != 0) (.i2cWriteTransaction 0x58 b true) up (fun u => u.reg R.STO_FLIP_D == 0) = true := by
  decide +kernel
theorem test_i2c_format : wit true (.i2cWriteTransaction 0x58 [0, 0] true) up (fun u => u.i2c.acks.length == 3 &&
    u.regs != up.regs) = true := by decide +kernel
theorem test_i2c_read : let b := i2cBytes R.GLB_ID 1 []
    wit ((i2cMatched up).i2cTaken b) (.i2cReadTransaction 0x58 b 5) up (fun u => u.i2c.reply.take 4 ==
      wordBytes (regReset R.GLB_ID)) = true := by decide +kernel
theorem test_i2c_stretch : let s := up.modI2c fun i => { i with heldRead := some { hdr := [], nread := 5, left := 1, addr := 0, got := [], bad := false } }
    wit (!s.i2cP.popWait) .i2cStretchTimeout s (fun u => u.i2c.heldRead.isNone && u.i2c.reply.take 4 == [0xFF, 0xFF, 0xFF, 0xFF]) = true := by
  decide +kernel
theorem test_i2c_abandon : wit true .i2cAbandon (up.modPath .i2c fun x => { x with popWait := true }) (fun u => !u.i2cP.popWait) = true := by
  decide +kernel
theorem test_reg_write : wit (up.reaches .usb (wordAt (BitVec.ofNat 24 R.STO_FLIP_D))) (.registerWrite .usb (BitVec.ofNat 24 R.STO_FLIP_D) 5)
    up (fun u => u.reg R.STO_FLIP_D == 5) = true := by decide +kernel
theorem test_w1c : wit true (.w1cWrite .usb (BitVec.ofNat 24 (R.TC_EVT 3)) 2) (up.setReg (R.TC_EVT 3) 3)
    (fun u => u.reg (R.TC_EVT 3) == 1) = true := by decide +kernel
theorem test_commit : wit (up.reaches .usb R.GLB_COMMIT) (.glbCommit .usb 0xFFFF) up (fun u => u.usbP.pend.entries == []) = true := by decide +kernel
theorem test_discard : let s := up.modPath .usb fun x => { x with pend := { entries := [{ addr := R.FEED_CTRL, mask := 0xFFFFFFFF, val := 0 }] } }
    wit true (.glbDiscard .usb 0xFFFF) s (fun u => u.usbP.pend.entries == [] && u.reg R.FEED_CTRL == s.reg R.FEED_CTRL) = true := by decide +kernel
theorem test_commit_arm : wit (up.reaches .usb R.GLB_COMMIT_AT) (.glbCommitAtArm .usb 0xFFFF) up (fun u => u.glb.commitAt.isSome ||
    u.regs != up.regs) = true := by decide +kernel
theorem test_commit_cancel : wit true (.glbCommitAtCancel .usb 0) up (fun u => u.glb.commitAt.isNone) = true := by decide +kernel
theorem test_commit_fired : let s := after (.glbCommitAtArm .usb 0xFFFF) timed
    wit s.commitDue .commitAtFired s (fun u => u.glb.commitAt.isNone) = true := by decide +kernel
theorem test_lockring : wit (up.reaches .usb R.GLB_LOCKRING) (.glbLockringWrite .usb 0x6B1C) up (fun u => u.usbP.lockOpen && !u.i2cP.lockOpen) =
    true := by decide +kernel
theorem test_lockring_wrong : wit true (.glbLockringWrite .usb 0x6B1D) unlocked (fun u => !u.usbP.lockOpen) = true := by decide +kernel
theorem test_lockring_expire : wit true (.lockringExpire .usb) unlocked (fun u => !u.usbP.lockOpen) = true := by decide +kernel

/-! ### The whole hub -/

theorem test_reset : (State.reset.canonical && !State.reset.aonUp && State.reset.pending.isEmpty) = true := by decide
theorem test_step : step { up with pending := [.x24Ready] } = exec .x24Ready { up with pending := [] } := by rfl
theorem test_canonical : up.canonical = true ∧ outTest (step up) (fun u => u.canonical) = true := by decide +kernel
theorem test_ecc : let s := up.setCell 9 (flipped 5 [38])
    ((storeRead 0 9 s).1 == (5, false) && eccClass (s.cell 9) == .corrected &&
      eccClass ((up.setCell 9 (flipped 5 [0, 38])).cell 9) == .uncorrectable && flipped 5 [] == cleanCell 5) = true := by decide
theorem test_merge : ((storeMerge 0 9 0xFF 0x12 (up.setCell 9 (flipped 0x500 [3]))).cell 9 == cleanCell 0x512 &&
    eccClass ((storeMerge 0 9 0xFF 0x12 (up.setCell 9 (flipped 0x500 [3, 4]))).cell 9) == .uncorrectable) = true := by decide
theorem test_tick : let s := timed.modTim fun x => { x with discOk := true, tb0 := { sec := 1, ns := 999999999, frac := 0 } }
    s.pending = [] ∧ (s.aonUp && s.timeUp) = true ∧ outTest (step s) (fun u => u.tim.tb0 == { sec := 2, ns := 4, frac := 0 }) = true := by
  decide +kernel
theorem test_increment : ((timIncMoved (timed.setReg R.TIM_TB0_INC 0x06000000)).reg R.TIM_TB0_INC == 0x05800000 ||
    !timed.tim.discOk) = true := by decide
theorem test_latch : timed.usbP.latch.wf (fun _ => 0) = true ∧ timed.reaches .usb R.TIM_TB0_NS = true := by decide
theorem test_version : (up.maxVer == 1 && (up.modGlb fun g => { g with level := 2 }).maxVer == 2 && up.selVer 0 2 == 1) = true := by decide
theorem test_echo_reply : let l := mkFrame 0x3F 4 9 0 0 0 0 [1, 2]
    (frFlag l 2 && frLen l == 2 && upRx 0 ⟨0, 0⟩ 0 l root != root) = true := by decide +kernel
theorem test_delay_answer : let l := mkFrame 2 0 9 0xF 0 1 0 []
    let s := root.modCad fun c => { c with tier := 1 }
    (upAccepted s.tier (routeMode (frRoute l)) && !s.cadTransparent && (upRx 0 ⟨5, 6⟩ 0 l s).cad.seqResp == 1) = true := by
  decide +kernel
theorem test_reactions : let d : FaultDue := { src := .x24Stop }
    ((reactWarm d up).rd F.GLB_RST_CAUSE_CAUSE == 9 &&
      (reactWarm d (up.modFlt fun f => { f with resets := [0, 0, 0] })).flt.demoted) = true := by decide +kernel
theorem test_carving : carveCheck 16 (fun _ => false) [(0, 2), (2, 8)] = none ∧ carveCheck 16 (fun _ => false) [(0, 1)] ≠ none ∧
    carveCheck 16 (fun _ => false) [(0, 2), (1, 8)] ≠ none := by decide
theorem test_write_types : (regRow 0xFF00F0).isNone = true ∧ ((regRow (R.TC_EVT 3)).map fun r =>
    (plainWrite (R.TC_EVT 3) r 2 (up.setReg (R.TC_EVT 3) 3)).reg (R.TC_EVT 3)) = some 1 := by decide
theorem test_event : (efn.evqUp && efn.evq.held.isEmpty && (pushEvent 1 2 3 efn).evq.held.length == 1) = true := by decide +kernel
theorem test_event_aon : let s := (inSt .deep).modPwr fun x => { x with vddcOn := false }
    (!s.evqUp && (pushEvent 1 2 3 s).evq.aonBuf.length == 1) = true := by decide
theorem test_checksums : (pec [0xB0, 1, 2, pec [0xB0, 1, 2]] == 0 && rxCheck true (sealFrame false (mkFrame 0x10 0 0 0 0 0 0 [7])) == .good &&
    rxCheck true (sealFrame true (mkFrame 0x10 0 0 0 0 0 0 [7])) == .poison) = true := by decide

end Sys2Proof.Machine
end

section
/-! PROOFS. What a write of a register stores (R7, R8, R423, R432, R438, R439). The event a refused or overflowing write
queues touches the register file, the store and the queue, and of a path only its latch and its waiting pop: its pending
buffer stays. -/

namespace Sys2Proof.Machine

/-! ### What a path keeps, after an update of a path -/

theorem State.path_modPath (s : State) (p q : Path) (f : PathState → PathState) :
    (s.modPath p f).path q = if q = p then f (s.path q) else s.path q := by
  cases p <;> cases q <;> rfl

@[simp] theorem State.path_modPath_self (s : State) (p : Path) (f : PathState → PathState) :
    (s.modPath p f).path p = f (s.path p) := by
  rw [State.path_modPath, if_pos rfl]

theorem State.path_modPath_other (s : State) {p q : Path} (f : PathState → PathState) (h : q ≠ p) :
    (s.modPath p f).path q = s.path q := by
  rw [State.path_modPath, if_neg h]

@[simp] theorem State.modPath_regs (s : State) (p : Path) (f : PathState → PathState) : (s.modPath p f).regs = s.regs := by
  cases p <;> rfl

/-- An update that leaves the pending buffer of its path leaves every path's. -/
theorem State.pend_modPath (s : State) (p q : Path) {f : PathState → PathState} (hf : ∀ x, (f x).pend = x.pend) :
    ((s.modPath p f).path q).pend = (s.path q).pend := by
  rw [State.path_modPath]
  split
  · exact hf _
  · rfl

/-! ### Queueing an event: registers, store and queue only -/

/-- `t` is `s` but for the register file, the store and the event queue. -/
def QueueOnly (s t : State) : Prop :=
  ∃ (r : SMap Word) (m : Sto) (q : Evq), t = { s with regs := r, sto := m, evq := q }

variable {s t u : State}

theorem QueueOnly.refl : QueueOnly s s := ⟨s.regs, s.sto, s.evq, rfl⟩

theorem QueueOnly.trans (h : QueueOnly s t) (k : QueueOnly t u) : QueueOnly s u := by
  obtain ⟨_, _, _, rfl⟩ := h
  obtain ⟨r, m, q, rfl⟩ := k
  exact ⟨r, m, q, rfl⟩

theorem QueueOnly.path (h : QueueOnly s t) (q : Path) : t.path q = s.path q := by
  obtain ⟨_, _, _, rfl⟩ := h
  cases q <;> rfl

theorem setReg_queueOnly (a : Nat) (w : Word) : QueueOnly s (s.setReg a w) := ⟨_, s.sto, s.evq, rfl⟩

theorem storeWords_queueOnly (a : Nat) (l : List Word) : QueueOnly s (s.storeWords a l) := ⟨s.regs, _, s.evq, rfl⟩

theorem modEvq_queueOnly (f : Evq → Evq) : QueueOnly s (s.modEvq f) := ⟨s.regs, s.sto, _, rfl⟩

theorem evqCountLost_queueOnly (n : Nat) : QueueOnly s (evqCountLost n s) := setReg_queueOnly _ _

theorem evqOwe_queueOnly (n : Nat) : QueueOnly s (evqOwe n s) := modEvq_queueOnly _

theorem evqEnter_queueOnly (n : Nat) : QueueOnly s (evqEnter n s) := by
  induction n generalizing s with
  | zero => exact .refl
  | succ n ih =>
    simp only [evqEnter]
    split
    · exact .refl
    split
    · exact modEvq_queueOnly _
    split
    · exact .refl
    split
    · exact modEvq_queueOnly _
    · exact (modEvq_queueOnly _).trans ih

theorem evqStore_queueOnly (e : EvEntry) (w : Option Nat) : QueueOnly s (evqStore e w s) := by
  unfold evqStore
  split
  · exact evqOwe_queueOnly _
  · exact (storeWords_queueOnly _ _).trans (modEvq_queueOnly _)

theorem evqMakeLost_queueOnly (m : EvMeta) (n : Nat) : QueueOnly s (evqMakeLost m n s) := by
  unfold evqMakeLost
  split <;> exact storeWords_queueOnly _ _

theorem evqStop_queueOnly (free weight fresh : Nat) : QueueOnly s (evqStop free weight fresh s) := by
  refine (evqCountLost_queueOnly fresh).trans ?_
  unfold evqStop
  dsimp only
  split
  · exact evqOwe_queueOnly _
  split
  · exact (evqMakeLost_queueOnly _ _).trans (modEvq_queueOnly _)
  split
  · exact evqStore_queueOnly _ _
  · exact (evqCountLost_queueOnly 1).trans ((evqMakeLost_queueOnly _ _).trans (modEvq_queueOnly _))

theorem evqOverwrite_queueOnly (k : Nat) : QueueOnly s (evqOverwrite k s) := by
  induction k generalizing s with
  | zero => exact .refl
  | succ k ih =>
    simp only [evqOverwrite]
    split
    · exact .refl
    split
    · exact (evqCountLost_queueOnly _).trans ((evqMakeLost_queueOnly _ _).trans ((modEvq_queueOnly _).trans ih))
    · exact .refl

theorem evqPut_queueOnly (e : EvEntry) (w : Option Nat) : QueueOnly s (evqPut e w s) := by
  refine (evqEnter_queueOnly 17).trans ?_
  unfold evqPut
  dsimp only
  split
  · split
    · exact (evqOverwrite_queueOnly _).trans (evqStore_queueOnly _ _)
    · exact (evqOverwrite_queueOnly _).trans ((evqCountLost_queueOnly _).trans (evqOwe_queueOnly _))
  split
  · exact evqStore_queueOnly _ _
  · exact evqStop_queueOnly _ _ _

theorem evqEnqueue_queueOnly (e : EvEntry) : QueueOnly s (evqEnqueue e s) := by
  unfold evqEnqueue
  refine QueueOnly.trans ?_ (evqPut_queueOnly _ _)
  split
  · exact .refl
  · exact (modEvq_queueOnly _).trans (evqPut_queueOnly _ _)

theorem evqBuffer_queueOnly (e : EvEntry) : QueueOnly s (evqBuffer e s) := by
  unfold evqBuffer
  dsimp only
  split
  · exact modEvq_queueOnly _
  split <;> exact (evqCountLost_queueOnly 1).trans (modEvq_queueOnly _)

/-! ### An event leaves every pending buffer -/

theorem efnEndPop_path (l : List Word) (q : Path) : (efnEndPop l s).path q = s.path q := by
  unfold efnEndPop
  split <;> cases q <;> rfl

theorem i2cEndPop_path (l : List Word) (q : Path) : (i2cEndPop l s).path q = s.path q := by
  unfold i2cEndPop
  split <;> cases q <;> rfl

theorem endPop_pend (p q : Path) (l : List Word) : ((endPop p l s).path q).pend = (s.path q).pend := by
  have hl : ((latchPop p l (s.modPath p fun x => { x with popWait := false })).path q).pend = (s.path q).pend :=
    (State.pend_modPath _ p q (by intro _; rfl)).trans (State.pend_modPath s p q (by intro _; rfl))
  cases p with
  | loader => exact hl
  | i2c => exact (congrArg PathState.pend (i2cEndPop_path l q)).trans hl
  | usb => exact (congrArg PathState.pend (efnEndPop_path l q)).trans hl

theorem serveWaiting_pend (p q : Path) : ((serveWaiting p s).path q).pend = (s.path q).pend := by
  unfold serveWaiting
  split
  · exact (endPop_pend p q _).trans (congrArg PathState.pend ((modEvq_queueOnly _).path q))
  · rfl

theorem pushEntry_pend (e : EvEntry) (q : Path) : ((pushEntry e s).path q).pend = (s.path q).pend := by
  unfold pushEntry
  split
  · rw [serveWaiting_pend, serveWaiting_pend, (evqEnqueue_queueOnly e).path]
  · rw [(evqBuffer_queueOnly e).path]

theorem raiseEvt0_pend (a k : Nat) (q : Path) : ((raiseEvt0 a k s).path q).pend = (s.path q).pend :=
  (pushEntry_pend _ q).trans (congrArg PathState.pend ((setReg_queueOnly _ _).path q))

/-- Each path has its own pending buffer (R432). -/
theorem pendWrite_pend_other {p q : Path} (e : PendEntry) (s : State) (h : q ≠ p) :
    ((pendWrite p e s).path q).pend = (s.path q).pend := by
  unfold pendWrite
  split
  · rfl
  dsimp only
  split
  · rw [State.path_modPath_other s _ h]
  · rw [raiseEvt0_pend, State.path_modPath_other s _ h]

/-! ### Re-arming the lockring (R438) -/

theorem leaveIdle_regs : (leaveIdle s).regs = s.regs := by
  unfold leaveIdle
  split <;> rfl

theorem leaveIdle_path (q : Path) : (leaveIdle s).path q = s.path q := by
  unfold leaveIdle
  split <;> cases q <;> rfl

theorem dphyUp_regs (b : Bool) : (dphyUp b s).regs = s.regs := by
  unfold dphyUp
  split <;> rfl

theorem dphyUp_path (b : Bool) (q : Path) : (dphyUp b s).path q = s.path q := by
  unfold dphyUp
  split <;> cases q <;> rfl

/-- A touched register powers up its DPHY domain or does nothing. -/
theorem touchDomain_cases (a : Nat) (s : State) : touchDomain a s = s ∨ ∃ b, touchDomain a s = dphyUp b s := by
  unfold touchDomain
  split
  · split
    · exact .inr ⟨_, rfl⟩
    · exact .inl rfl
  · exact .inl rfl

theorem touchDomain_regs (a : Nat) : (touchDomain a s).regs = s.regs := by
  obtain h | ⟨b, h⟩ := touchDomain_cases a s <;> rw [h]
  exact dphyUp_regs b

theorem touchDomain_path (a : Nat) (q : Path) : (touchDomain a s).path q = s.path q := by
  obtain h | ⟨b, h⟩ := touchDomain_cases a s <;> rw [h]
  exact dphyUp_path b q

theorem rearmed_reg (p : Path) (a b : Nat) (s : State) : (rearmed p a s).reg b = s.reg b := by
  simp only [State.reg, rearmed, touchDomain_regs, leaveIdle_regs, State.modPath_regs]

theorem rearmed_path_self (p : Path) (a : Nat) (s : State) :
    (rearmed p a s).path p = { s.path p with lockOpen := false } := by
  rw [rearmed, touchDomain_path, leaveIdle_path, State.path_modPath_self]

theorem rearmed_path_other {p q : Path} (a : Nat) (s : State) (h : q ≠ p) : (rearmed p a s).path q = s.path q := by
  rw [rearmed, touchDomain_path, leaveIdle_path, State.path_modPath_other s _ h]

/-! ### What a write stores -/

/-- A register without ranges takes every value. -/
theorem clampWord_of_noRange {a : Nat} {r : RegRow} (w : Word) (hr : regRow a = some r) (hc : r.clamp = []) :
    clampWord a w = w := by
  simp [clampWord, hr, hc]

theorem plainWrite_reg_self {a : Nat} {r : RegRow} (v : Word) (h : s.canonical = true) (ho : ownStore a = false)
    (hc : r.clamp = []) (hr : regRow a = some r) :
    (plainWrite a r v s).reg a = ((s.reg a &&& ~~~(v &&& r.w1c)) &&& ~~~r.rw) ||| (v &&& r.rw) := by
  simp only [plainWrite, ho, State.reg_setReg_self h, clampWord_of_noRange _ hr hc, Bool.false_eq_true, if_false]

theorem plainWrite_reg_other {a b : Nat} (r : RegRow) (v : Word) (h : s.canonical = true) (hb : b ≠ a) :
    (plainWrite a r v s).reg b = s.reg b := State.reg_setReg_other h hb

theorem regWrite_unmapped {p : Path} {a : Nat} (v : Word) (s : State) (hr : regRow a = none) (hw : inWindow a = false) :
    regWrite p a v s = rearmed p a s := by
  simp [regWrite, hr, hw]

/-- A keyed field changed with the lockring closed is refused; the rest of the write is stored (R8, R439). -/
theorem rowStored_refused {p : Path} {a : Nat} {r : RegRow} {v : Word}
    (h : (v ^^^ s.currentFor p a) &&& (r.rwk ||| rwkcMask a r) ≠ 0) :
    rowStored p false a r v s = pendWrite p { addr := a, mask := r.rwc, val := v } (plainWrite a r v (keyRefused p a s)) := by
  have hm : r.rwc ||| (0 : Word) = r.rwc := BitVec.or_zero
  simp only [rowStored, bne_iff_ne.2 h, Bool.not_false, Bool.and_self, Bool.false_eq_true, if_true, if_false, hm]

theorem lockringWrite_lockOpen (p : Path) (v : Word) (s : State) :
    ((lockringWrite p v s).path p).lockOpen = decide (bitsOf v 0 16 = 0x6B1C) := by
  rw [lockringWrite, State.path_modPath_self]
  rfl

/-- The lockring command reaches the state its write leaves, with the ring as the key says (R438). -/
theorem glbLockringWrite_does {p : Path} {v : Word} (h : s.reaches p R.GLB_LOCKRING = true) :
    Does (.glbLockringWrite p v) s fun u => (u.path p).lockOpen = decide (bitsOf v 0 16 = 0x6B1C) := by
  refine ⟨lockringWrite p v (written p R.GLB_LOCKRING v s), ?_, lockringWrite_lockOpen p v _⟩
  rw [← write_GLB_LOCKRING h]
  rfl

/-- Settles O13: each clause is the lemma that says what the write's part of that name stores or leaves. -/
theorem writesStoreByFieldType : Obligations.WritesStoreByFieldType := by
  unfold Obligations.WritesStoreByFieldType
  intro s path a v h
  exact ⟨fun _ ho hc hr => plainWrite_reg_self v h ho hc hr,
    fun r _ hb => plainWrite_reg_other r v h hb,
    fun hr hw => regWrite_unmapped v s hr hw,
    fun b => rearmed_reg path a b s,
    congrArg PathState.lockOpen (rearmed_path_self path a s),
    fun _ hq => congrArg PathState.lockOpen (rearmed_path_other a s hq),
    fun _ hk => rowStored_refused hk,
    fun _ e hq => pendWrite_pend_other e s hq,
    fun _ hreach => glbLockringWrite_does hreach⟩

end Sys2Proof.Machine
end

section
/-! PROOFS. GLB_RESET starts the resets (R25, R40, R439): a bit of a word after it is set, and which reset the written word
begins. -/

namespace Sys2Proof.Machine

theorem bitOf_eq_getLsbD (w : Word) (k : Nat) : bitOf w k = w.getLsbD k := by
  have hbit : (bitsOf w k 1).testBit 0 = w.getLsbD k := by
    rw [testBit_bitsOf]
    simp
  have hlt : bitsOf w k 1 < 2 := Nat.mod_lt _ (by decide)
  rw [bitOf, ← hbit]
  generalize bitsOf w k 1 = n at hlt
  interval_cases n <;> rfl

theorem bitOf_setBit_self (w : Word) {k : Nat} (hk : k < 32) : bitOf (setBit w k) k = true := by
  simp [bitOf_eq_getLsbD, setBit, testBit_atBits, hk]

theorem bitOf_setBit_other (w : Word) {j k : Nat} (h : j ≠ k) : bitOf (setBit w k) j = bitOf w j := by
  have hout : (atBits k 1 1).getLsbD j = false := by
    rw [testBit_atBits]
    obtain hlt | hgt := Nat.lt_or_gt_of_ne h
    · simp [Nat.not_le.2 hlt]
    · simp [show ¬j < k + 1 by omega]
  simp [bitOf_eq_getLsbD, setBit, hout]

theorem glbReset_cold {v : Word} (s : State) (h : bitOf v 1 = true) : glbReset v s = coldReset 7 s := by
  simp [glbReset, h]

/-- WARM acts where COLD is not set: COLD goes before it. -/
theorem glbReset_warm {v : Word} (s : State) (h1 : bitOf v 1 = false) (h0 : bitOf v 0 = true) :
    glbReset v s = warmReset 8 s := by
  simp [glbReset, h1, h0]

/-- Settles O17: the write reaches `glbReset`, whose branch the bits of the written word choose. -/
theorem resetRegisterStartsTheResets : Obligations.ResetRegisterStartsTheResets := by
  unfold Obligations.ResetRegisterStartsTheResets
  intro s path v hr ho
  refine ⟨?_, fun hcold => ?_⟩
  · have hbit : bitOf (setBit v 1) 1 = true := bitOf_setBit_self v (by decide)
    exact congrArg fin ((write_GLB_RESET hr ho).trans (glbReset_cold _ hbit))
  · have hbit0 : bitOf (setBit v 0) 0 = true := bitOf_setBit_self v (by decide)
    have hbit1 : bitOf (setBit v 0) 1 = false := (bitOf_setBit_other v (by decide)).trans hcold
    exact congrArg fin ((write_GLB_RESET hr ho).trans (glbReset_warm _ hbit1 hbit0))

end Sys2Proof.Machine
end

section
/-! PROOFS. The bell, the tandem state and the aux outputs (R15, R88 to R95, R98 to R100, R140): what each operation comes to
in the states the commands find. -/

namespace Sys2Proof.Machine

variable {s : State}

/-! ### A raised fault -/

theorem raiseAt_flt (f : FSrc) (p : Option PortId) (s : State) :
    (raiseAt f p s).flt = { s.flt with due := s.flt.due ++ [{ src := f, port := p }] } := rfl

theorem raiseAt_due (f : FSrc) (p : Option PortId) (s : State) : ∃ d ∈ (raiseAt f p s).flt.due, d.src = f :=
  ⟨{ src := f, port := p }, by simp [raiseAt_flt], rfl⟩

@[simp] theorem raiseAt_regs (f : FSrc) (p : Option PortId) (s : State) : (raiseAt f p s).regs = s.regs := rfl
@[simp] theorem raiseAt_feed (f : FSrc) (p : Option PortId) (s : State) : (raiseAt f p s).feed = s.feed := rfl
@[simp] theorem raiseAt_ports (f : FSrc) (p : Option PortId) (s : State) : (raiseAt f p s).ports = s.ports := rfl

/-! ### VIN overvoltage (R88, R459) -/

@[simp] theorem Feed.setLine_vin (x : Feed) (f : FeedId) (l : FeedLine) : (x.setLine f l).vin = x.vin := by
  cases f <;> rfl

/-- The ACTIVE feed takes the cause of an overvoltage; a hub without one records none. -/
def overvoltageCause (s : State) : State :=
  match s.activeFeed with
  | some f => s.modLine f fun l => { l with cause := .overvoltage }
  | none => s

/-- Only a feed's line is touched. -/
theorem overvoltageCause_keeps (s : State) : (overvoltageCause s).feed.vin = s.feed.vin ∧
    (overvoltageCause s).flt = s.flt ∧ (overvoltageCause s).regs = s.regs ∧ (overvoltageCause s).ports = s.ports := by
  unfold overvoltageCause
  split
  · exact ⟨Feed.setLine_vin _ _ _, rfl, rfl, rfl⟩
  · exact ⟨rfl, rfl, rfl, rfl⟩

theorem vinOver_new {vin : Nat} (hv : 78000 < vin) (ha : s.aonUp = true) (ho : s.flt.vinOv = false) :
    vinOver vin s = raiseAt .vinOv none
      ((overvoltageCause (s.modFeed fun x => { x with vin := vin })).modFlt fun x => { x with vinOv := true }) := by
  have ha' : (s.modFeed fun x => { x with vin := vin }).aonUp = true := ha
  have ho' : (s.modFeed fun x => { x with vin := vin }).flt.vinOv = false := ho
  rw [vinOver, if_neg (by omega)]
  simp only [ha', ho', Bool.not_true, Bool.false_eq_true, if_false]
  rfl

theorem vinOvervoltage_does {vin : Nat} (hv : 78000 < vin) (hm : vin ≤ 100000) (ha : s.aonUp = true)
    (ho : s.flt.vinOv = false) : Does (.vinOvervoltage vin) s fun u => u.feed.vin = vin ∧ u.flt.vinOv = true ∧
      (∃ d ∈ u.flt.due, d.src = .vinOv) ∧ u.ports = s.ports ∧ u.regs = s.regs := by
  obtain ⟨hvin, -, hregs, hports⟩ := overvoltageCause_keeps (s.modFeed fun x => { x with vin := vin })
  refine ⟨vinOver vin s, if_neg (by omega), ?_⟩
  simp only [vinOver_new hv ha ho, raiseAt_feed, raiseAt_ports, raiseAt_regs, State.modFlt_feed, State.modFlt_ports,
    State.modFlt_regs]
  exact ⟨hvin, rfl, raiseAt_due _ _ _, hports, hregs⟩

/-! ### The bell and DEGRADED (R89 to R92) -/

theorem bellClear_above {vin : Nat} (dur : Nat) (hb : s.feed.bell = true) (hv : s.warnMv + 1000 < vin) :
    bellClear vin dur s = raiseEvt R.FEED_EVT 1 (BitVec.ofNat 32 dur)
      ((sendBells true (s.modFeed fun x => { x with vin := vin, bell := false })).setReg R.FEED_BELL_DUR
        (BitVec.ofNat 32 dur)) := by
  simp [bellClear, hb, hv]

/-! ### The tandem state (R94, R140) -/

theorem tandemIn_enters {vtan : Nat} (hl : s.feed.totalLoss = true) (ht : s.feed.tandem = false) (hv : 4400 ≤ vtan)
    (he : s.feedEn 3 = true) (hp : s.puHolds = false) :
    tandemIn vtan s = rdTrack (feedEvt 4 (levelDown ((s.modFeed fun x =>
      { x with vtan := vtan, ftPresent := true, tandem := true }).modPwr fun x =>
        { x with vaux := .vtan, afeOn := false }))) := by
  simp [tandemIn, hl, ht, hv, he, hp]

/-- A move of VTAN touches the feeds and the source of VAUX5 only. -/
theorem vtanMoved_up (vtan : Nat) (ha : s.aonUp = true) : (vtanMoved vtan s).feed =
    { s.feed with vtan := vtan, ftPresent := decide (4400 ≤ vtan) && s.feedEn 3 } ∧
    (vtanMoved vtan s).regs = s.regs ∧ (vtanMoved vtan s).ports = s.ports ∧ (vtanMoved vtan s).sto = s.sto := by
  unfold vtanMoved
  rw [if_neg (by simp [ha])]
  dsimp only
  split <;> exact ⟨rfl, rfl, rfl, rfl⟩

/-! ### Aux outputs (R99, R100) -/

/-- The check locks an output that still stands at 3 V or more, but not in the tandem state. -/
theorem axCheck_due {a : AxId} (vsns : Nat) (hc : (s.ax a).offCheck = true) :
    axCheck a vsns s = if 3000 ≤ vsns ∧ s.feed.tandem = false then
      axLock a .shortedPass (feedEvt 7 (s.modAx a fun x => { x with offCheck := false }))
    else s.modAx a fun x => { x with offCheck := false } := by
  have ht : (s.modAx a fun x => { x with offCheck := false }).feed.tandem = s.feed.tandem := rfl
  simp [axCheck, hc, ht]

theorem axPgood_conducting {a : AxId} (h : (s.ax a).st = .on ∨ (s.ax a).st = .limit) :
    axPgood a s = s.modAx a fun x => { x with pgood := x.pgood || x.gateFull } := by
  rcases h with h | h <;> simp [axPgood, h]

/-- Settles O24: each clause is the equation of the operation the command runs; a VIN above 100 V is refused as stress (log 14). -/
theorem bellTandemAndAuxOutputsFollowTheSupply : Obligations.BellTandemAndAuxOutputsFollowTheSupply := by
  unfold Obligations.BellTandemAndAuxOutputsFollowTheSupply
  intro s
  refine ⟨fun vin hv hm ha ho => vinOvervoltage_does hv hm ha ho, fun vin hv => if_pos hv, ?_, ?_, ?_, ?_, ?_, ?_, ?_, ?_, ?_⟩
  · intro vin hv ha
    exact congrArg fin (if_pos (by simp [hv, ha]))
  · intro vin dur hb hv
    exact congrArg fin (bellClear_above dur hb hv)
  · intro hb hd
    exact congrArg fin (if_pos (by simp [hb, hd]))
  · intro hd hb
    exact congrArg fin (if_pos (by simp [hb, hd]))
  · intro vtan hl ht hv he hp
    exact congrArg fin (tandemIn_enters hl ht hv he hp)
  · intro vtan ha
    obtain ⟨hfeed, hregs, hports, hsto⟩ := vtanMoved_up vtan ha
    exact ⟨vtanMoved vtan s, rfl, by rw [hfeed], by rw [hfeed], hregs, hports, hsto⟩
  · intro a vsns hc hv ht
    exact congrArg fin ((axCheck_due vsns hc).trans (if_pos ⟨hv, ht⟩))
  · intro a vsns hc h
    exact congrArg fin ((axCheck_due vsns hc).trans (if_neg (by rcases h with h | h <;> simp [h])))
  · intro a h
    exact congrArg fin (axPgood_conducting h)

end Sys2Proof.Machine
end

section
/-! PROOFS. What only a reset moves while a command settles: the phase of the start and the stamps of the warm resets that
reactions begin (R26, R407). One lemma per operation that a reaction, a trip or a held commit of G1 can run, in the order of
the model's files; none of them moves either. -/

namespace Sys2Proof.Machine

/-- The phase of the start, and the stamps of the warm resets by reactions. -/
def State.era (s : State) : Phase × List Nat := (s.glb.phase, s.flt.resets)

variable (s : State)

@[simp] theorem State.era_ite {c : Prop} [Decidable c] (s t : State) :
    (if c then s else t).era = if c then s.era else t.era := apply_ite State.era c s t

@[simp] theorem forEach_era {α : Type} (l : List α) {f : α → State → State} (hf : ∀ x t, (f x t).era = t.era) :
    (forEach l f s).era = s.era := by
  unfold forEach
  induction l generalizing s with
  | nil => rfl
  | cons x l ih => exact (ih (f x s)).trans (hf x s)

theorem QueueOnly.era {s t : State} (h : QueueOnly s t) : t.era = s.era := by
  obtain ⟨_, _, _, rfl⟩ := h
  rfl

/-! ### Updates of the state -/

@[simp] theorem State.setReg_era (a : Nat) (w : Word) : (s.setReg a w).era = s.era := rfl
@[simp] theorem State.wr_era (f : Fld) (v : Nat) : (s.wr f v).era = s.era := rfl
@[simp] theorem State.addSat_era (f : Fld) (n : Nat) : (s.addSat f n).era = s.era := rfl
@[simp] theorem State.bump_era (f : Fld) : (s.bump f).era = s.era := rfl
@[simp] theorem State.modPp_era (p : PortId) (f : Pp → Pp) : (s.modPp p f).era = s.era := rfl
@[simp] theorem State.modTc_era (p : PortId) (f : Tc → Tc) : (s.modTc p f).era = s.era := rfl
@[simp] theorem State.modPd_era (p : PortId) (f : Pd → Pd) : (s.modPd p f).era = s.era := rfl
@[simp] theorem State.modU_era (p : PortId) (f : UPort → UPort) : (s.modU p f).era = s.era := rfl
@[simp] theorem State.modTt_era (p : PortId) (f : Tt → Tt) : (s.modTt p f).era = s.era := rfl
@[simp] theorem State.modCl_era (p : PortId) (f : Link → Link) : (s.modCl p f).era = s.era := rfl
@[simp] theorem State.modFeed_era (f : Feed → Feed) : (s.modFeed f).era = s.era := rfl
@[simp] theorem State.modPwr_era (f : Pwr → Pwr) : (s.modPwr f).era = s.era := rfl
@[simp] theorem State.modEvq_era (f : Evq → Evq) : (s.modEvq f).era = s.era := rfl
@[simp] theorem State.modPmb_era (f : Pmb → Pmb) : (s.modPmb f).era = s.era := rfl
@[simp] theorem State.modSto_era (f : Sto → Sto) : (s.modSto f).era = s.era := rfl
@[simp] theorem State.modHub_era (f : Hub → Hub) : (s.modHub f).era = s.era := rfl
@[simp] theorem State.modEfn_era (f : Efn → Efn) : (s.modEfn f).era = s.era := rfl
@[simp] theorem State.modTim_era (f : Tim → Tim) : (s.modTim f).era = s.era := rfl
@[simp] theorem State.modCad_era (f : Cad → Cad) : (s.modCad f).era = s.era := rfl
@[simp] theorem State.modDyn_era (f : Dyn → Dyn) : (s.modDyn f).era = s.era := rfl
@[simp] theorem State.modI2c_era (f : I2cEngine → I2cEngine) : (s.modI2c f).era = s.era := rfl
@[simp] theorem State.modBm_era (f : Bm → Bm) : (s.modBm f).era = s.era := rfl

@[simp] theorem State.modPath_era (p : Path) (f : PathState → PathState) : (s.modPath p f).era = s.era := by
  cases p <;> rfl

@[simp] theorem noticeIf_era (c : Bool) (w : WakeSrc) (p : Option PortId) : (noticeIf c w p s).era = s.era := by
  simp [noticeIf]

@[simp] theorem notice_era (w : WakeSrc) (p : Option PortId) : (notice w p s).era = s.era := by simp [notice]
@[simp] theorem State.modLine_era (f : FeedId) (g : FeedLine → FeedLine) : (s.modLine f g).era = s.era := rfl
@[simp] theorem State.modAx_era (a : AxId) (g : AxPath → AxPath) : (s.modAx a g).era = s.era := rfl

/-! ### Faults, events and their queue -/

@[simp] theorem State.setCell_era (k : Nat) (c : StoCell) : (s.setCell k c).era = s.era := rfl
@[simp] theorem raiseFault_era (d : FaultDue) : (raiseFault d s).era = s.era := rfl
@[simp] theorem raiseAt_era (f : FSrc) (p : Option PortId) : (raiseAt f p s).era = s.era := by simp [raiseAt]
@[simp] theorem evqCountLost_era (n : Nat) : (evqCountLost n s).era = s.era := (evqCountLost_queueOnly n).era
@[simp] theorem evqEnqueue_era (e : EvEntry) : (evqEnqueue e s).era = s.era := (evqEnqueue_queueOnly e).era
@[simp] theorem evqBuffer_era (e : EvEntry) : (evqBuffer e s).era = s.era := (evqBuffer_queueOnly e).era
@[simp] theorem evqDropOldest_era : (evqDropOldest s).era = s.era := by simp [evqDropOldest]
@[simp] theorem latchPop_era (p : Path) (ws : List Word) : (latchPop p ws s).era = s.era := by simp [latchPop]

@[simp] theorem i2cEndPop_era (ws : List Word) : (i2cEndPop ws s).era = s.era := by
  unfold i2cEndPop
  split <;> simp

@[simp] theorem efnEndPop_era (ws : List Word) : (efnEndPop ws s).era = s.era := by
  unfold efnEndPop
  split <;> rfl

@[simp] theorem endPop_era (p : Path) (ws : List Word) : (endPop p ws s).era = s.era := by
  unfold endPop
  split <;> simp

@[simp] theorem serveWaiting_era (p : Path) : (serveWaiting p s).era = s.era := by
  unfold serveWaiting
  split <;> simp

@[simp] theorem pushEntry_era (e : EvEntry) : (pushEntry e s).era = s.era := by simp [pushEntry]

@[simp] theorem pushEvent_era (source : Byte) (code : BitVec 16) (detail : Word) :
    (pushEvent source code detail s).era = s.era := by
  simp [pushEvent]

@[simp] theorem raiseEvt_era (a k : Nat) (detail : Word) : (raiseEvt a k detail s).era = s.era := by simp [raiseEvt]
@[simp] theorem raiseEvt0_era (a k : Nat) : (raiseEvt0 a k s).era = s.era := by simp [raiseEvt0]

/-! ### The store and its pages -/

@[simp] theorem eccLog_era (req page : Nat) (ue : Bool) : (eccLog req page ue s).era = s.era := by
  unfold eccLog
  split <;> simp

@[simp] theorem eccCorrected_era (req k : Nat) (w : Word) : (eccCorrected req k w s).era = s.era := by
  simp [eccCorrected]

@[simp] theorem eccUncorrectable_era (req k : Nat) : (eccUncorrectable req k s).era = s.era := by
  simp [eccUncorrectable]

@[simp] theorem storeRead_era (req k : Nat) : (storeRead req k s).2.era = s.era := by
  unfold storeRead
  dsimp only
  split <;> simp

@[simp] theorem storeReadWords_era (req n k : Nat) (s : State) : (storeReadWords req n k s).2.era = s.era := by
  induction n generalizing k s with
  | zero => rfl
  | succ n ih => simp [storeReadWords, ih]

@[simp] theorem storeWrite_era (k : Nat) (w : Word) (poison : Bool) : (storeWrite k w poison s).era = s.era := by
  simp [storeWrite]

@[simp] theorem allocNone_era (n : Nat) : (allocNone n s).era = s.era := by simp [allocNone]
@[simp] theorem allocAvail_era (n : Nat) : (allocAvail n s).era = s.era := by simp [allocAvail]

@[simp] theorem allocPage_era (n : Nat) : (allocPage n s).2.era = s.era := by
  unfold allocPage
  split <;> simp

@[simp] theorem freePageOf_era (p : Nat) : (freePageOf p s).era = s.era := by simp [freePageOf]

@[simp] theorem allocPages_era (n k : Nat) (s : State) : (allocPages n k s).2.era = s.era := by
  induction k generalizing s with
  | zero => rfl
  | succ k ih =>
    have hpage := allocPage_era s n
    unfold allocPages
    split
    next t h =>
      rw [h] at hpage
      exact hpage
    next g t h =>
      rw [h] at hpage
      have hrest := ih t
      split
      next u hu =>
        rw [hu] at hrest
        exact (freePageOf_era u g).trans (hrest.trans hpage)
      next l u hu =>
        rw [hu] at hrest
        exact hrest.trans hpage

/-! ### The PMBus queue -/

@[simp] theorem State.modTarget_era (i : Nat) (f : Target → Target) : (s.modTarget i f).era = s.era := rfl

@[simp] theorem pmbPump_era : (pmbPump s).era = s.era := by
  unfold pmbPump
  split <;> simp

@[simp] theorem pmbIssue_era (t : Txn) : (pmbIssue t s).era = s.era := by simp [pmbIssue]
@[simp] theorem pmbRaise_era (t : Txn) : (pmbRaise t s).era = s.era := by simp [pmbRaise]
@[simp] theorem pmbCut_era (i : Nat) : (pmbCut i s).era = s.era := by simp [pmbCut]
@[simp] theorem pmbOff_era (cls : Fin 7) (i : Nat) (why : PmbWhy) : (pmbOff cls i why s).era = s.era := by simp [pmbOff]
@[simp] theorem pmbOn_era (i : Nat) (why : PmbWhy) : (pmbOn i why s).era = s.era := by simp [pmbOn]

@[simp] theorem pmbVerify_era (i : Nat) : (pmbVerify i s).era = s.era := by
  unfold pmbVerify
  split <;> simp

@[simp] theorem pmbVerifyAll_era : (pmbVerifyAll s).era = s.era := by simp [pmbVerifyAll]

@[simp] theorem convOff_era (p : PortId) : (convOff p s).era = s.era := by
  unfold convOff
  split <;> simp

@[simp] theorem convOn_era (p : PortId) : (convOn p s).era = s.era := by
  unfold convOn
  split <;> simp

/-! ### Power paths -/

@[simp] theorem ppPairOff_era (p : PortId) : (ppPairOff p s).era = s.era := by simp [ppPairOff]
@[simp] theorem ppKick_era (p : PortId) : (ppKick p s).era = s.era := by simp [ppKick]
@[simp] theorem ppKickAll_era : (ppKickAll s).era = s.era := by simp [ppKickAll]

@[simp] theorem ppOff_era (p : PortId) : (ppOff p s).era = s.era := by
  unfold ppOff
  (repeat' split) <;> simp

@[simp] theorem ppEvt_era (p : PortId) (k : Nat) : (ppEvt p k s).era = s.era := by simp [ppEvt]
@[simp] theorem ppTripState_era (p : PortId) (c : PpCause) : (ppTripState p c s).era = s.era := by simp [ppTripState]
@[simp] theorem ppEnterRamp_era (p : PortId) (vsns : Nat) : (ppEnterRamp p vsns s).era = s.era := by simp [ppEnterRamp]

@[simp] theorem axTripState_era (a : AxId) (c : FeedCause) (counted : Bool) :
    (axTripState a c counted s).era = s.era := by
  unfold axTripState
  split <;> simp

/-! ### The PD engine and the budget -/

@[simp] theorem pdSend_era (p : PortId) (m : PdMsg) : (pdSend p m s).era = s.era := by simp [pdSend]
@[simp] theorem pdStart_era (p : PortId) (m : PdMsg) : (pdStart p m s).era = s.era := by simp [pdStart]
@[simp] theorem pdEvt_era (p : PortId) (k : Nat) : (pdEvt p k s).era = s.era := by simp [pdEvt]

/-- What the operation that sends keeps, the sending of capabilities keeps. -/
@[simp] theorem pdCapsVia_era {send : PdMsg → State → State} (p : PortId) (eprMsg : Bool)
    (h : ∀ m t, (send m t).era = t.era) : (pdCapsVia send p eprMsg s).era = s.era := by
  simp [pdCapsVia, h]

@[simp] theorem pdSendCaps_era (p : PortId) : (pdSendCaps p s).era = s.era := by simp [pdSendCaps]
@[simp] theorem bmHardLimit_era (p : PortId) : (bmHardLimit p s).era = s.era := by simp [bmHardLimit]
@[simp] theorem bmRelease_era (p : PortId) : (bmRelease p s).era = s.era := by simp [bmRelease]
@[simp] theorem bmOffer_era (p : PortId) : (bmOffer p s).era = s.era := by simp [bmOffer]

@[simp] theorem bmTake_era (l : List PortId) (d : Nat) (s : State) : (bmTake l d s).era = s.era := by
  induction l generalizing d s with
  | nil => rfl
  | cons p l ih => simp [bmTake, ih]

@[simp] theorem bmWalk_era : (bmWalk s).era = s.era := by simp [bmWalk]
@[simp] theorem bmRegrant_era (p : PortId) : (bmRegrant p s).era = s.era := by simp [bmRegrant]
@[simp] theorem pdEndContract_era (p : PortId) : (pdEndContract p s).era = s.era := by simp [pdEndContract]
@[simp] theorem pdSoftReset_era (p : PortId) : (pdSoftReset p s).era = s.era := by simp [pdSoftReset]
@[simp] theorem pdHardResetTx_era (p : PortId) : (pdHardResetTx p s).era = s.era := by simp [pdHardResetTx]

@[simp] theorem pdPage_era (g : Nat) : (pdPage g s).2.era = s.era := by
  unfold pdPage
  dsimp only
  (repeat' split) <;> simp

@[simp] theorem pdPages_era (l : List Nat) (s : State) : (pdPages l s).2.era = s.era := by
  induction l generalizing s with
  | nil => rfl
  | cons g l ih => simp [pdPages, ih]

@[simp] theorem pdReset_era (p : PortId) : (pdReset p s).era = s.era := by simp [pdReset]

/-! ### Cadence links and queues -/

@[simp] theorem clEvt_era (p : PortId) (k : Nat) : (clEvt p k s).era = s.era := by simp [clEvt]
@[simp] theorem cadEvt_era (k : Nat) : (cadEvt k s).era = s.era := by simp [cadEvt]
@[simp] theorem setTier_era (t : Fin 6) : (setTier t s).era = s.era := by simp [setTier]
@[simp] theorem freeIdle_era : (freeIdle s).era = s.era := by simp [freeIdle]

@[simp] theorem State.modLq_era (q : Fin 18) (f : LaunchQ → LaunchQ) : (s.modLq q f).era = s.era := by
  unfold State.modLq
  split <;> simp

@[simp] theorem pushCompletion_era (r : List Byte) (slot : Option (Fin 18 × BitVec 16)) :
    (pushCompletion r slot s).era = s.era := by
  simp [pushCompletion]

@[simp] theorem completeDesc_era (q : Fin 18) (d : HeadDesc) : (completeDesc q d s).era = s.era := by
  unfold completeDesc
  (repeat' split) <;> simp

@[simp] theorem readDesc_era (q : Fin 18) (c : Nat) : (readDesc q c s).2.era = s.era := by simp [readDesc]

@[simp] theorem completeUnread_era (q : Fin 18) (st : Byte) : (completeUnread q st s).era = s.era := by
  simp [completeUnread]

@[simp] theorem completeUnreads_era (q : Fin 18) (st : Byte) (n : Nat) (s : State) :
    (completeUnreads q st n s).era = s.era := by
  induction n generalizing s with
  | zero => rfl
  | succ n ih => simp [completeUnreads, ih]

@[simp] theorem completeList_era (q : Fin 18) (st : Byte) (l : List HeadDesc) (s : State) :
    (completeList q st l s).era = s.era := by
  induction l generalizing s with
  | nil => rfl
  | cons d l ih => simp [completeList, ih]

@[simp] theorem completeAll_era (q : Fin 18) (st : Byte) : (completeAll q st s).era = s.era := by simp [completeAll]
@[simp] theorem rxOwn_era (p : PortId) : (rxOwn p s).era = s.era := by simp [rxOwn]

@[simp] theorem settleHead_era (q : Fin 18) : (settleHead q s).era = s.era := by
  unfold settleHead
  split <;> simp

@[simp] theorem excuseBroadcast_era (p : PortId) : (excuseBroadcast p s).era = s.era := by simp [excuseBroadcast]

@[simp] theorem linkDown_era (p : PortId) (c : LCause) (dst : LState) : (linkDown p c dst s).era = s.era := by
  simp [linkDown]

@[simp] theorem cadLeave_era (p : PortId) (c : LCause) : (cadLeave p c s).era = s.era := by simp [cadLeave]

@[simp] theorem startVdm_era (p : PortId) (svid obj cmd : Nat) (vdos : List Word) :
    (startVdm p svid obj cmd vdos s).era = s.era := by
  simp [startVdm]

@[simp] theorem cadExit_era (p : PortId) : (cadExit p s).era = s.era := by simp [cadExit]

/-! ### The USB hub, its translators and the function -/

@[simp] theorem hpEvt_era (p : PortId) (k : Nat) : (hpEvt p k s).era = s.era := by simp [hpEvt]
@[simp] theorem hubEvt_era (k : Nat) : (hubEvt k s).era = s.era := by simp [hubEvt]
@[simp] theorem ocTrack_era (p : PortId) : (ocTrack p s).era = s.era := by simp [ocTrack]
@[simp] theorem localTrack_era : (localTrack s).era = s.era := by simp [localTrack]
@[simp] theorem ttEvt_era (p : PortId) (k : Nat) : (ttEvt p k s).era = s.era := by simp [ttEvt]
@[simp] theorem ttDiscard_era (p : PortId) (cut : Bool) : (ttDiscard p cut s).era = s.era := by simp [ttDiscard]

@[simp] theorem ttReplace_era (l : List Nat) (s : State) : (ttReplace l s).2.era = s.era := by
  induction l generalizing s with
  | nil => rfl
  | cons g l ih =>
    unfold ttReplace
    dsimp only
    split
    · split <;> simp [ih]
    · simp [ih]

@[simp] theorem ttTake_era : (ttTake s).2.era = s.era := by
  unfold ttTake
  dsimp only
  split <;> simp

@[simp] theorem ttNoPage_era (p : PortId) : (ttNoPage p s).era = s.era := by simp [ttNoPage]

@[simp] theorem ttReset_era (p : PortId) (cut : Bool) : (ttReset p cut s).era = s.era := by
  unfold ttReset
  dsimp only
  split <;> simp

@[simp] theorem ttResetAll_era : (ttResetAll s).era = s.era := by simp [ttResetAll]
@[simp] theorem uDisconnect_era (p : PortId) : (uDisconnect p s).era = s.era := by simp [uDisconnect]
@[simp] theorem gateClose_era (p : PortId) : (gateClose p s).era = s.era := by simp [gateClose]

@[simp] theorem withGate_era (p : PortId) {f : State → State} (h : ∀ t, (f t).era = t.era) :
    (withGate p f s).era = s.era := by
  simp [withGate, h]

@[simp] theorem hubPortsOff_era : (hubPortsOff s).era = s.era := by
  rw [hubPortsOff, ttResetAll_era, State.modHub_era]
  exact forEach_era s downPorts fun _ _ => rfl

@[simp] theorem efnEvt_era (k : Nat) : (efnEvt k s).era = s.era := by simp [efnEvt]
@[simp] theorem mtrLost_era (n : Nat) : (mtrLost n s).era = s.era := by simp [mtrLost]
@[simp] theorem epsClear_era : (epsClear s).era = s.era := by simp [epsClear]

@[simp] theorem batchCut_era : (batchCut s).era = s.era := by
  unfold batchCut
  split <;> simp

@[simp] theorem efnDown_era (st : EfnState) (n : Nat) : (efnDown st n s).era = s.era := by simp [efnDown]
@[simp] theorem tb2Lose_era : (tb2Lose s).era = s.era := by simp [tb2Lose]
@[simp] theorem hubUnconfigure_era : (hubUnconfigure s).era = s.era := by simp [hubUnconfigure]
@[simp] theorem hubBusReset_era (sp : UsbSpeed) : (hubBusReset sp s).era = s.era := by simp [hubBusReset]
@[simp] theorem hubDetach_era : (hubDetach s).era = s.era := by simp [hubDetach]

/-! ### What a change of the link's allowance sends -/

@[simp] theorem modOutcome_era (q : Fin 18) (p : PortId) (f : PortOutcome → Bool) (o : PortOutcome → PortOutcome) :
    (modOutcome q p f o s).era = s.era := by
  simp [modOutcome]

@[simp] theorem lateFault_era (q : Fin 18) : (lateFault q s).era = s.era := by simp [lateFault]
@[simp] theorem reActual_era (q : Fin 18) : (reActual q s).era = s.era := by simp [reActual]

@[simp] theorem launchAborted_era (q : Fin 18) (p : PortId) : (launchAborted q p s).era = s.era := by
  unfold launchAborted
  (repeat' split) <;> simp

@[simp] theorem cadAbort_era (p : PortId) : (cadAbort p s).era = s.era := by
  unfold cadAbort
  (repeat' split) <;> simp

@[simp] theorem cadRetrain_era (p : PortId) (ver : Fin 3) : (cadRetrain p ver s).era = s.era := by simp [cadRetrain]
@[simp] theorem cadAttention_era (ver : Fin 3) : (cadAttention ver s).era = s.era := by simp [cadAttention]
@[simp] theorem cadAllowance_era : (cadAllowance s).era = s.era := by simp [cadAllowance]

/-! ### Type-C -/

@[simp] theorem tcEvt_era (p : PortId) (k : Nat) : (tcEvt p k s).era = s.era := by simp [tcEvt]

@[simp] theorem tcEnter_era (p : PortId) (st : TcState) : (tcEnter p st s).era = s.era := by
  rw [tcEnter, withGate_era]
  · simp
  · exact fun _ => rfl

@[simp] theorem tcSinkOnly_era (p : PortId) : (tcSinkOnly p s).era = s.era := by
  unfold tcSinkOnly
  split <;> simp

@[simp] theorem rdTrack_era : (rdTrack s).era = s.era := by simp [rdTrack]

@[simp] theorem tcLeave_era (p : PortId) (c : LCause) (st : TcState) : (tcLeave p c st s).era = s.era := by
  simp [tcLeave]

@[simp] theorem errRefused_era (p : PortId) : (errRefused p s).era = s.era := by simp [errRefused]
@[simp] theorem tcRecoverNow_era (p : PortId) : (tcRecoverNow p s).era = s.era := by simp [tcRecoverNow]
@[simp] theorem tcErrRecovery_era (p : PortId) : (tcErrRecovery p s).era = s.era := by simp [tcErrRecovery]
@[simp] theorem tcHold_era (p : PortId) (st : TcState) : (tcHold p st s).era = s.era := by simp [tcHold]

/-! ### The service level -/

@[simp] theorem eprExitStart_era (p : PortId) : (eprExitStart p s).era = s.era := by simp [eprExitStart]
@[simp] theorem eprCheck_era : (eprCheck s).era = s.era := by simp [eprCheck]
@[simp] theorem bmRecompute_era : (bmRecompute s).era = s.era := by simp [bmRecompute]

@[simp] theorem discReached_era : (discReached s).era = s.era := by
  unfold discReached
  dsimp only
  split <;> simp

@[simp] theorem levelEvent_era (n old : Nat) : (levelEvent n old s).era = s.era := by simp [levelEvent]

theorem modGlb_level_era (n : Fin 3) : (s.modGlb fun g => { g with level := n, levelSet := true }).era = s.era := rfl

@[simp] theorem setLevel_era (n : Fin 3) : (setLevel n s).era = s.era := by
  simp [setLevel, modGlb_level_era]

@[simp] theorem levelDown_era : (levelDown s).era = s.era := by simp [levelDown]
@[simp] theorem pdTableChanged_era (p : PortId) : (pdTableChanged p s).era = s.era := by simp [pdTableChanged]

/-! ### Feeds and aux outputs -/

@[simp] theorem feedEvt_era (k : Nat) : (feedEvt k s).era = s.era := by simp [feedEvt]
@[simp] theorem feedPairOff_era (f : FeedId) : (feedPairOff f s).era = s.era := by simp [feedPairOff]
@[simp] theorem feedPairOn_era (f : FeedId) (live : Bool) : (feedPairOn f live s).era = s.era := by simp [feedPairOn]
@[simp] theorem dynEnd_era (k : Nat) : (dynEnd k s).era = s.era := by simp [dynEnd]
@[simp] theorem dynAbandon_era : (dynAbandon s).era = s.era := by simp [dynAbandon]
@[simp] theorem feedConducts_era (f : FeedId) : (feedConducts f s).era = s.era := by simp [feedConducts]
@[simp] theorem feedStart_era (f : FeedId) (first : Bool) : (feedStart f first s).era = s.era := by simp [feedStart]

@[simp] theorem feedSelect_era : (feedSelect s).era = s.era := by
  unfold feedSelect
  (repeat' split) <;> simp

@[simp] theorem feedBreak_era (f : FeedId) (next : FeedState) : (feedBreak f next s).era = s.era := by simp [feedBreak]

@[simp] theorem fcLost_era : (fcLost s).era = s.era := by
  unfold fcLost
  dsimp only
  (repeat' split) <;> simp

@[simp] theorem axOff_era (a : AxId) : (axOff a s).era = s.era := by
  unfold axOff
  split <;> simp

@[simp] theorem axTrip_era (a : AxId) (c : FeedCause) (counted : Bool) : (axTrip a c counted s).era = s.era := by
  simp [axTrip]

@[simp] theorem feedApplyEn_era (f : FeedId) : (feedApplyEn f s).era = s.era := by
  unfold feedApplyEn
  (repeat' split) <;> simp

@[simp] theorem feedReorder_era : (feedReorder s).era = s.era := by
  unfold feedReorder
  split <;> simp

@[simp] theorem feedApplyCtrl_era (moved : Bool) : (feedApplyCtrl moved s).era = s.era := by simp [feedApplyCtrl]

/-! ### Trips and Hard Resets -/

@[simp] theorem portErrRecovery_era (p : PortId) : (portErrRecovery p s).era = s.era := by simp [portErrRecovery]
@[simp] theorem portHold_era (p : PortId) (st : TcState) : (portHold p st s).era = s.era := by simp [portHold]

@[simp] theorem portApplyDisable_era (p : PortId) : (portApplyDisable p s).era = s.era := by
  unfold portApplyDisable
  split <;> simp

@[simp] theorem hardResetCommon_era (p : PortId) : (hardResetCommon p s).era = s.era := by simp [hardResetCommon]
@[simp] theorem hardResetNow_era (p : PortId) : (hardResetNow p s).era = s.era := by simp [hardResetNow]
@[simp] theorem hardReset_era (p : PortId) : (hardReset p s).era = s.era := by simp [hardReset]
@[simp] theorem pdPathTrip_era (p : PortId) : (pdPathTrip p s).era = s.era := by simp [pdPathTrip]
@[simp] theorem pathTrip_era (p : PortId) (c : PpCause) : (pathTrip p c s).era = s.era := by simp [pathTrip]

@[simp] theorem tripPath_era (x : PathRef) (c : PpCause) (fc : FeedCause) : (tripPath x c fc s).era = s.era := by
  unfold tripPath
  split <;> simp

@[simp] theorem ppForceOff_era (p : PortId) : (ppForceOff p s).era = s.era := by simp [ppForceOff]

/-! ### The start cause -/

@[simp] theorem setCause_era (c port : Nat) : (setCause c port s).era = s.era := by simp [setCause]

/-! ### The fault collector, but for its reactions -/

@[simp] theorem faultCapture_era (d : FaultDue) : (faultCapture d s).era = s.era := by simp [faultCapture]

@[simp] theorem faultCount_era (d : FaultDue) : (faultCount d s).era = s.era := by
  unfold faultCount
  split <;> simp

@[simp] theorem safeStateAll_era : (safeStateAll s).era = s.era := by simp [safeStateAll]
@[simp] theorem faultEvent_era (d : FaultDue) : (faultEvent d s).era = s.era := by simp [faultEvent]

@[simp] theorem safeStatePort_era (d : FaultDue) : (safeStatePort d s).era = s.era := by
  unfold safeStatePort
  split <;> simp

@[simp] theorem feedsClassA_era : (feedsClassA s).era = s.era := by simp [feedsClassA]

@[simp] theorem classAFault_era : (classAFault s).era = s.era := by
  have hflt : (s.modFlt fun f => { f with recovery := true, releasing := false, release := [] }).era = s.era := rfl
  simp [classAFault, hflt]

/-! ### What a commit of held registers does -/

@[simp] theorem pmbSlew_era (p : PortId) : (pmbSlew p s).era = s.era := by
  unfold pmbSlew
  (repeat' split) <;> simp

@[simp] theorem State.modEp_era (e : Fin 7) (f : EpBuf → EpBuf) : (s.modEp e f).era = s.era := rfl
@[simp] theorem epEmpty_era (e : Fin 7) : (epEmpty e s).era = s.era := by simp [epEmpty]
@[simp] theorem tcApplyRp_era (p : PortId) : (tcApplyRp p s).era = s.era := by simp [tcApplyRp]

@[simp] theorem takeRun_era (k : Nat) : (takeRun k s).2.era = s.era := by
  unfold takeRun
  split <;> simp

@[simp] theorem freeRunOf_era (b k : Nat) : (freeRunOf b k s).era = s.era := by simp [freeRunOf]

@[simp] theorem queueTake_era (q : Fin 18) : (queueTake q s).2.era = s.era := by
  unfold queueTake
  dsimp only
  (repeat' split) <;> simp

@[simp] theorem queueFree_era (q : Fin 18) : (queueFree q s).era = s.era := by simp [queueFree]

@[simp] theorem rxTake_era (p : PortId) : (rxTake p s).2.era = s.era := by
  unfold rxTake
  dsimp only
  (repeat' split) <;> simp

@[simp] theorem rxFree_era (p : PortId) : (rxFree p s).era = s.era := by simp [rxFree]

@[simp] theorem ringsTake_era (p : PortId) : (ringsTake p s).era = s.era := by
  unfold ringsTake
  split <;> simp

@[simp] theorem broadcastFree_era : (broadcastFree s).era = s.era := by simp [broadcastFree]
@[simp] theorem ringsFree_era (p : PortId) : (ringsFree p s).era = s.era := by simp [ringsFree]
@[simp] theorem clEnabled_era (p : PortId) : (clEnabled p s).era = s.era := by simp [clEnabled]
@[simp] theorem clDisabled_era (p : PortId) : (clDisabled p s).era = s.era := by simp [clDisabled]

@[simp] theorem dropLaunches_era (q : Fin 18) : (dropLaunches q s).era = s.era :=
  forEach_era s allPorts fun _ _ => rfl

@[simp] theorem cadFlush_era (q : Fin 18) : (cadFlush q s).era = s.era := by simp [cadFlush]
@[simp] theorem cadGoTransparent_era : (cadGoTransparent s).era = s.era := by simp [cadGoTransparent]
@[simp] theorem cadModeMoved_era (old : Nat) : (cadModeMoved old s).era = s.era := by simp [cadModeMoved]
@[simp] theorem timEvt_era (k : Nat) : (timEvt k s).era = s.era := by simp [timEvt]
@[simp] theorem tpStart_era : (tpStart s).era = s.era := by simp [tpStart]

@[simp] theorem tpJump_era : (tpJump s).era = s.era := by
  unfold tpJump
  split <;> simp

@[simp] theorem tpModeMoved_era : (tpModeMoved s).era = s.era := by simp [tpModeMoved]
@[simp] theorem tb0Step_era (n : Int) : (tb0Step n s).era = s.era := by simp [tb0Step]
@[simp] theorem tb0Moved_era (detail : Word) : (tb0Moved detail s).era = s.era := by simp [tb0Moved]
@[simp] theorem timCorrect_era : (timCorrect s).era = s.era := by simp [timCorrect]
@[simp] theorem timIncMoved_era : (timIncMoved s).era = s.era := by simp [timIncMoved]
@[simp] theorem setDphy_era (b on : Bool) : (setDphy b on s).era = s.era := by simp [setDphy]
@[simp] theorem dphyUp_era (b : Bool) : (dphyUp b s).era = s.era := by simp [dphyUp]
@[simp] theorem streamEnable_era : (streamEnable s).era = s.era := by simp [streamEnable]
@[simp] theorem applyEntry_era (e : PendEntry) : (applyEntry e s).era = s.era := by simp [applyEntry]

@[simp] theorem touchDomain_era (a : Nat) : (touchDomain a s).era = s.era := by
  unfold touchDomain
  split <;> simp

@[simp] theorem commitPort_era (o : State) (as : List Nat) (p : PortId) : (commitPort o as p s).era = s.era := by
  simp [commitPort]

@[simp] theorem commitLink_era (o : State) (as : List Nat) (p : PortId) : (commitLink o as p s).era = s.era := by
  simp [commitLink]

@[simp] theorem commitCad_era (o : State) : (commitCad o s).era = s.era := by simp [commitCad]
@[simp] theorem commitActs_era (o : State) (as : List Nat) : (commitActs o as s).era = s.era := by simp [commitActs]

@[simp] theorem flushOwner_era (e : PendEntry) : (flushOwner e s).era = s.era := by
  unfold flushOwner
  (repeat' split) <;> simp

@[simp] theorem applyEntries_era (es : List PendEntry) : (applyEntries es s).era = s.era := by simp [applyEntries]
@[simp] theorem heldG1Apply_era : (heldG1Apply s).era = s.era := by simp [heldG1Apply]

end Sys2Proof.Machine
end

section
/-! PROOFS. The last clause of the ladder's phases (R26) fails. At the end of the fill a write that the management bus holds
goes on (R386, R428), and it may be a write of COLD. That no state of the loader's phase settles to what the cold reset leaves
is an invariant of the fault collector: from that phase it goes to a start only by a reaction, which stamps its reset. -/

namespace Sys2Proof.Machine

variable {s : State}

/-! ### What a reaction does to the phase -/

/-- The start begins again and the stamps stay (R26, R407). -/
@[simp] theorem warmReset_era (c : Nat) (s : State) : (warmReset c s).era = (.ldos, s.flt.resets) := by
  have hstamps : (evqCountLost (s.evq.held.filter fun m => m.lost.isNone).length s).flt.resets = s.flt.resets :=
    congrArg Prod.snd (evqCountLost_era s _)
  rw [warmReset, feedSelect_era, setCause_era, ← hstamps]
  rfl

/-- Where the faults of a command can leave a hub whose loader runs: there, or in a start that a reaction began and stamped. -/
def State.loadingOrReacted (s : State) : Prop := s.glb.phase = .loader ∨ s.glb.phase = .ldos ∧ s.flt.resets ≠ []

theorem loadingOrReacted_of_era {t : State} (he : t.era = s.era) (h : s.loadingOrReacted) : t.loadingOrReacted := by
  obtain ⟨hphase, hresets⟩ := Prod.mk.inj he
  rwa [State.loadingOrReacted, hphase, hresets]

theorem not_isUp_of_loadingOrReacted (h : s.loadingOrReacted) : s.isUp = false := by
  obtain h | ⟨h, -⟩ := h <;> simp [State.isUp, h]

/-- Code 5 is demoted to code 4, or its warm reset is stamped (R407). -/
theorem reactWarm_loadingOrReacted (d : FaultDue) (h : s.loadingOrReacted) : (reactWarm d s).loadingOrReacted := by
  unfold reactWarm
  split
  · refine loadingOrReacted_of_era ?_ h
    rw [safeStateAll_era, pushEvent_era]
    rfl
  · obtain ⟨hphase, hresets⟩ :=
      Prod.mk.inj (warmReset_era 9 (s.modFlt fun f => { f with resets := s.tb3 :: s.recentResets }))
    exact .inr ⟨hphase, hresets ▸ List.cons_ne_nil _ _⟩

theorem faultReact_loadingOrReacted (r : Nat) (d : FaultDue) (h : s.loadingOrReacted) :
    (faultReact r d s).loadingOrReacted := by
  unfold faultReact
  extract_lets told pulsed
  have htold : told.loadingOrReacted := loadingOrReacted_of_era (by simp [told]) h
  have hpulsed : pulsed.loadingOrReacted := by
    unfold pulsed
    split <;> exact htold
  split
  · exact loadingOrReacted_of_era (safeStatePort_era _ d) hpulsed
  · exact loadingOrReacted_of_era (safeStateAll_era _) hpulsed
  · exact reactWarm_loadingOrReacted d hpulsed
  · exact hpulsed

theorem faultOne_loadingOrReacted (d : FaultDue) (h : s.loadingOrReacted) : (faultOne d s).loadingOrReacted :=
  faultReact_loadingOrReacted _ d (loadingOrReacted_of_era (by simp) h)

theorem settleN_loadingOrReacted (n : Nat) (h : s.loadingOrReacted) : (settleN n s).loadingOrReacted := by
  induction n generalizing s with
  | zero => exact h
  | succ n ih =>
    unfold settleN
    split
    · exact h
    · exact ih (faultOne_loadingOrReacted _ h)

/-! ### A hub that is not up takes no power state and does not wake -/

theorem requestTrack_of_not_up (h : s.isUp = false) : requestTrack s = s := by
  unfold requestTrack
  split
  · rfl
  · simp [State.awake, h]

theorem forEach_of_fixed {α : Type} (l : List α) {f : α → State → State} (hf : ∀ x, f x s = s) : forEach l f s = s := by
  unfold forEach
  induction l with
  | nil => rfl
  | cons x l ih => rw [List.foldl_cons, hf, ih]

theorem wakeNoticed_of_not_up (h : s.isUp = false) : wakeNoticed s = s.modPwr fun x => { x with noticed := [] } := by
  have hcleared : (s.modPwr fun x => { x with noticed := [] }).isUp = false := h
  exact forEach_of_fixed _ fun _ => forEach_of_fixed _ fun _ => if_neg (by simp [hcleared])

theorem settled_loadingOrReacted (h : s.loadingOrReacted) : (settled s).loadingOrReacted := by
  have hfirst : (settle s).loadingOrReacted := settleN_loadingOrReacted _ h
  have hheld : (heldG1Apply (settle s)).loadingOrReacted := loadingOrReacted_of_era (heldG1Apply_era _) hfirst
  have hlast : (settle (heldG1Apply (settle s))).loadingOrReacted := settleN_loadingOrReacted _ hheld
  have hdown := not_isUp_of_loadingOrReacted hlast
  rw [settled, requestTrack_of_not_up hdown, wakeNoticed_of_not_up hdown]
  exact hlast

/-! ### The counterexample -/

/-- A hub that fills its store while the management bus holds a write of COLD to GLB_RESET, the bus's lockring open. -/
def coldResetHeld : State :=
  { glb := { phase := .fill }, i2cP := { lockOpen := true },
    i2c := { matched := true, heldWrite := some (R.GLB_RESET, [2]) } }

/-- The fill releases CORE, the held write goes on, and its cold reset begins the start again without a stamp. -/
theorem coldResetHeld_fillDone : (settled (resume (fillDone coldResetHeld))).era = (.ldos, []) := by
  decide

/-- Refutes O18 at its last clause: the end of the fill lets a held write of COLD go on, so the hub is in the LDOs' phase and
not in the loader's. The clause says nothing of what the management bus holds. -/
theorem not_ladderPhasesFollowInOrder : ¬ Obligations.LadderPhasesFollowInOrder := by
  unfold Obligations.LadderPhasesFollowInOrder
  intro h
  obtain ⟨-, -, -, -, -, -, hfill⟩ := h coldResetHeld
  obtain ⟨u, hu, hphase, -⟩ := hfill rfl
  have hsame : settled (resume (fillDone coldResetHeld)) = settled u := Host.Outcome.next.inj hu
  obtain ⟨hldos, hnostamp⟩ := Prod.mk.inj (hsame ▸ coldResetHeld_fillDone)
  obtain hloader | ⟨-, hstamp⟩ := settled_loadingOrReacted (.inl hphase)
  · exact absurd (hldos.symm.trans hloader) (by decide)
  · exact hstamp hnostamp

end Sys2Proof.Machine
end

section
/-! PROOFS. The supplies and the resets that start the ladder (R25, R40, R41, R43). A cause written to GLB_RST_CAUSE reads
back; a cold reset and a loss of power build the state afresh but for what lies outside the hub. -/

namespace Sys2Proof.Machine

variable {s : State}

/-! ### The start cause (R40) -/

theorem bitsOf_or (v w : Word) (lo n : Nat) : bitsOf (v ||| w) lo n = bitsOf v lo n ||| bitsOf w lo n := by
  refine Nat.eq_of_testBit_eq fun i => ?_
  simp only [Nat.testBit_or, testBit_bitsOf, BitVec.getLsbD_or, Bool.and_or_distrib_left]

theorem bitsOf_atBits_self {lo n v : Nat} (h : lo + n ≤ 32) : bitsOf (atBits lo n v) lo n = v % 2 ^ n := by
  refine Nat.eq_of_testBit_eq fun i => ?_
  rw [testBit_bitsOf, Nat.testBit_mod_two_pow, testBit_atBits]
  by_cases hi : i < n
  · simp [hi, show lo + i < 32 by omega]
  · simp [hi]

theorem bitsOf_atBits_other {lo n v lo' n' : Nat} (hd : lo + n ≤ lo' ∨ lo' + n' ≤ lo) :
    bitsOf (atBits lo n v) lo' n' = 0 := by
  refine Nat.eq_of_testBit_eq fun i => ?_
  rw [testBit_bitsOf, testBit_atBits, Nat.zero_testBit]
  by_cases hi : i < n'
  · obtain h | h := hd
    · simp [show ¬lo' + i < lo + n by omega]
    · simp [show ¬lo ≤ lo' + i by omega]
  · simp [hi]

theorem setCause_reg (c port : Nat) (h : s.regs.wf regReset = true) :
    (setCause c port s).reg R.GLB_RST_CAUSE = atBits 8 8 port ||| atBits 0 8 c :=
  SMap.get_set_self h

theorem setCause_rd_cause (c port : Nat) (h : s.regs.wf regReset = true) :
    (setCause c port s).rd F.GLB_RST_CAUSE_CAUSE = c % 2 ^ 8 := by
  rw [State.rd, setCause_reg c port h, bitsOf_or, bitsOf_atBits_other (by decide), bitsOf_atBits_self (by decide),
    Nat.zero_or]

theorem setCause_rd_port (c port : Nat) (h : s.regs.wf regReset = true) :
    (setCause c port s).rd F.GLB_RST_CAUSE_PORT = port % 2 ^ 8 := by
  rw [State.rd, setCause_reg c port h, bitsOf_or, bitsOf_atBits_self (by decide), bitsOf_atBits_other (by decide),
    Nat.or_zero]

theorem State.rd_of_regs {s t : State} (h : s.regs = t.regs) (f : Fld) : s.rd f = t.rd f := by
  rw [State.rd, State.rd, State.reg, State.reg, h]

@[simp] theorem setCause_ports (c port : Nat) : (setCause c port s).ports = s.ports := rfl
@[simp] theorem setCause_sto (c port : Nat) : (setCause c port s).sto = s.sto := rfl
@[simp] theorem setCause_nvm (c port : Nat) : (setCause c port s).nvm = s.nvm := rfl

/-! ### The first supply found good (R41, R43) -/

/-- Which supply of those found good together gives the cause and feeds VAUX5: VIN goes before PU_VBUS, PU_VBUS before VTAN. -/
theorem supplyCause_first {vin puVbus vtan c : Nat} {rp : CcTerm} {v : VauxSource}
    (h : 33000 ≤ vin ∧ c = 1 ∧ v = .buck ∨
      vin < 33000 ∧ 4400 ≤ puVbus ∧ (rp = .rp15 ∨ rp = .rp30) ∧ c = 2 ∧ v = .puVbus ∨
      vin < 33000 ∧ ¬(4400 ≤ puVbus ∧ (rp = .rp15 ∨ rp = .rp30)) ∧ 4400 ≤ vtan ∧ c = 3 ∧ v = .vtan) :
    supplyCause vin puVbus vtan rp = c ∧ causeSource c = v ∧ 0 < c ∧ c < 4 := by
  obtain ⟨hvin, rfl, rfl⟩ | ⟨hvin, hvbus, hrp, rfl, rfl⟩ | ⟨hvin, hpu, hvtan, rfl, rfl⟩ := h
  · exact ⟨if_pos hvin, rfl, by decide, by decide⟩
  · exact ⟨(if_neg (by omega)).trans (if_pos ⟨hvbus, hrp⟩), rfl, by decide, by decide⟩
  · exact ⟨((if_neg (by omega)).trans (if_neg hpu)).trans (if_pos hvtan), rfl, by decide, by decide⟩

/-- What a start from a supply sets beside its cause: the feeds' voltages, the source of VAUX5, the phase, the straps and the
slow clock. -/
def supplied (vin vtan c : Nat) (straps : BitVec 3) (s : State) : State :=
  let s := s.modFeed fun x => { x with vin := vin, vtan := vtan, below36 := decide (vin < 36000) }
  let s := s.modFeed fun x => { x with ftPresent := decide (4400 ≤ vtan) && s.feedEn 3 }
  let s := s.modPwr fun x => { x with vaux := causeSource c }
  let s := s.modGlb fun g => { g with phase := .ldos, straps := straps }
  s.modTim fun t => { t with x32Rc := straps.getLsbD 2 }

@[simp] theorem supplied_regs (vin vtan c : Nat) (straps : BitVec 3) : (supplied vin vtan c straps s).regs = s.regs := by
  simp [supplied]

@[simp] theorem supplied_ports (vin vtan c : Nat) (straps : BitVec 3) : (supplied vin vtan c straps s).ports = s.ports := by
  simp [supplied]

@[simp] theorem supplied_sto (vin vtan c : Nat) (straps : BitVec 3) : (supplied vin vtan c straps s).sto = s.sto := by
  simp [supplied]

@[simp] theorem supplied_nvm (vin vtan c : Nat) (straps : BitVec 3) : (supplied vin vtan c straps s).nvm = s.nvm := by
  simp [supplied]

theorem supplied_starts (vin vtan c : Nat) (straps : BitVec 3) : (supplied vin vtan c straps s).glb.phase = .ldos ∧
    (supplied vin vtan c straps s).glb.straps = straps ∧ (supplied vin vtan c straps s).pwr.vaux = causeSource c := by
  simp [supplied]

/-- A supply found good starts the ladder; the cause of a loss of VAUX5 stays. -/
theorem supplyGood_starts {vin puVbus vtan c : Nat} {rp : CcTerm} (straps : BitVec 3) (hp : s.glb.phase = .unpowered)
    (hc : supplyCause vin puVbus vtan rp = c) (h0 : c ≠ 0) : supplyGood vin puVbus vtan rp straps s =
      setCause (if s.rd F.GLB_RST_CAUSE_CAUSE = 5 then 5 else c) 0xFF (supplied vin vtan c straps s) := by
  have hkept := State.rd_of_regs (supplied_regs (s := s) vin vtan c straps) F.GLB_RST_CAUSE_CAUSE
  rw [supplyGood, hc, if_neg (by simp [hp, h0]), ← hkept]
  rfl

/-! ### Resets and the loss of power -/

theorem State.port_replicate {s : State} {x : Port} (h : s.ports = Vector.replicate 17 x) (p : PortId) : s.port p = x := by
  rw [State.port, h]
  exact Vector.getElem_replicate _

theorem coldReset_port (c : Nat) (p : PortId) : (coldReset c s).port p = {} := State.port_replicate rfl p

theorem coldReset_rd_cause (c : Nat) : (coldReset c s).rd F.GLB_RST_CAUSE_CAUSE = c % 2 ^ 8 := setCause_rd_cause c 0xFF rfl

theorem coldReset_rd_port (c : Nat) : (coldReset c s).rd F.GLB_RST_CAUSE_PORT = 0xFF := setCause_rd_port c 0xFF rfl

theorem powerLost_port (s : State) (p : PortId) : (powerLost s).port p = {} := State.port_replicate rfl p

theorem vauxBrownout_supplied (ha : s.aonUp = true) (hs : s.supplyNow ≠ .none) : vauxBrownout s = coldReset 5 s := by
  simp [vauxBrownout, ha, hs]

/-- Out of the tandem state the loss of the last supply leaves the brown-out's cause (log 48). -/
theorem vauxBrownout_dark (ha : s.aonUp = true) (hs : s.supplyNow = .none) (ht : s.feed.tandem = false) :
    vauxBrownout s = setCause 5 0xFF (powerLost s) := by
  simp [vauxBrownout, ha, hs, ht]

/-- Settles O16: each clause names the operation the command comes to, whose cause reads back and whose other parts are as
built. -/
theorem suppliesAndResetsStartTheLadder : Obligations.SuppliesAndResetsStartTheLadder := by
  unfold Obligations.SuppliesAndResetsStartTheLadder
  intro s hs
  refine ⟨fun vin puVbus vtan rp straps c v hp hfirst => ?_, fun ha => ?_, fun ha hsup => ?_, fun ha hsup ht => ?_⟩
  · obtain ⟨hc, hv, hpos, hlt⟩ := supplyCause_first hfirst
    have hwf : (supplied vin vtan c straps s).regs.wf regReset = true := by simpa using canonical_regs hs
    obtain ⟨hphase, hstraps, hvaux⟩ := supplied_starts (s := s) vin vtan c straps
    refine ⟨_, congrArg fin (supplyGood_starts straps hp hc (by omega)), hphase, hstraps, hvaux.trans hv, ?_, by simp, by simp,
      by simp⟩
    rw [setCause_rd_cause _ _ hwf]
    split <;> omega
  · exact ⟨_, congrArg fin (if_pos ha), rfl, coldReset_rd_cause 4, coldReset_rd_port 4, rfl, rfl, coldReset_port 4, rfl, rfl⟩
  · exact ⟨_, congrArg fin (vauxBrownout_supplied ha hsup), rfl, coldReset_rd_cause 5, rfl, rfl, coldReset_port 5⟩
  · exact ⟨_, congrArg fin (vauxBrownout_dark ha hsup ht), rfl, setCause_rd_cause 5 0xFF rfl, powerLost_port s, rfl⟩

end Sys2Proof.Machine
end

section
/-! PROOFS. The clause on LADDER_CONVERTERS_OFF (R44, R46) fails: a hub that VTAN supplies, with FT present and no feed,
comes up in the tandem state, which the clause leaves out. -/

namespace Sys2Proof.Machine

/-- A hub started from VTAN, every off command of its ladder confirmed. -/
def convertersOffFromVtan : State :=
  { glb := { phase := .converters }, pwr := { vaux := .vtan }, feed := { vtan := 5000, ftPresent := true } }

/-- The model sets the tandem state before the service level. -/
theorem convertersOff_comesUp {s : State} (hp : s.glb.phase = .converters) (ho : s.offsPending = false) :
    convertersOff s = portsStart (setLevel (if s.img.applied then 1 else 0)
      (tandemStart { s with glb := { s.glb with phase := .up } })) :=
  if_neg (by simp [hp, ho])

/-- The tandem state outlives the settling of the faults: with it and without it the hub comes up differently. -/
theorem convertersOffFromVtan_tandem :
    settled (portsStart (setLevel (if convertersOffFromVtan.img.applied then 1 else 0)
      (tandemStart { convertersOffFromVtan with glb := { convertersOffFromVtan.glb with phase := .up } }))) ≠
    settled (portsStart (setLevel (if convertersOffFromVtan.img.applied then 1 else 0)
      { convertersOffFromVtan with glb := { convertersOffFromVtan.glb with phase := .up } })) :=
  fun h => absurd (congrArg (fun u => u.feed.tandem) h) (by decide +kernel)

/-- Refutes O19 at its clause on LADDER_CONVERTERS_OFF: the hub started from VTAN answers a state in the tandem state, and the
clause, whose state only changes the phase before the level is set, one that is not. -/
theorem not_loaderAndServiceLevelFollowTheImage : ¬ Obligations.LoaderAndServiceLevelFollowTheImage := by
  unfold Obligations.LoaderAndServiceLevelFollowTheImage
  intro h
  obtain ⟨-, -, -, -, -, -, -, hoff, -⟩ := h convertersOffFromVtan
  have hclaimed := hoff rfl rfl
  have hmodel : exec .ladderConvertersOff convertersOffFromVtan = _ := congrArg fin (convertersOff_comesUp rfl rfl)
  exact convertersOffFromVtan_tandem (Host.Outcome.next.inj (hmodel.symm.trans hclaimed))

end Sys2Proof.Machine
end

section
/-! PROOFS. The events of the USB ports (R70, R228 to R244, R314). An event raised leaves the ports alone, a hub port of 1 to
16 is a port of the state, and a change of every hub port reaches each of them once; with these each command comes to the
one branch of its operation that its state selects. -/

namespace Sys2Proof.Machine

variable {s t u : State}

/-! ### Raising an event: what it can touch -/

/-- `t` is `s` but for what an event and the pop that waited for it can write: the register file, the store, the event queue,
the paths, the management bus, the embedded function and the hub's last answer. -/
def EventOnly (s t : State) : Prop :=
  ∃ (r : SMap Word) (m : Sto) (q : Evq) (lp ip up : PathState) (b : I2cEngine) (e : Efn) (a : UsbAnswer), t =
    { s with regs := r, sto := m, evq := q, loader := lp, i2cP := ip, usbP := up, i2c := b, efn := e,
             hub := { s.hub with answer := a } }

theorem EventOnly.refl : EventOnly s s := ⟨_, _, _, _, _, _, _, _, _, rfl⟩

theorem EventOnly.trans (h : EventOnly s t) (k : EventOnly t u) : EventOnly s u := by
  obtain ⟨_, _, _, _, _, _, _, _, _, rfl⟩ := h
  obtain ⟨r, m, q, lp, ip, up, b, e, a, rfl⟩ := k
  exact ⟨r, m, q, lp, ip, up, b, e, a, rfl⟩

theorem QueueOnly.eventOnly (h : QueueOnly s t) : EventOnly s t := by
  obtain ⟨r, m, q, rfl⟩ := h
  exact ⟨r, m, q, _, _, _, _, _, _, rfl⟩

theorem EventOnly.ports (h : EventOnly s t) : t.ports = s.ports := by
  obtain ⟨_, _, _, _, _, _, _, _, _, rfl⟩ := h
  rfl

theorem EventOnly.suspended (h : EventOnly s t) : t.hub.suspended = s.hub.suspended := by
  obtain ⟨_, _, _, _, _, _, _, _, _, rfl⟩ := h
  rfl

theorem modPath_eventOnly (p : Path) (f : PathState → PathState) : EventOnly s (s.modPath p f) := by
  cases p <;> exact ⟨_, _, _, _, _, _, _, _, _, rfl⟩

theorem i2cEndPop_eventOnly (ws : List Word) : EventOnly s (i2cEndPop ws s) := by
  unfold i2cEndPop
  split <;> exact ⟨_, _, _, _, _, _, _, _, _, rfl⟩

theorem efnEndPop_eventOnly (ws : List Word) : EventOnly s (efnEndPop ws s) := by
  unfold efnEndPop
  split <;> exact ⟨_, _, _, _, _, _, _, _, _, rfl⟩

theorem endPop_eventOnly (p : Path) (ws : List Word) : EventOnly s (endPop p ws s) := by
  have hlatched : EventOnly s (latchPop p ws (s.modPath p fun x => { x with popWait := false })) :=
    (modPath_eventOnly p _).trans (modPath_eventOnly p _)
  cases p with
  | loader => exact hlatched
  | i2c => exact hlatched.trans (i2cEndPop_eventOnly ws)
  | usb => exact hlatched.trans (efnEndPop_eventOnly ws)

theorem serveWaiting_eventOnly (p : Path) : EventOnly s (serveWaiting p s) := by
  unfold serveWaiting
  split
  · exact (modEvq_queueOnly _).eventOnly.trans (endPop_eventOnly p _)
  · exact .refl

theorem pushEntry_eventOnly (e : EvEntry) : EventOnly s (pushEntry e s) := by
  unfold pushEntry
  split
  · exact (evqEnqueue_queueOnly e).eventOnly.trans ((serveWaiting_eventOnly .i2c).trans (serveWaiting_eventOnly .usb))
  · exact (evqBuffer_queueOnly e).eventOnly

theorem raiseEvt0_eventOnly (a k : Nat) : EventOnly s (raiseEvt0 a k s) :=
  (setReg_queueOnly _ _).eventOnly.trans (pushEntry_eventOnly _)

/-! ### A port after an update of a port -/

theorem State.port_setPort (p q : PortId) (x : Port) : (s.setPort p x).port q = if p = q then x else s.port q := by
  simp only [State.port, State.setPort, Fin.getElem_fin, Vector.getElem_set, Fin.ext_iff]

theorem State.u_modU (p q : PortId) (f : UPort → UPort) :
    ((s.modU p f).port q).u = if p = q then f (s.port q).u else (s.port q).u := by
  rw [State.modU, State.port_setPort]
  split
  next h => rw [h]
  next => rfl

theorem State.u_modTt (p q : PortId) (f : Tt → Tt) : ((s.modTt p f).port q).u = (s.port q).u := by
  rw [State.modTt, State.port_setPort]
  split
  next h => rw [h]
  next => rfl

/-! ### The hub's ports 1 to 17 (R221) -/

theorem dport_ne_PU (d : DPort) : dport d ≠ PU := Fin.ne_of_lt d.isLt

theorem hubPort_range {p : PortId} (h : p ≠ PU) : 1 ≤ p.val + 1 ∧ p.val + 1 ≤ 16 := by
  have hlast : p.val ≠ 16 := fun e => h (Fin.ext e)
  omega

theorem State.uport_of_port {p : PortId} (h : p ≠ PU) : s.uport (p.val + 1) = (s.port p).u := dif_pos (hubPort_range h)

theorem modUport_of_port {p : PortId} (h : p ≠ PU) (f : UPort → UPort) : modUport (p.val + 1) f s = s.modU p f :=
  dif_pos (hubPort_range h)

theorem portOf_of_port {p : PortId} (h : p ≠ PU) : portOf (p.val + 1) = some p := dif_pos (hubPort_range h)

theorem u_modUport (n : Nat) (f : UPort → UPort) {p : PortId} (h : p ≠ PU) :
    ((modUport n f s).port p).u = if n = p.val + 1 then f (s.port p).u else (s.port p).u := by
  by_cases hn : 1 ≤ n ∧ n ≤ 16
  · have hidx : (⟨n - 1, by omega⟩ : PortId) = p ↔ n = p.val + 1 := by
      simp only [Fin.ext_iff]
      omega
    rw [modUport, dif_pos hn, State.u_modU]
    simp only [hidx]
  · rw [modUport, dif_neg hn, if_neg]
    · rfl
    · have := hubPort_range h
      omega

theorem modUport_suspended (n : Nat) (f : UPort → UPort) : (modUport n f s).hub.suspended = s.hub.suspended := by
  unfold modUport
  split <;> rfl

theorem modUport_resuming (n : Nat) (f : UPort → UPort) : (modUport n f s).hub.resuming = s.hub.resuming := by
  unfold modUport
  split <;> rfl

/-! ### What a change of every hub port comes to -/

/-- What each turn keeps, all of them keep. -/
theorem forEach_keeps {α β : Type} (g : State → β) {f : α → State → State} (h : ∀ x t, g (f x t) = g t) (l : List α)
    (s : State) : g (forEach l f s) = g s := by
  unfold forEach
  induction l generalizing s with
  | nil => rfl
  | cons x l ih => exact (ih (f x s)).trans (h x s)

theorem u_forEach_modUport (f : UPort → UPort) {p : PortId} (h : p ≠ PU) {l : List Nat} (hl : l.Nodup) (s : State) :
    ((forEach l (fun n => modUport n f) s).port p).u = if p.val + 1 ∈ l then f (s.port p).u else (s.port p).u := by
  unfold forEach
  induction l generalizing s with
  | nil => rfl
  | cons n l ih =>
    obtain ⟨hnew, hrest⟩ := List.nodup_cons.1 hl
    rw [List.foldl_cons, ih hrest, u_modUport n f h]
    by_cases hn : n = p.val + 1
    · simp [← hn, hnew]
    · simp [hn, Ne.symm hn]

theorem hubPorts_nodup : hubPorts.Nodup := by decide

theorem mem_hubPorts {p : PortId} : p.val + 1 ∈ hubPorts := by simp [hubPorts, p.isLt]

/-- Every port of P0 to P15 is changed, once. -/
theorem u_hubPorts (f : UPort → UPort) {p : PortId} (h : p ≠ PU) (s : State) :
    ((forEach hubPorts (fun n => modUport n f) s).port p).u = f (s.port p).u := by
  rw [u_forEach_modUport f h hubPorts_nodup, if_pos mem_hubPorts]

theorem suspended_hubPorts (f : UPort → UPort) (s : State) :
    (forEach hubPorts (fun n => modUport n f) s).hub.suspended = s.hub.suspended :=
  forEach_keeps (fun t => t.hub.suspended) (fun n _ => modUport_suspended n f) _ s

theorem resuming_hubPorts (f : UPort → UPort) (s : State) :
    (forEach hubPorts (fun n => modUport n f) s).hub.resuming = s.hub.resuming :=
  forEach_keeps (fun t => t.hub.resuming) (fun n _ => modUport_resuming n f) _ s

/-! ### Events of the downstream ports (R228, R231, R235, R241) -/

theorem portConnect_detected {p : PortId} (hc : s.coreUp = true) (hg : s.gateOpen p = true)
    (hd : (s.port p).u.ust = .disconnected) (hn : (s.port p).u.conn = false) : portConnect p s = hpEvt p 0
      (s.modU p fun u => { u with conn := true, chg := { u.chg with connection := true } }) :=
  if_pos (by simp [hc, hg, hd, hn, -Fin.getElem_fin])

theorem portDisconnect_enabled {p : PortId} (hc : s.coreUp = true) (he : (s.port p).u.ust = .enabled)
    (hn : (s.port p).u.conn = true) : portDisconnect p s = ttDiscard p false (uDisconnect p s) := by
  simp [portDisconnect, hc, he, hn, -Fin.getElem_fin]

theorem portBabble_enabled {p : PortId} (hp : p ≠ PU) (hc : s.coreUp = true) (he : (s.port p).u.ust = .enabled) :
    portBabble p s = hpEvt p 3 (((ttDiscard p false (s.modU p fun u => { u.awake with ust := .disabled })).modU p fun u =>
      { u with chg := { u.chg with enable := true } }).bump (F.HP_ERR_DISABLES p)) := by
  rw [portBabble, if_pos (by simp [hc, he, -Fin.getElem_fin]), uDisable, portOf_of_port hp, modUport_of_port hp]

/-- A port that babbled is disabled, with its change bit. -/
theorem babbled_u (p : PortId) (s : State) :
    (((ttDiscard p false (s.modU p fun u => { u.awake with ust := .disabled })).modU p fun u =>
      { u with chg := { u.chg with enable := true } }).port p).u =
      { (s.port p).u.awake with ust := .disabled, chg := { (s.port p).u.awake.chg with enable := true } } := by
  rw [State.u_modU, if_pos rfl, ttDiscard, State.u_modTt, State.u_modU, if_pos rfl]

theorem watches_of_coreUp (h : s.coreUp = true) : s.watches = true := by simp [State.watches, h]

theorem remoteK_resuming {p : PortId} (hc : s.coreUp = true) (hr : (s.port p).u.ust = .resuming) :
    remoteK p s = hpEvt p 6 (s.wr (F.HP_STATUS_RWAKE_SEEN p) 1) := by
  simp [remoteK, watches_of_coreUp hc, hr, -Fin.getElem_fin]

theorem portL1DeviceExit_l1 {p : PortId} (hp : p ≠ PU) (hc : s.coreUp = true) (h : (s.port p).u.ust = .l1) :
    portL1DeviceExit p s = s.modU p fun u => { u with ust := .resuming, resumeL1 := true } := by
  rw [portL1DeviceExit, if_pos hc, l1Exit, State.uport_of_port hp, if_pos (by simp [h, -Fin.getElem_fin]), modUport_of_port hp]

/-! ### The upstream bus (R70, R233 to R239, R242, R244) -/

/-- K goes upstream where the suspend or the L1 of the bus allows a wake that is not already under way. -/
theorem wakeUpstream_allowed (h : (s.hub.suspended && s.hub.rwakeEn || s.hub.l1 && s.hub.l1Rwe) = true)
    (hr : s.hub.resuming = false) : wakeUpstream s = hubEvt 8 (s.modHub fun h => { h with resuming := true }) :=
  if_pos (by simp [h, hr])

theorem hubConnect_detached (hm : s.mayConnect = true) (hd : s.hub.st = .detached) : hubConnect s =
    hubEvt 0 (s.modHub fun h => { h with st := .pullUp, recovery := s.glb.level == 0 }) :=
  if_pos (by simp [hm, hd])

theorem hubConnectCmd_disconnect (v : Word) (s : State) : hubConnectCmd (setBit v 1) s = hubDetach s :=
  if_pos (bitOf_setBit_self v (by decide))

theorem busReset_attached (hs : Bool) (hc : s.coreUp = true) (hd : s.hub.st ≠ .detached) : busReset hs s =
    hubBusReset (if hs && !s.rdB F.HUB_CFG_FS_ONLY then .high else .full) (leaveIdle s) :=
  if_pos (by simp [hc, hd])

/-- Losing the lock raises an event at most; ports and suspend stay. -/
theorem tb2Lose_keeps (s : State) : (tb2Lose s).ports = s.ports ∧ (tb2Lose s).hub.suspended = s.hub.suspended := by
  unfold tb2Lose
  split
  · exact ⟨(raiseEvt0_eventOnly _ _).ports, (raiseEvt0_eventOnly _ _).suspended⟩
  · exact ⟨rfl, rfl⟩

/-- Global suspend, up to the translators' stop: the bus is suspended and so is every enabled port. -/
theorem globalSuspend_attached (hc : s.coreUp = true) (hd : s.hub.st ≠ .detached) (hs : s.hub.suspended = false)
    (hl : s.hub.l1 = false) : ∃ u : State, globalSuspend s = hubEvt 4 (forEach downPorts ttIdle u) ∧
      u.hub.suspended = true ∧ ∀ p : PortId, (s.port p).u.ust = .enabled → p ≠ PU → (u.port p).u.ust = .suspended := by
  obtain ⟨hports, hsusp⟩ := tb2Lose_keeps (s.modHub fun h => { h with suspended := true })
  refine ⟨_, if_neg (by simp [hc, hd, hs, hl]), (suspended_hubPorts _ _).trans hsusp, fun p he hp => ?_⟩
  rw [u_hubPorts _ hp]
  have hu : ((tb2Lose (s.modHub fun h => { h with suspended := true })).port p).u.ust = .enabled := by
    rw [State.port, hports]
    exact he
  simp only [hu]

theorem hostResume_suspended (hc : s.coreUp = true) (hs : s.hub.suspended = true) : ∃ u : State,
    hostResume s = hubEvt 5 (ttRunAll u) ∧ u.hub.suspended = false ∧ u.hub.resuming = false :=
  ⟨_, if_neg (by simp [hc, hs]), suspended_hubPorts _ _, resuming_hubPorts _ _⟩

theorem l1Resume_l1 (hc : s.coreUp = true) (hl : s.hub.l1 = true) : l1Resume s =
    hubEvt 7 (s.modHub fun h => { h with l1 := false, resuming := false }) :=
  if_pos (by simp [hc, hl])

/-! ### SOF and TB2 (R314) -/

theorem leaveIdle_hub : (leaveIdle s).hub = s.hub := by
  unfold leaveIdle
  split <;> rfl

theorem leaveIdle_tim : (leaveIdle s).tim = s.tim := by
  unfold leaveIdle
  split <;> rfl

theorem uframe_succ_ne_zero {k : BitVec 3} (h : k ≠ 7) : k + 1#3 ≠ 0#3 := by
  revert k
  decide

/-- A microframe inside its frame: TB2 counts it, and captures nothing. -/
theorem sofRx_locked (hu : s.usbUp = true) (hl : s.hub.l1 = false) (hsp : s.hub.speed = .high)
    (hv : s.tim.tb2.valid = true) (h7 : s.tim.tb2.uframe ≠ 7) : sofRx s.tim.tb2.frame s =
      (leaveIdle s).modTim fun x => { x with
        tb2 := { valid := true, frame := s.tim.tb2.frame, uframe := s.tim.tb2.uframe + 1, pos := 0,
                 agree := s.tim.tb2.agree + 1, missed := 0 } } := by
  have hnext : s.tim.tb2.next true = (s.tim.tb2.frame, s.tim.tb2.uframe + 1) := by simp only [Tb2.next, if_neg h7, if_true]
  simp [sofRx, hu, hl, leaveIdle_hub, leaveIdle_tim, hsp, hv, hnext, uframe_succ_ne_zero h7]

theorem sofMissed_counted (hu : s.usbUp = true) (hv : s.tim.tb2.valid = true) (hm : s.tim.tb2.missed < 2) :
    sofMissed s = s.modTim fun x => { x with
      tb2 := { s.tim.tb2 with frame := (s.tim.tb2.next (s.hub.speed == .high)).1,
                              uframe := (s.tim.tb2.next (s.hub.speed == .high)).2, pos := 0, agree := 0,
                              missed := s.tim.tb2.missed + 1 } } := by
  rw [sofMissed, if_neg (by simp [hu, hv])]
  exact if_neg (by omega)

/-- Settles O39: each clause is the lemma that says what its event does in the state it finds. -/
theorem usbEventsMoveTheBusStates : Obligations.UsbEventsMoveTheBusStates := by
  unfold Obligations.UsbEventsMoveTheBusStates
  intro s hc
  refine ⟨?_, ?_, ?_, ?_, ?_, ?_, ?_, ?_, ?_, ?_, ?_, ?_, ?_, ?_, ?_, ?_, ?_⟩
  · intro d sp hsp hg hd hn
    cases sp with
    | none => exact absurd rfl hsp
    | _ => exact congrArg fin (portConnect_detected hc hg hd hn)
  · exact fun d he hn => congrArg fin (portDisconnect_enabled hc he hn)
  · intro d he
    have hu := babbled_u (dport d) s
    exact ⟨_, congrArg fin (portBabble_enabled (dport_ne_PU d) hc he), congrArg UPort.ust hu,
      congrArg (fun x => x.chg.enable) hu⟩
  · exact fun d hr => congrArg fin (remoteK_resuming hc hr)
  · intro hs he hr
    exact congrArg fin ((if_pos (watches_of_coreUp hc)).trans (wakeUpstream_allowed (by simp [hs, he]) hr))
  · exact fun d h => congrArg fin (portL1DeviceExit_l1 (dport_ne_PU d) hc h)
  · exact fun hm hd => ⟨congrArg fin (hubConnect_detached hm hd), congrArg fin (hubConnect_detached hm hd)⟩
  · exact fun path v h => congrArg fin (write_HUB_CONNECT h)
  · exact fun path v h => congrArg fin ((write_HUB_CONNECT h).trans (hubConnectCmd_disconnect v _))
  · exact fun hs hd => congrArg fin (busReset_attached hs hc hd)
  · exact congrArg fin (if_pos hc)
  · intro hd hs hl
    obtain ⟨u, hu, hsusp, hports⟩ := globalSuspend_attached hc hd hs hl
    exact ⟨u, congrArg fin hu, hsusp, hports⟩
  · intro hs
    obtain ⟨u, hu, hsusp, hres⟩ := hostResume_suspended hc hs
    exact ⟨u, congrArg fin hu, hsusp, hres⟩
  · exact fun hl => congrArg fin (l1Resume_l1 hc hl)
  · intro hl he hr
    exact congrArg fin ((if_pos (by simp [watches_of_coreUp hc, hl])).trans (wakeUpstream_allowed (by simp [hl, he]) hr))
  · rintro f hu hl hsp hv rfl h7
    exact congrArg fin (sofRx_locked hu hl hsp hv h7)
  · exact fun hu hv hm => congrArg fin (sofMissed_counted hu hv hm)

end Sys2Proof.Machine
end

section
/-! PROOFS. Windows, qualification and the loss of the ACTIVE feed (R75, R76, R78, R79, R82, R92): what a feed's line reads
after an update of a line, and what each operation comes to in the states the commands find. -/

namespace Sys2Proof.Machine

variable {s t : State} {f g : FeedId}

/-! ### A feed's line after an update of a line -/

theorem State.line_modLine (s : State) (f g : FeedId) (k : FeedLine → FeedLine) :
    (s.modLine f k).line g = if g = f then k (s.line g) else s.line g := by
  cases f <;> cases g <;> rfl

theorem State.line_modLine_self (s : State) (f : FeedId) (k : FeedLine → FeedLine) :
    (s.modLine f k).line f = k (s.line f) := by
  rw [State.line_modLine, if_pos rfl]

theorem State.line_modLine_other (s : State) (k : FeedLine → FeedLine) (h : g ≠ f) : (s.modLine f k).line g = s.line g := by
  rw [State.line_modLine, if_neg h]

/-- The ACTIVE feed is read off the feeds alone. -/
theorem State.activeFeed_of_feed (h : t.feed = s.feed) : t.activeFeed = s.activeFeed := by
  simp only [State.activeFeed, State.line, h]

/-! ### Windows (R75, R76) -/

theorem feedEnter_qualifies (ha : s.aonUp = true) (hf : (s.line f).st = .absent) (hq : s.mayQualify f = true) :
    feedEnter f s = (s.modLine f fun l => { l with inWindow := true }).modLine f fun l => { l with st := .qualifying } := by
  have hst : ((s.modLine f fun l => { l with inWindow := true }).line f).st = .absent := by
    rw [State.line_modLine_self]
    exact hf
  have hmay : (s.modLine f fun l => { l with inWindow := true }).mayQualify f = true := hq
  simp [feedEnter, ha, hst, hmay]

theorem feedWindowEnter_does (ha : s.aonUp = true) (hf : (s.line f).st = .absent) (hq : s.mayQualify f = true) :
    Does (.feedWindowEnter f) s fun u => (u.line f).st = .qualifying ∧ (u.line f).inWindow = true ∧ u.ports = s.ports ∧
      u.regs = s.regs ∧ u.sto = s.sto ∧ ∀ g, g ≠ f → u.line g = s.line g := by
  refine ⟨_, congrArg fin (feedEnter_qualifies ha hf hq), ?_, ?_, rfl, rfl, rfl, fun g hg => ?_⟩
  · rw [State.line_modLine_self]
  · rw [State.line_modLine_self, State.line_modLine_self]
  · rw [State.line_modLine_other _ _ hg, State.line_modLine_other _ _ hg]

/-- Out of its window a feed is neither QUALIFYING nor READY. -/
theorem feedLeave_lapses (hf : (s.line f).st = .qualifying ∨ (s.line f).st = .ready) :
    feedLeave f s = (s.modLine f fun l => { l with inWindow := false }).modLine f fun l => { l with st := .absent } := by
  obtain hf | hf := hf <;> simp [feedLeave, State.line_modLine_self, hf]

/-- An ACTIVE feed is not held to its window. -/
theorem feedLeave_active (hf : (s.line f).st = .active) :
    feedLeave f s = s.modLine f fun l => { l with inWindow := false } := by
  simp [feedLeave, State.line_modLine_self, hf]

theorem feedWindowExit_does_lapse (hf : (s.line f).st = .qualifying ∨ (s.line f).st = .ready) :
    Does (.feedWindowExit f) s fun u => (u.line f).st = .absent ∧ (u.line f).inWindow = false ∧ u.ports = s.ports ∧
      u.regs = s.regs ∧ u.sto = s.sto ∧ ∀ g, g ≠ f → u.line g = s.line g := by
  refine ⟨_, congrArg fin (feedLeave_lapses hf), ?_, ?_, rfl, rfl, rfl, fun g hg => ?_⟩
  · rw [State.line_modLine_self]
  · rw [State.line_modLine_self, State.line_modLine_self]
  · rw [State.line_modLine_other _ _ hg, State.line_modLine_other _ _ hg]

theorem feedWindowExit_does_active (hf : (s.line f).st = .active) : Does (.feedWindowExit f) s fun u =>
    (u.line f).st = .active ∧ (u.line f).inWindow = false ∧ u.ports = s.ports := by
  refine ⟨_, congrArg fin (feedLeave_active hf), ?_, ?_, rfl⟩
  · rw [State.line_modLine_self]
    exact hf
  · rw [State.line_modLine_self]

/-! ### The revert (R78) -/

theorem feedRevert_due (hg : s.activeFeed = some g) (hf : (s.line f).st = .ready) (hr : s.feedRank f < s.feedRank g)
    (hs : s.feed.switching = false) (hd : s.rd F.FEED_CTRL_REVERT ≠ 0) : feedRevert f s = feedBreak g .ready s := by
  simp [feedRevert, hg, hf, hr, hs, hd]

/-! ### Loss of the ACTIVE feed (R79, R92) -/

/-- Only the source of VAUX5 can change. -/
theorem vauxFall_feed (s : State) : (vauxFall s).feed = s.feed := by
  unfold vauxFall
  split <;> rfl

/-- VIN has been measured below 31 V, and VAUX5 has left the buck. -/
def vinFallen (vin : Nat) (s : State) : State := vauxFall (s.modFeed fun x => { x with vin := vin, below36 := true })

theorem vinFallen_feed (vin : Nat) (s : State) : (vinFallen vin s).feed = { s.feed with vin := vin, below36 := true } :=
  vauxFall_feed _

theorem vinFallen_activeFeed (vin : Nat) (s : State) : (vinFallen vin s).activeFeed = s.activeFeed :=
  State.activeFeed_of_feed (s := s.modFeed fun x => { x with vin := vin, below36 := true }) (vauxFall_feed _)

theorem vinLow_active {vin : Nat} (hv : vin < 31000) (ha : s.aonUp = true) (hf : s.activeFeed = some f) :
    vinLow vin s = feedBreak f .absent (vinFallen vin s) := by
  have hact := (vinFallen_activeFeed vin s).trans hf
  rw [vinFallen] at hact ⊢
  simp [vinLow, hv, ha, hact]

/-- With no feed driving the bus and no switchover under way, total feed loss is declared. -/
theorem vinLow_dark {vin : Nat} (hv : vin < 31000) (ha : s.aonUp = true) (hf : s.activeFeed = none)
    (hd : s.feed.failed = none) (hs : s.feed.switching = false) (hl : s.feed.totalLoss = false) :
    vinLow vin s = totalLossNow (vinFallen vin s) := by
  have hact := (vinFallen_activeFeed vin s).trans hf
  rw [vinFallen] at hact ⊢
  simp [vinLow, hv, ha, hact, vauxFall_feed, hd, hs, hl]

theorem feedReverse_active (hf : s.activeFeed = some f) : feedReverse s = feedBreak f .absent s := by
  simp [feedReverse, hf]

/-- The hub once VIN has stayed below 36 V for the hold time: the Rd rule and Level 1 follow (R46, R140). -/
def brownedOut (s : State) : State := levelDown (rdTrack (s.modFeed fun x => { x with below36Held := true }))

/-- Another feed is READY: the ACTIVE one is lost. -/
theorem vinHeld_loses (hb : s.feed.below36 = true) (hf : (brownedOut s).activeFeed = some f)
    (hg : (brownedOut s).feedPick = some g) : vinHeld s = feedBreak f .absent (brownedOut s) := by
  rw [brownedOut] at hf hg ⊢
  simp [vinHeld, hb, hf, hg]

/-! ### VIN at 36 V (R46, R140) and the end of COOLDOWN (R84) -/

theorem vinCross_rises {vin : Nat} (hv : 36000 ≤ vin) (ha : s.aonUp = true) : vinCross true vin s =
    rdTrack ((s.modFeed fun x => { x with vin := vin, below36 := false, below36Held := false }).modPwr fun x =>
      { x with vaux := .buck }) := by
  simp [vinCross, hv, ha]

theorem vinCross_falls {vin : Nat} (hv : vin < 36000) :
    vinCross false vin s = s.modFeed fun x => { x with vin := vin, below36 := true } := by
  simp [vinCross, hv]

theorem feedCooled_cold (hf : (s.line f).st = .tripped ∨ (s.line f).st = .cooldown) : feedCooled f s =
    s.modLine f fun l => { l with st := if s.feedEn (feedCode f) then .absent else .disabled } := by
  obtain hf | hf := hf <;> simp [feedCooled, hf]

/-- Settles O22: each clause is the equation of the operation the command runs. A feed that has left its window enters it anew
before it qualifies, and COOLDOWN_EXPIRE serves TRIPPED too (log 40). -/
theorem feedWindowsAndLossMoveTheFeeds : Obligations.FeedWindowsAndLossMoveTheFeeds := by
  unfold Obligations.FeedWindowsAndLossMoveTheFeeds
  intro s
  refine ⟨?_, ?_, ?_, ?_, ?_, ?_, ?_, ?_, ?_, ?_, ?_, ?_, ?_⟩
  · exact fun f ha hf hq => feedWindowEnter_does ha hf hq
  · exact fun f hf => feedWindowExit_does_lapse hf
  · exact fun f hf => feedWindowExit_does_active hf
  · exact fun f hf hw => congrArg fin (if_pos (by simp [hf, hw]))
  · exact fun f g hg hf hr hs hd => congrArg fin (feedRevert_due hg hf hr hs hd)
  · exact fun vin f hv ha hf => congrArg fin (vinLow_active hv ha hf)
  · exact fun vin hv ha hf hd hs hl => congrArg fin (vinLow_dark hv ha hf hd hs hl)
  · exact fun f hf => congrArg fin (feedReverse_active hf)
  · exact fun f g hb hf hg => congrArg fin (vinHeld_loses hb hf hg)
  · exact fun vin hv ha => congrArg fin (vinCross_rises hv ha)
  · exact fun vin hv => congrArg fin (vinCross_falls hv)
  · exact fun f hf => congrArg fin (feedCooled_cold hf)
  · exact fun path v hr ho => congrArg fin (write_FEED_UNLOCK hr ho)

end Sys2Proof.Machine
end

section
/-! PROOFS. Switchovers, turn-ons and damaged or tripped feed pairs (R80 to R85): what each operation comes to in the states the
commands find. -/

namespace Sys2Proof.Machine

variable {s : State} {f g : FeedId}

/-! ### The old pair (R80 to R82) -/

/-- The pair is confirmed off: the old feed settles before a new one is chosen. -/
theorem oldOff_confirmed (hs : s.feed.switching = true) (ho : s.feed.old = some f) : oldOff s =
    rdTrack (feedChoose ((s.line f).st != .active)
      (feedSettleOld f s.feed.oldNext (s.modFeed fun x => { x with sel := none, old := none }))) := by
  simp [oldOff, hs, ho]

/-- The old feed is still present: the hub goes on running from it through the failed pair. -/
theorem oldStuck_present (hs : s.feed.switching = true) (ho : s.feed.old = some f) : oldStuck true s =
    feedLockNow f .shortedPass
      (s.modFeed fun x => { x with switching := false, old := none, new_ := none, failed := some f }) := by
  simp [oldStuck, hs, ho]

theorem oldStuck_gone (hs : s.feed.switching = true) (ho : s.feed.old = some f) : oldStuck false s =
    totalLossNow (feedLockNow f .shortedPass
      (s.modFeed fun x => { x with switching := false, old := none, new_ := none, failed := none })) := by
  simp [oldStuck, hs, ho]

/-! ### The new pair (R80, R83) -/

theorem pairConducts_charging (hf : (s.line f).st = .active) (hg : (s.line f).gate = .charging)
    (hb : s.breaking = false) : pairConducts f s =
      feedConducts f (if (s.line f).live then s.modPwr fun x => { x with vaux := .buck } else s) := by
  simp [pairConducts, hf, hg, hb]

/-- The line of `f` once its pair is fully on, and the end of the switchover that turned it on. -/
def pairOn (f : FeedId) (s : State) : State :=
  let s := s.modLine f fun l => { l with gate := .full }
  if s.feed.switching then s.modFeed fun x => { x with switching := false, lastSwitch := some s.tb3 } else s

theorem pairOn_gate (f : FeedId) (s : State) : ((pairOn f s).line f).gate = .full := by
  unfold pairOn
  dsimp only
  split <;> cases f <;> rfl

theorem pairOn_switching (f : FeedId) (s : State) : (pairOn f s).feed.switching = false := by
  unfold pairOn
  dsimp only
  split
  next => rfl
  next h => exact Bool.eq_false_of_not_eq_true h

theorem pairOn_keeps (f : FeedId) (s : State) :
    (pairOn f s).regs = s.regs ∧ (pairOn f s).sto = s.sto ∧ (pairOn f s).ports = s.ports := by
  unfold pairOn
  dsimp only
  split <;> exact ⟨rfl, rfl, rfl⟩

/-- FC's pair is the PU path, which is ON with it (R106). -/
theorem pairFull_conducting (hf : (s.line f).st = .active) (hg : (s.line f).gate = .conducting)
    (hb : s.breaking = false) : pairFull f s =
      if f = .fc then (pairOn f s).modPp PU fun x => { x with st := if x.st == .ramp then .on else x.st }
      else pairOn f s := by
  simp only [pairFull, pairOn, hf, hg, hb, beq_self_eq_true, Bool.not_false, Bool.and_self, if_true]

/-! ### A port after an update of its power path or its Type-C part -/

theorem State.port_modPp_other (s : State) {p q : PortId} (k : Pp → Pp) (h : q ≠ p) : (s.modPp p k).port q = s.port q := by
  rw [State.modPp, State.port_setPort, if_neg (Ne.symm h)]

theorem State.port_modTc_other (s : State) {p q : PortId} (k : Tc → Tc) (h : q ≠ p) : (s.modTc p k).port q = s.port q := by
  rw [State.modTc, State.port_setPort, if_neg (Ne.symm h)]

theorem State.pp_modPp_self (s : State) (p : PortId) (k : Pp → Pp) : ((s.modPp p k).port p).pp = k (s.port p).pp := by
  rw [State.modPp, State.port_setPort, if_pos rfl]

theorem State.pp_modTc_self (s : State) (p : PortId) (k : Tc → Tc) : ((s.modTc p k).port p).pp = (s.port p).pp := by
  rw [State.modTc, State.port_setPort, if_pos rfl]

/-! ### The new pair fully on (R80, R106) -/

theorem feedPairFullyOn_does (hf : (s.line f).st = .active) (hg : (s.line f).gate = .conducting)
    (hb : s.breaking = false) : Does (.feedPairFullyOn f) s fun u => (u.line f).gate = .full ∧
      u.feed.switching = false ∧ u.regs = s.regs ∧ u.sto = s.sto ∧ ∀ p, p ≠ PU → u.port p = s.port p := by
  obtain ⟨hregs, hsto, hports⟩ := pairOn_keeps f s
  have hport (p : PortId) : (pairOn f s).port p = s.port p := by rw [State.port, hports]
  refine ⟨_, congrArg fin (pairFull_conducting hf hg hb), ?_⟩
  split
  · exact ⟨pairOn_gate f s, pairOn_switching f s, hregs, hsto,
      fun p hp => (State.port_modPp_other _ _ hp).trans (hport p)⟩
  · exact ⟨pairOn_gate f s, pairOn_switching f s, hregs, hsto, fun p _ => hport p⟩

/-! ### A pair that fails (R83, R85) -/

/-- A ramp onto a low bus ends with VIN on the buck; the pair that was charging takes over the bus. -/
theorem rampEnd_charging (hf : (s.line f).st = .active) (hl : (s.line f).live = false)
    (hr : (s.line f).rampEnded = false) (hb : s.breaking = false) (hg : (s.line f).gate = .charging) : rampEnd f s =
      feedConducts f ((s.modLine f fun l => { l with rampEnded := true }).modPwr fun x => { x with vaux := .buck }) := by
  simp [rampEnd, hf, hl, hr, hb, hg]

theorem gateFail_unfinished (hf : (s.line f).st = .active) (hl : (s.line f).live = false)
    (hg : (s.line f).gate ≠ .full) (hb : s.breaking = false) :
    gateFail f s = feedBreak f .locked (s.modLine f fun l => { l with cause := .gate }) := by
  simp [gateFail, hf, hl, hg, hb]

/-- Current in the pair of a feed that is neither ACTIVE nor LOCKED, while another feed drives the bus. -/
theorem shortedPass_idle (ha : (s.line f).st ≠ .active) (hl : (s.line f).st ≠ .locked) (hg : s.activeFeed = some g) :
    shortedPass f s = feedLockNow f .shortedPass s := by
  simp [shortedPass, hg]

/-- Settles O23: each clause is the equation of the operation the command runs. A switchover that cannot confirm its old pair off
runs on from it or declares total feed loss (log 41). -/
theorem switchoversBreakBeforeMake : Obligations.SwitchoversBreakBeforeMake := by
  unfold Obligations.SwitchoversBreakBeforeMake
  intro s
  refine ⟨?_, ?_, ?_, ?_, ?_, ?_, ?_, ?_, ?_, ?_, ?_⟩
  · exact fun f hs ho => congrArg fin (oldOff_confirmed hs ho)
  · exact fun f hs ho => congrArg fin (oldStuck_present hs ho)
  · exact fun f hs ho => congrArg fin (oldStuck_gone hs ho)
  · exact fun f hf hg hb => congrArg fin (pairConducts_charging hf hg hb)
  · exact fun f hf hg hb => feedPairFullyOn_does hf hg hb
  · exact fun f hf hl hg hb => congrArg fin (if_pos (by simp [hf, hl, hg, hb]))
  · exact fun f hf hl hr hb hg => congrArg fin (rampEnd_charging hf hl hr hb hg)
  · exact fun f hf hl hg hb => congrArg fin (gateFail_unfinished hf hl hg hb)
  · exact fun f g ha hl hg => congrArg fin (shortedPass_idle ha hl hg)
  · exact fun f c hc hf hb => congrArg fin ((if_neg hc).trans (if_pos (by simp [hf, hb])))
  · exact fun c => congrArg fin (if_pos rfl)

end Sys2Proof.Machine
end

section
/-! PROOFS. RAMP, ON and LIMIT of the power paths (R98, R106, R108, R110, R112), the retries and the backoff (R121): what each
operation comes to in the states the commands find. -/

namespace Sys2Proof.Machine

variable {s : State} {p q : PortId} {a : AxId} {v : Nat}

/-! ### Entry to RAMP (R98, R106, R110, R112) -/

/-- A port's path enters RAMP: PU's reference is not its VBUS, and an attached source counts its VBUS anew (R146). -/
def rampEntered (p : PortId) (v : Nat) (s : State) : State :=
  (ppEnterRamp p (if p = PU then 0 else v) s).modTc p fun t => { t with vbusCount := t.st == .attachedSrc }

theorem pathRamp_port (h : s.rampReady p v = true) : pathRamp (.port p) v s = rampEntered p v s := if_pos h

theorem rampEntered_pp (p : PortId) (v : Nat) (s : State) : ((rampEntered p v s).port p).pp =
    { (s.port p).pp with st := .ramp, rampRef := if p = PU then 0 else v, brk := 0, soa := 0, backoffDone := false,
                         gateCheck := false } :=
  (State.pp_modTc_self _ p _).trans (State.pp_modPp_self s p _)

theorem rampEntered_port_other (h : q ≠ p) : (rampEntered p v s).port q = s.port q :=
  (State.port_modTc_other _ _ h).trans (State.port_modPp_other s _ h)

theorem pathRampStart_does (hp : p ≠ PU) (h : s.rampReady p v = true) : Does (.pathRampStart (.port p) v) s fun u =>
    (u.port p).pp.st = .ramp ∧ (u.port p).pp.rampRef = v ∧ (u.port p).pp.brk = 0 ∧ (u.port p).pp.soa = 0 ∧
    (u.port p).pp.retries = (s.port p).pp.retries ∧ u.regs = s.regs ∧ u.sto = s.sto ∧
    ∀ q, q ≠ p → u.port q = s.port q := by
  have hpp := rampEntered_pp p v s
  rw [if_neg hp] at hpp
  exact ⟨_, congrArg fin (pathRamp_port h), congrArg Pp.st hpp, congrArg Pp.rampRef hpp, congrArg Pp.brk hpp,
    congrArg Pp.soa hpp, (congrArg Pp.retries hpp :), rfl, rfl, fun q hq => rampEntered_port_other hq⟩

theorem pathRampStart_PU_does (h : s.rampReady PU v = true) : Does (.pathRampStart (.port PU) v) s fun u =>
    (u.port PU).pp.st = .ramp ∧ (u.port PU).pp.rampRef = 0 ∧ u.regs = s.regs ∧ ∀ q, q ≠ PU → u.port q = s.port q := by
  have hpp := rampEntered_pp PU v s
  exact ⟨_, congrArg fin (pathRamp_port h), congrArg Pp.st hpp, congrArg Pp.rampRef hpp, rfl,
    fun q hq => rampEntered_port_other hq⟩

/-! ### RAMP to ON (R98, R106, R108) -/

theorem pathOn_port (hp : p ≠ PU) (h : (s.port p).pp.st = .ramp) : pathOn (.port p) s = portOn p s :=
  (if_pos (beq_iff_eq.2 h)).trans (if_neg hp)

/-- Outside the hand-over's step 2 the PU pair is on, and that is all. -/
theorem pathOn_PU (h : (s.port PU).pp.st = .ramp) (hd : s.dyn.step ≠ .ramp) :
    pathOn (.port PU) s = s.modPp PU fun x => { x with st := .on } :=
  calc pathOn (.port PU) s
    _ = puOn s := (if_pos (beq_iff_eq.2 h)).trans (if_pos rfl)
    _ = s.modPp PU fun x => { x with st := .on } := if_neg fun hstep => hd (beq_iff_eq.1 hstep)

theorem pathOn_ax (h : (s.ax a).st = .ramp) :
    pathOn (.ax a) s = s.modAx a fun x => { x with st := .on, gateFull := true } :=
  if_pos (beq_iff_eq.2 h)

/-! ### ON and LIMIT (R98, R108) -/

theorem pathLimit_port (h : (s.port p).pp.st = .on) :
    pathLimit (.port p) s = ppEvt p 2 (s.modPp p fun x => { x with st := .limit }) :=
  if_pos (beq_iff_eq.2 h)

/-- An aux output in LIMIT has no event of its own, but its protection is a wake source (R389). -/
theorem pathLimit_ax (h : (s.ax a).st = .on) :
    pathLimit (.ax a) s = notice .prot none (s.modAx a fun x => { x with st := .limit, gateFull := false }) :=
  if_pos (beq_iff_eq.2 h)

theorem pathUnlimit_port (h : (s.port p).pp.st = .limit) :
    pathUnlimit (.port p) s = s.modPp p fun x => { x with st := .on } :=
  if_pos (beq_iff_eq.2 h)

theorem pathUnlimit_ax (h : (s.ax a).st = .limit) :
    pathUnlimit (.ax a) s = s.modAx a fun x => { x with st := .on, gateFull := true } :=
  if_pos (beq_iff_eq.2 h)

/-! ### Retries and backoff (R98, R121) -/

theorem retriesReset_port (h : (s.port p).pp.st = .on) :
    retriesReset (.port p) s = s.modPp p fun x => { x with retries := 0 } :=
  if_pos (beq_iff_eq.2 h)

theorem retriesReset_ax (h : (s.ax a).st = .on) : retriesReset (.ax a) s = s.modAx a fun x => { x with retries := 0 } :=
  if_pos (beq_iff_eq.2 h)

theorem backoffDone_port (h : (s.port p).pp.st = .cooldown) :
    backoffDone (.port p) s = s.modPp p fun x => { x with backoffDone := true } :=
  if_pos (beq_iff_eq.2 h)

theorem backoffDone_ax (h : (s.ax a).st = .cooldown) :
    backoffDone (.ax a) s = s.modAx a fun x => { x with backoffDone := true } :=
  if_pos (beq_iff_eq.2 h)

/-- Settles O25: each clause is the equation of the operation the command runs. The off check of an aux output is dropped when
its ramp restarts (log 42). -/
theorem pathsRampConductAndLimit : Obligations.PathsRampConductAndLimit := by
  unfold Obligations.PathsRampConductAndLimit
  intro s
  refine ⟨?_, ?_, ?_, ?_, ?_, ?_, ?_, ?_, ?_, ?_, ?_, ?_, ?_, ?_⟩
  · exact fun p v hp h => pathRampStart_does hp h
  · exact fun v h => pathRampStart_PU_does h
  · exact fun a v h => congrArg fin (if_pos h)
  · exact fun p hp h => congrArg fin (pathOn_port hp h)
  · exact fun h hd => congrArg fin (pathOn_PU h hd)
  · exact fun a h => congrArg fin (pathOn_ax h)
  · exact fun p h => congrArg fin (pathLimit_port h)
  · exact fun a h => congrArg fin (pathLimit_ax h)
  · exact fun p h => congrArg fin (pathUnlimit_port h)
  · exact fun a h => congrArg fin (pathUnlimit_ax h)
  · exact fun p h => congrArg fin (retriesReset_port h)
  · exact fun a h => congrArg fin (retriesReset_ax h)
  · exact fun p h => congrArg fin (backoffDone_port h)
  · exact fun a h => congrArg fin (backoffDone_ax h)

end Sys2Proof.Machine
end

section
/-! PROOFS. Trips, locks and the cooldown of the power paths (R103, R109, R111, R114, R118, R121 to R127): what each operation
comes to in the states the commands find. -/

namespace Sys2Proof.Machine

variable {s : State} {p : PortId} {a : AxId}

/-! ### What the PMBus queue leaves of the ports (R208, R212) -/

@[simp] theorem pmbPump_ports (s : State) : (pmbPump s).ports = s.ports := by
  unfold pmbPump
  split
  · split <;> rfl
  · rfl

@[simp] theorem pmbIssue_ports (t : Txn) (s : State) : (pmbIssue t s).ports = s.ports := pmbPump_ports _

@[simp] theorem pmbRaise_ports (t : Txn) (s : State) : (pmbRaise t s).ports = s.ports := by
  unfold pmbRaise
  split
  · exact pmbIssue_ports t s
  · rfl

@[simp] theorem convOn_ports (p : PortId) (s : State) : (convOn p s).ports = s.ports := by
  unfold convOn
  split
  · exact (pmbRaise_ports _ _).trans (pmbRaise_ports _ s)
  · rfl

/-- Leaving OFF only asks for the converter: the path itself waits for the command that starts its ramp. -/
@[simp] theorem ppKick_ports (p : PortId) (s : State) : (ppKick p s).ports = s.ports := by
  unfold ppKick
  split
  · exact convOn_ports p s
  · rfl

/-! ### Trips (R103, R108, R111, R114) -/

/-- Three states conduct: RAMP, ON and LIMIT. -/
theorem PpState.conducting_iff {x : PpState} : x.conducting = true ↔ x = .ramp ∨ x = .on ∨ x = .limit := by
  cases x <;> decide

theorem pathTrip_conducting (c : PpCause) (h : (s.port p).pp.st.conducting = true) : pathTrip p c s =
    ocTrack p (pdPathTrip p (pdEndContract p (ppTripState p c s))) :=
  if_pos h

/-- The trip of a conducting aux output, with the check of its discharged output pending (R98, R99). -/
theorem axTrip_conducting (c : FeedCause) (counted : Bool) (h : (s.ax a).st.conducting = true) : axTrip a c counted s =
    feedEvt 8 (s.modAx a fun x =>
      { x with st := .tripped, cause := c, counted := counted, pgood := false, gateFull := false, offCheck := true }) := by
  rw [axTrip, if_pos h, axTripState]
  obtain hst | hst | hst := PpState.conducting_iff.1 h <;> rw [hst]

theorem soaTrip_port (h : (s.port p).pp.st = .ramp ∨ (s.port p).pp.st = .limit) : soaTrip (.port p) s =
    pathTrip p .soaBudget (s.modPp p fun x => { x with soa := s.rd (F.PP_BRKCFG_SOA_MJ p) * 4000000000 }) := by
  obtain hst | hst := h <;> rw [soaTrip, State.pathState, hst]

/-! ### Damaged pass elements (R124 to R127) -/

theorem outputPresent_off (hc : (s.port p).pp.check = true) (hs : s.ppSuppress p = false) (ho : (s.port p).pp.st = .off) :
    outputPresent p s = pathShorted p (s.modPp p fun x => { x with check := false }) := by
  rw [outputPresent, hc, hs, ho]
  rfl

/-! ### The pair is off: COOLDOWN or LOCKED (R108, R121) -/

theorem State.modPp_congr {f g : Pp → Pp} (h : f (s.port p).pp = g (s.port p).pp) : s.modPp p f = s.modPp p g := by
  rw [State.modPp, State.modPp, h]

theorem pathDischarged_port (h : (s.port p).pp.st = .tripped) : pathDischarged (.port p) s = pathCool p s :=
  if_pos (beq_iff_eq.2 h)

theorem pathDischarged_ax (h : (s.ax a).st = .tripped) : pathDischarged (.ax a) s = axCool a s :=
  if_pos (beq_iff_eq.2 h)

theorem pathCool_exhausted (hc : (s.port p).pp.counted = true)
    (hr : s.rd (F.PP_CTRL_RETRY_CNT p) ≤ (s.port p).pp.retries.val) : pathCool p s = pathLock p (s.port p).pp.cause s :=
  if_pos (Bool.and_eq_true_iff.2 ⟨hc, decide_eq_true hr⟩)

/-- A cause that is not counted leaves RETRIES; without a converter and without a waiting OFF condition nothing follows. -/
theorem pathCool_uncounted (hc : (s.port p).pp.counted = false) (ho : (s.port p).pp.offPend = false)
    (hv : s.conv p = none) : pathCool p s = s.modPp p fun x => { x with st := .cooldown, backoffDone := false } := by
  have hconv (f : Pp → Pp) : (s.modPp p f).conv p = none := hv
  have hlock : ((s.port p).pp.counted && decide (s.rd (F.PP_CTRL_RETRY_CNT p) ≤ (s.port p).pp.retries.val)) = false := by
    rw [hc, Bool.false_and]
  simp only [pathCool, hlock, ho, hconv, Bool.false_eq_true, if_false]
  exact State.modPp_congr (by rw [hc]; rfl)

/-! ### PP_UNLOCK (R123) -/

theorem ppUnlock_locked (h : (s.port p).pp.st = .locked) : ((ppUnlock p s).port p).pp.st = .off := by
  rw [ppUnlock, if_pos (beq_iff_eq.2 h), State.port, ppKick_ports]
  exact congrArg Pp.st (State.pp_modPp_self s p _)

/-- Settles O26: each clause is the equation of the operation the command runs. The model's own readings: a timer of an unused
breakpoint changes nothing (log 42), and a trip lets the source recovery of the PD engine follow (log 43). -/
theorem pathsTripCoolAndLock : Obligations.PathsTripCoolAndLock := by
  unfold Obligations.PathsTripCoolAndLock
  intro s
  refine ⟨fun p => rfl, ?_, ?_, ?_, ?_, ?_, ?_, ?_, ?_, ?_, ?_, ?_, ?_, ?_, ?_⟩
  · exact fun a h => congrArg fin (axTrip_conducting .fastTrip true h)
  · exact fun p k h => congrArg fin (if_neg h)
  · exact fun p k h => congrArg fin (if_pos h)
  · exact fun p h => congrArg fin (soaTrip_port h)
  · exact fun p hp h => congrArg fin (if_pos (by rw [h]; simp [hp]))
  · exact fun p c h => pathTrip_conducting c h
  · exact fun p hp h => congrArg fin (if_pos (by rw [h]; simp [hp]))
  · exact fun p hp h hg => congrArg fin (if_pos (by rw [h, hg]; simp [hp]))
  · exact fun p hc hs ho => congrArg fin (outputPresent_off hc hs ho)
  · exact fun p h hc hr => congrArg fin ((pathDischarged_port h).trans (pathCool_exhausted hc hr))
  · exact fun p h hc ho hv => congrArg fin ((pathDischarged_port h).trans (pathCool_uncounted hc ho hv))
  · exact fun a h => congrArg fin (pathDischarged_ax h)
  · exact fun path p v h ho => congrArg fin (write_PP_UNLOCK h ho (bitOf_setBit_self v (by decide)))
  · exact fun p h => ppUnlock_locked h

end Sys2Proof.Machine
end

section
/-! PROOFS. Metering (R128 to R132) and the tick of the stream (R288): what a sample, a snapshot, a read of an energy counter
and a tick come to in the states the commands find. -/

namespace Sys2Proof.Machine

variable {s : State}

/-! ### A sample (R128, R129) -/

/-- What a sample instant leaves of a state while the paths take theirs. -/
def State.sampleFrame (s : State) : SMap Word × Sto × Meters × (PortId → PpState) :=
  (s.regs, s.sto, s.mt, fun q => (s.port q).pp.st)

/-- A path takes its accumulator and its running timers; its state stays. -/
theorem ppSample_frame (p : PortId) (v i : Int) (s : State) : (ppSample p v i s).sampleFrame = s.sampleFrame := by
  have hst (q : PortId) : ((ppSample p v i s).port q).pp.st = (s.port q).pp.st := by
    by_cases h : q = p
    · subst h
      rw [ppSample, State.pp_modPp_self]
    · rw [ppSample, State.port_modPp_other s _ h]
  exact congrArg (fun g => (s.regs, s.sto, s.mt, g)) (funext hst)

/-- Every port's path at a sample instant. -/
def pathsSampled (v i : List Int) (s : State) : State :=
  forEach allPorts (fun p => ppSample p (clampV (v.getD p.val 0)) (clampI (i.getD p.val 0))) s

theorem pathsSampled_keeps (v i : List Int) (s : State) : (pathsSampled v i s).regs = s.regs ∧
    (pathsSampled v i s).sto = s.sto ∧ (pathsSampled v i s).mt = s.mt ∧
    ∀ q, ((pathsSampled v i s).port q).pp.st = (s.port q).pp.st := by
  have hframe : (pathsSampled v i s).sampleFrame = s.sampleFrame :=
    forEach_keeps State.sampleFrame (fun p t => ppSample_frame p _ _ t) allPorts s
  simpa only [State.sampleFrame, Prod.mk.injEq, funext_iff] using hframe

@[simp] theorem State.port_modMt (f : Meters → Meters) (q : PortId) (s : State) : (s.modMt f).port q = s.port q := rfl

theorem meterSample_on (v i : List Int) (hf : s.pwr.afeOn = true) (ha : s.aonUp = true) : meterSample v i s =
    let m := Vector.ofFn fun k : Fin 21 => Meter.take s.mt.m[k] (unitMv k) (v.getD k.val 0) (i.getD k.val 0)
    (pathsSampled v i s).modMt fun x => { x with m := m } := by
  obtain ⟨-, -, hmt, -⟩ := pathsSampled_keeps v i s
  rw [← hmt]
  exact if_neg (by simp [hf, ha])

theorem meterSample_off (v i : List Int) (hf : s.pwr.afeOn = false) : meterSample v i s = s := if_pos (by simp [hf])

theorem meterSample_does (v i : List Int) (hf : s.pwr.afeOn = true) (ha : s.aonUp = true) :
    Does (.meterSample v i) s fun u => u.regs = s.regs ∧ u.sto = s.sto ∧
      (∀ k : Fin 21, u.mt.m[k] = Meter.take s.mt.m[k] (unitMv k) (v.getD k.val 0) (i.getD k.val 0)) ∧
      ∀ p, (u.port p).pp.st = (s.port p).pp.st := by
  obtain ⟨hregs, hsto, -, hst⟩ := pathsSampled_keeps v i s
  refine ⟨_, congrArg fin (meterSample_on v i hf ha), ?_⟩
  simp only [State.modMt_regs, State.modMt_sto, State.modMt_mt, State.port_modMt]
  exact ⟨hregs, hsto, fun k => by simp, hst⟩

/-! ### A read of an energy counter (R132) -/

theorem energyAt_mtELo (m : MeterId) : energyAt (mtBase m + 0x18) = some m := by
  revert m
  decide

/-- The meters lie outside the blocks whose registers power up a DPHY domain (R395). -/
theorem touchDomain_mtELo (m : MeterId) (s : State) : touchDomain (mtBase m + 0x18) s = s := by
  have hblock : (mtBase m + 0x18) % 0x1000 < 0xA00 := by
    revert m
    decide
  unfold touchDomain
  split
  · exact if_neg (by omega)
  · rfl

/-- None of the other registers that act on a read is an energy counter. -/
theorem mtELo_ne_acting (m : MeterId) : inWindow (mtBase m + 0x18) = false ∧ ∀ a ∈ [R.EVQ_POP, R.TIM_TB0_NS, R.TIM_TB3_LO,
    R.CL_XS_STAT, R.TIM_CAP_STAT 0, R.TIM_CAP_STAT 1, R.TIM_CAP_STAT 2], mtBase m + 0x18 ≠ a := by
  revert m
  decide

theorem regRead_mtELo (path : Path) (m : MeterId) (s : State) : regRead path (mtBase m + 0x18) s =
    gotWord (meterRead path (mtBase m + 0x18) m (leaveIdle s)) := by
  obtain ⟨hwin, hne⟩ := mtELo_ne_acting m
  simp only [List.forall_mem_cons] at hne
  simp only [regRead, touchDomain_mtELo, energyAt_mtELo, hwin, hne, Bool.false_eq_true, or_self, if_false]

theorem leaveIdle_mt : (leaveIdle s).mt = s.mt := by
  unfold leaveIdle
  split <;> rfl

theorem readAt_mtELo {path : Path} {m : MeterId} (h : s.reaches path (mtBase m + 0x18) = true) :
    readAt path (mtBase m + 0x18) s = latchSeq path (mtBase m + 0x1C)
      [BitVec.ofNat 32 (s.mt.m[m].energy.toNat / 2 ^ 32)] (leaveIdle s) := by
  rw [readAt, if_pos h, regRead_mtELo, gotWord, meterRead, leaveIdle_mt]

/-! ### A tick of the stream (R288) -/

/-- The tick is counted before its record is built, which carries the new count. -/
theorem meterTick_due (he : s.rdB F.EFN_MTR_CTRL_EN = true) (ht : s.rd F.EFN_MTR_CTRL_TICK ≠ 0) (hc : s.coreUp = true) :
    meterTick s = streamPut false ((s.bumpWrap F.EFN_MTR_STAT_TICKSEQ).rd F.EFN_MTR_STAT_TICKSEQ) s.tb0
      (s.bumpWrap F.EFN_MTR_STAT_TICKSEQ) :=
  if_neg (by simp [he, ht, hc])

/-- Settles O27: each clause is the equation of the operation the command runs. That a tick is counted before its record is
built is the model's choice (log 56). -/
theorem metersSampleSnapAndLatch : Obligations.MetersSampleSnapAndLatch := by
  unfold Obligations.MetersSampleSnapAndLatch
  intro s
  refine ⟨fun v i hf ha => meterSample_does v i hf ha, ?_, ?_, ?_, ?_⟩
  · exact fun v i hf => congrArg fin (meterSample_off v i hf)
  · exact fun hp hf => congrArg fin (if_pos ⟨hp, hf⟩)
  · exact fun path m h => congrArg fin (readAt_mtELo h)
  · exact fun he ht hc => congrArg fin (meterTick_due he ht hc)

end Sys2Proof.Machine
end

section
/-! PROOFS. Attach, the Try sequences, detach and error recovery of the Type-C ports (R135 to R151, R158): what entering a state
leaves of the port, and what each operation comes to in the states the commands find. -/

namespace Sys2Proof.Machine

variable {s : State} {p : PortId} {c1 c2 : CcTerm} {vbus : Nat}

/-! ### Allocating pages touches no port (R248, R249, R292) -/

theorem allocNone_ports (n : Nat) (s : State) : (allocNone n s).ports = s.ports := by
  unfold allocNone
  split
  · rfl
  · exact (raiseEvt0_eventOnly _ _).ports

@[simp] theorem allocPage_ports (n : Nat) (s : State) : (allocPage n s).2.ports = s.ports := by
  unfold allocPage
  split
  · exact allocNone_ports n s
  · rfl

@[simp] theorem freePageOf_ports (g : Nat) (s : State) : (freePageOf g s).ports = s.ports := by
  unfold freePageOf
  dsimp only
  split <;> rfl

@[simp] theorem allocPages_ports (n k : Nat) (s : State) : (allocPages n k s).2.ports = s.ports := by
  induction k generalizing s with
  | zero => rfl
  | succ k ih =>
    have hpage := allocPage_ports n s
    unfold allocPages
    split
    next t h =>
      rw [h] at hpage
      exact hpage
    next g t h =>
      rw [h] at hpage
      have hrest := ih t
      split
      next u hu =>
        rw [hu] at hrest
        exact (freePageOf_ports g u).trans (hrest.trans hpage)
      next l u hu =>
        rw [hu] at hrest
        exact hrest.trans hpage

@[simp] theorem ttReplace_ports (l : List Nat) (s : State) : (ttReplace l s).2.ports = s.ports := by
  induction l generalizing s with
  | nil => rfl
  | cons g l ih =>
    unfold ttReplace
    dsimp only
    split
    · split <;> simp only [ih, freePageOf_ports, allocPage_ports]
    · exact ih s

@[simp] theorem ttTake_ports (s : State) : (ttTake s).2.ports = s.ports := by
  unfold ttTake
  dsimp only
  split <;> exact allocPages_ports 1 3 s

/-! ### A port's Type-C part after an update of a port -/

@[simp] theorem State.tc_modTc_self (s : State) (p : PortId) (f : Tc → Tc) : ((s.modTc p f).port p).tc = f (s.port p).tc := by
  rw [State.modTc, State.port_setPort, if_pos rfl]

/-- An update of a port that leaves the port's Type-C part leaves every port's. -/
theorem State.tc_setPort {x : Port} (h : x.tc = (s.port p).tc) (q : PortId) : ((s.setPort p x).port q).tc = (s.port q).tc := by
  rw [State.port_setPort]
  split
  next hq => rw [h, hq]
  next => rfl

@[simp] theorem State.tc_modU (s : State) (p q : PortId) (f : UPort → UPort) : ((s.modU p f).port q).tc = (s.port q).tc :=
  State.tc_setPort (by rfl) q

@[simp] theorem State.tc_modTt (s : State) (p q : PortId) (f : Tt → Tt) : ((s.modTt p f).port q).tc = (s.port q).tc :=
  State.tc_setPort (by rfl) q

@[simp] theorem State.tc_modPp (s : State) (p q : PortId) (f : Pp → Pp) : ((s.modPp p f).port q).tc = (s.port q).tc :=
  State.tc_setPort (by rfl) q

theorem State.port_congr {t : State} (h : t.ports = s.ports) (q : PortId) : t.port q = s.port q := by
  rw [State.port, h]

/-! ### A gate that closes ends the port's USB and nothing of its Type-C part (R228) -/

@[simp] theorem raiseEvt0_port (a k : Nat) (s : State) (q : PortId) : (raiseEvt0 a k s).port q = s.port q :=
  State.port_congr (raiseEvt0_eventOnly a k).ports q

theorem uDisconnect_tc (p q : PortId) (s : State) : ((uDisconnect p s).port q).tc = (s.port q).tc := by
  unfold uDisconnect
  dsimp only
  split
  · rw [hpEvt, raiseEvt0_port, State.tc_modU]
  · rw [State.tc_modU]

theorem ttNoPage_tc (p q : PortId) (s : State) : ((ttNoPage p s).port q).tc = (s.port q).tc := by
  rw [ttNoPage, State.port_congr (raiseAt_ports _ _ _), ttEvt, raiseEvt0_port, State.tc_modTt]

theorem ttReset_tc (p : PortId) (cut : Bool) (s : State) (q : PortId) : ((ttReset p cut s).port q).tc = (s.port q).tc := by
  have hdiscard : ((ttDiscard p cut s).port q).tc = (s.port q).tc := State.tc_modTt s p q _
  have hend (b : Bool) (t : State) : ((if b then t else ttNoPage p t).port q).tc = (t.port q).tc := by
    cases b with
    | false => exact ttNoPage_tc p q t
    | true => rfl
  unfold ttReset
  dsimp only
  rw [hend, ttEvt, raiseEvt0_port, State.tc_modTt]
  split
  · rw [State.port_congr (ttTake_ports _), hdiscard]
  · rw [State.port_congr (ttReplace_ports _ _), hdiscard]

theorem gateClose_tc (p q : PortId) (s : State) : ((gateClose p s).port q).tc = (s.port q).tc :=
  (ttReset_tc p true _ q).trans (uDisconnect_tc p q s)

theorem withGate_tc (p q : PortId) (f : State → State) (s : State) : ((withGate p f s).port q).tc = ((f s).port q).tc := by
  unfold withGate
  dsimp only
  split
  · exact gateClose_tc p q (f s)
  · rfl

/-! ### Entering a state (R137, R145) -/

theorem noticeIf_rpAdv (c : Bool) (w : WakeSrc) (r : Option PortId) (s : State) (p : PortId) :
    (noticeIf c w r s).rpAdv p = s.rpAdv p := rfl

/-- The port takes the state and the Rp it calls for; the rest of its Type-C part stays. -/
theorem tcEnter_tc (p : PortId) (st : TcState) (s : State) : ((tcEnter p st s).port p).tc =
    { (s.port p).tc with st := st, rp := if st.presentsRp then s.rpAdv p else 0 } := by
  rw [tcEnter, withGate_tc, State.tc_modTc_self]
  by_cases h : st = .attachedSnk
  · have hrp : st.presentsRp = false := by rw [h]; rfl
    simp only [if_pos h, hrp, Bool.false_eq_true, if_false, State.tc_modPp, State.port_congr (noticeIf_ports _ _ _ _)]
  · simp only [if_neg h, noticeIf_rpAdv, State.port_congr (noticeIf_ports _ _ _ _)]

/-! ### The terminations on CC change (R136, R137, R138) -/

theorem tcCcChange_unattachedSnk (hu : s.tcUp = true) (h : (s.port p).tc.st = .unattachedSnk)
    (hc : (ccIsRp c1 != ccIsRp c2) = true) : tcCcChange p c1 c2 s =
      tcEnter p .attachWaitSnk (s.modTc p fun t => { t with cc1 := c1, cc2 := c2 }) := by
  simp only [tcCcChange, hu, State.tc_modTc_self, h]
  exact if_pos hc

theorem tcCcChange_trySrc (hu : s.tcUp = true) (h : (s.port p).tc.st = .trySrc) (hc : ((c1 == .rd) != (c2 == .rd)) = true) :
    tcCcChange p c1 c2 s = attachSrc p (s.modTc p fun t => { t with cc1 := c1, cc2 := c2 }) := by
  simp only [tcCcChange, hu, State.tc_modTc_self, h]
  exact if_pos hc

/-- A port held in DISABLED takes note of the terminations and does nothing. -/
theorem tcCcChange_disabled (hu : s.tcUp = true) (h : (s.port p).tc.st = .disabled) :
    tcCcChange p c1 c2 s = s.modTc p fun t => { t with cc1 := c1, cc2 := c2 } := by
  simp only [tcCcChange, hu, State.tc_modTc_self, h]
  rfl

theorem tcCcChange_disabled_does (hu : s.tcUp = true) (h : (s.port p).tc.st = .disabled) :
    Does (.tcCcChange p c1 c2) s fun u =>
      (u.port p).tc.st = .disabled ∧ (u.port p).tc.cc1 = c1 ∧ (u.port p).tc.cc2 = c2 := by
  refine ⟨_, congrArg fin (tcCcChange_disabled hu h), ?_⟩
  simp only [State.tc_modTc_self]
  exact ⟨h, trivial, trivial⟩

/-! ### tDRP and tCCDebounce (R138, R140, R147, R150) -/

theorem tcDrpToggle_unattachedSnk (h : (s.port p).tc.st = .unattachedSnk) (hu : s.tcUp = true) (hr : s.rdAlone p = false) :
    tcDrpToggle p s = tcEnter p .unattachedSrc
      (s.modTc p fun t => { t with cc1 := .open, cc2 := .open, accSeen := false }) := by
  rw [tcDrpToggle, h]
  exact if_pos (by rw [hu, hr]; rfl)

theorem tcDrpToggle_unattachedSrc (h : (s.port p).tc.st = .unattachedSrc) (hu : s.tcUp = true) :
    tcDrpToggle p s = tcEnter p .unattachedSnk
      (s.modTc p fun t => { t with cc1 := .open, cc2 := .open, accSeen := false }) := by
  rw [tcDrpToggle, h]
  exact if_pos hu

/-- A downstream port sources once its sink partner is debounced and VBUS is at vSafe0V. -/
theorem tcDebounce_attachWaitSrc (hp : p ≠ PU) (hu : s.tcUp = true) (h : (s.port p).tc.st = .attachWaitSrc)
    (hs : sinkSeen (s.port p).tc = true) (hv : vbus < 800) : tcDebounce p vbus s = attachSrc p s := by
  simp only [tcDebounce, hu, h, hs, hp]
  exact if_pos (decide_eq_true hv)

/-- The debounced source partner makes the port a sink, or the port tries to source first. -/
theorem tcDebounce_attachWaitSnk (hu : s.tcUp = true) (h : (s.port p).tc.st = .attachWaitSnk)
    (hs : sourceSeen (s.port p).tc = true) (hv : 4000 ≤ vbus) : tcDebounce p vbus s =
      if decide (p.val < 16) && s.tries p && !s.rdAlone p then
        tcEnter p .trySrc (s.modTc p fun t => { t with cc1 := .open, cc2 := .open })
      else attachSnk p s := by
  have hb : vbusPresent vbus = true := decide_eq_true hv
  simp only [tcDebounce, hu, h, hs, hb]
  rfl

theorem tcDebounce_attachSnk (hu : s.tcUp = true) (h : (s.port p).tc.st = .attachWaitSnk)
    (hs : sourceSeen (s.port p).tc = true) (hv : 4000 ≤ vbus) (ht : p = PU ∨ s.tries p = false ∨ s.rdAlone p = true) :
    tcDebounce p vbus s = attachSnk p s := by
  refine (tcDebounce_attachWaitSnk hu h hs hv).trans (if_neg ?_)
  obtain rfl | ht | ht := ht <;> simp [*]

theorem tcDebounce_trySrc (hp : p ≠ PU) (hu : s.tcUp = true) (h : (s.port p).tc.st = .attachWaitSnk)
    (hs : sourceSeen (s.port p).tc = true) (hv : 4000 ≤ vbus) (ht : s.tries p = true) (hr : s.rdAlone p = false) :
    tcDebounce p vbus s = tcEnter p .trySrc (s.modTc p fun t => { t with cc1 := .open, cc2 := .open }) :=
  (tcDebounce_attachWaitSnk hu h hs hv).trans (if_pos (by simp [show p.val < 16 from (hubPort_range hp).2, ht, hr]))

/-! ### The Try sequences end (R138) -/

theorem tcDrpTry_trySrc (h : (s.port p).tc.st = .trySrc) :
    tcDrpTry p s = tcEnter p .tryWaitSnk (s.modTc p fun t => { t with cc1 := .open, cc2 := .open }) := by
  rw [tcDrpTry, h]

theorem tcTryTimeout_trySnk (h : (s.port p).tc.st = .trySnk) :
    tcTryTimeout p s = tcEnter p .tryWaitSrc (s.modTc p fun t => { t with cc1 := .open, cc2 := .open }) := by
  rw [tcTryTimeout, h]

theorem tcTryWait_ends (h : (s.port p).tc.st = .tryWaitSnk ∨ (s.port p).tc.st = .tryWaitSrc) :
    tcTryWait p s = tcUnattach p .unattachedSnk s := by
  obtain h | h := h <;> rw [tcTryWait, h]

/-- Settles O28: each clause is the equation of the operation the command runs. The transitions the chapter only names by the
Type-C specification are taken from it (log 22), and VBUS counts as present from 4.0 V (log 46). -/
theorem attachAndDetachFollowTheTerminations : Obligations.AttachAndDetachFollowTheTerminations := by
  unfold Obligations.AttachAndDetachFollowTheTerminations
  intro s
  refine ⟨?_, ?_, ?_, ?_, ?_, ?_, ?_, ?_, ?_, ?_, ?_, ?_, ?_, ?_, ?_, ?_, ?_⟩
  · exact fun p st => ⟨congrArg Tc.st (tcEnter_tc p st s), congrArg Tc.rp (tcEnter_tc p st s)⟩
  · exact fun p c1 c2 hu h hc => congrArg fin (tcCcChange_unattachedSnk hu h hc)
  · exact fun p c1 c2 hu h hc => congrArg fin (tcCcChange_trySrc hu h hc)
  · exact fun p c1 c2 hu h => tcCcChange_disabled_does hu h
  · exact fun p h hu hr => congrArg fin (tcDrpToggle_unattachedSnk h hu hr)
  · exact fun p h hu => congrArg fin (tcDrpToggle_unattachedSrc h hu)
  · exact fun p vbus hp hu h hs hv => congrArg fin (tcDebounce_attachWaitSrc hp hu h hs hv)
  · exact fun p vbus hu h hs hv ht => congrArg fin (tcDebounce_attachSnk hu h hs hv ht)
  · exact fun p vbus hp hu h hs hv ht hr => congrArg fin (tcDebounce_trySrc hp hu h hs hv ht hr)
  · exact fun p h => congrArg fin (tcDrpTry_trySrc h)
  · exact fun p h => congrArg fin (tcTryTimeout_trySnk h)
  · exact fun p h => congrArg fin (tcTryWait_ends h)
  · exact fun p hu h => congrArg fin (if_pos (Bool.and_eq_true_iff.2 ⟨hu, h⟩))
  · exact fun p h hv => congrArg fin (if_pos (by rw [h, hv]; rfl))
  · exact fun p h => congrArg fin (if_pos (beq_iff_eq.2 h))
  · exact fun path p v h => congrArg fin (write_TC_CMD h)
  · exact fun p c1 c2 => rfl

end Sys2Proof.Machine
end

section
/-! PROOFS. Received PD messages (R159, R162, R165, R171, R177, R195 to R198): how the engine finds a message, what queues an
answer, and what each message comes to at a port whose engine runs. -/

namespace Sys2Proof.Machine

variable {s : State} {p : PortId} {m : PdMsg} {rev2 : Bool} {f : State → State}

/-! ### A port's PD part after an update of it -/

@[simp] theorem State.pd_modPd_self (s : State) (p : PortId) (f : Pd → Pd) :
    ((s.modPd p f).port p).pd = f (s.port p).pd := by
  rw [State.modPd, State.port_setPort, if_pos rfl]

/-! ### The engine as a message finds it (R159, R163, R165) -/

theorem pdRevise_rev_ne_zero (p : PortId) (rev2 : Bool) (s : State) : ((pdRevise p rev2 s).port p).pd.rev ≠ 0 := by
  rw [pdRevise, State.pd_modPd_self]
  dsimp only
  split <;> decide

/-- Any message fixes the port's revision, if none before it did. -/
theorem pdIn_rev_ne_zero (p : PortId) (rev2 : Bool) (s : State) : ((pdIn p rev2 s).port p).pd.rev ≠ 0 := by
  unfold pdIn
  dsimp only
  split
  · exact pdRevise_rev_ne_zero p rev2 _
  · assumption

@[simp] theorem pdIn_img (p : PortId) (rev2 : Bool) (s : State) : (pdIn p rev2 s).img = s.img := by
  unfold pdIn
  dsimp only
  split <;> rfl

theorem pdRx_of_pdUp (hu : s.pdUp p = true) : pdRx p rev2 f s = f (pdIn p rev2 s) := if_pos hu

/-! ### Sending (R159, R163) -/

/-- A message goes behind the messages that wait, unless the service level is 0 or the message exists at 3.x only. -/
theorem pdSend_queues (hl : s.glb.level ≠ 0) (hm : m.needs3 = false ∨ (s.port p).pd.rev ≠ 1) : pdSend p m s =
    s.modPd p fun x => { x with tx := x.tx.filter (fun m => !m.isSignal) ++ [m] } := by
  have h3 : (m.needs3 && (s.port p).pd.rev == 1) = false := by
    obtain hm | hm := hm
    · rw [hm, Bool.false_and]
    · rw [beq_false_of_ne hm, Bool.and_false]
  rw [pdSend, h3, beq_false_of_ne hl]
  rfl

@[simp] theorem pdSend_rev (p : PortId) (m : PdMsg) (s : State) : ((pdSend p m s).port p).pd.rev = (s.port p).pd.rev := by
  unfold pdSend
  split
  · rfl
  · rw [State.pd_modPd_self]

/-! ### Requests for capabilities and status (R162, R195, R197, R198) -/

theorem pdGetSourceCapRx_source {epr : Bool} (hu : s.pdUp p = true) (hs : ((pdIn p false s).port p).pd.source = true) :
    pdGetSourceCapRx p epr s =
      pdSendCapsAs p (epr && ((pdIn p false s).port p).pd.rev == 2) (pdIn p false s) :=
  (pdRx_of_pdUp hu).trans (if_pos hs)

theorem pdSinkCapsRx_hubPort {pdo1 : Word} (hu : s.pdUp p = true) (hp : p ≠ PU) : pdSinkCapsRx p pdo1 s =
    (pdSettled p (pdIn p false s)).modPd p fun x =>
      { x with snkCapValid := true, frsCur := BitVec.ofNat 2 (bitsOf pdo1 23 2) } :=
  (pdRx_of_pdUp hu).trans (if_neg hp)

theorem pdAlertRx_hubPort {ado : Word} (hu : s.pdUp p = true) (hp : p ≠ PU) : pdAlertRx p ado s =
    (pdIn p false s).modPd p fun x => { x with lastAlert := ado } :=
  (pdRx_of_pdUp hu).trans (if_neg hp)

theorem pdAlertRx_PU {ado : Word} (hu : s.pdUp p = true) (hp : p = PU) : pdAlertRx p ado s =
    pdStart p .getStatus ((pdIn p false s).modPd p fun x => { x with lastAlert := ado }) :=
  (pdRx_of_pdUp hu).trans (if_pos hp)

/-- At 3.x the event flags are reported once: the status sent clears them. -/
theorem pdGetStatusRx_rev3 (hu : s.pdUp p = true) (hr : ((pdIn p false s).port p).pd.rev = 2) : pdGetStatusRx p s =
    (pdSend p (.status ((pdIn p false s).pdStatusBytes p)) (pdIn p false s)).modPd p fun x => { x with evFlags := 0 } := by
  have hne : ¬(((pdSend p (.status ((pdIn p false s).pdStatusBytes p)) (pdIn p false s)).port p).pd.rev == 1) = true := by
    rw [pdSend_rev, hr]
    decide
  exact (pdRx_of_pdUp hu).trans (if_neg hne)

theorem pdGetSourceInfoRx_source (hu : s.pdUp p = true) (hs : ((pdIn p false s).port p).pd.source = true) :
    pdGetSourceInfoRx p s = pdSend p (.sourceInfo (atBits 16 8 ((pdIn p false s).maxMw p / 1000) |||
      atBits 8 8 ((pdIn p false s).share p / 1000) ||| atBits 0 8 (((pdIn p false s).port p).pd.grant / 1000)))
        (pdIn p false s) :=
  (pdRx_of_pdUp hu).trans (if_pos hs)

/-! ### BIST and structured VDMs (R162) -/

theorem pdBistRx_vSafe5V {c : Bool} (hu : s.pdUp p = true) (hv : ((pdIn p false s).port p).pd.nowMv = 5000)
    (ht : ((pdIn p false s).port p).pd.trans = none) : pdBistRx p c s =
      pdSend p (.bistMode c) ((pdIn p false s).modPd p fun x => { x with bist := some c }) :=
  (pdRx_of_pdUp hu).trans (if_pos (by rw [hv, ht]; rfl))

/-- A request of an SVID that is neither the PD SID nor the image's is answered NAK, command type 2. -/
theorem pdSvdmRx_foreign {h : Word} (hu : s.pdUp p = true) (hs : bitsOf h 16 16 ≠ 0xFF00) (hi : s.img.svid = none)
    (hv : bitOf h 15 = true) (ht : bitsOf h 6 2 = 0) : pdSvdmRx p h s =
      sendVdm p (bitsOf h 16 16) (bitsOf h 8 3) 2 (bitsOf h 0 5) [] (pdIn p false s) :=
  (pdRx_of_pdUp hu).trans (if_neg (by simp [hs, hi, hv, ht]))

/-! ### Answers to the hub's own messages (R177) -/

theorem pdResponseRx_eprEnterSucceeded (hu : s.pdUp p = true)
    (ha : ((pdIn p false s).port p).pd.await = some .eprEnter) : pdResponseRx p .eprEnterSucceeded s =
      pdEvt p 9 ((pdSettled p (pdIn p false s)).modPd p fun x => { x with epr := true }) :=
  (pdRx_of_pdUp hu).trans (if_pos ha)

/-- Settles O30: each clause is the equation of the operation the message runs, as `pdIn` finds it at a port whose engine is up.
The effect of a message that the chapter only names by USB PD is taken from there (log 21), and an unchunked extended message
is answered Not_Supported (log 53). -/
theorem receivedMessagesAreAnswered : Obligations.ReceivedMessagesAreAnswered := by
  unfold Obligations.ReceivedMessagesAreAnswered
  rintro s p t hu rfl
  refine ⟨?_, ?_, ?_, ?_, ?_, ?_, ?_, ?_, ?_, ?_, ?_, ?_, ?_, ?_, ?_, ?_, ?_, ?_, ?_, ?_, ?_, ?_, ?_⟩
  · exact pdIn_rev_ne_zero p false s
  · exact fun m hl hm => pdSend_queues hl hm
  · exact fun epr hs => congrArg fin (pdGetSourceCapRx_source hu hs)
  · exact fun epr => congrArg fin (pdRx_of_pdUp hu)
  · exact fun pdo1 hp => congrArg fin (pdSinkCapsRx_hubPort hu hp)
  · exact congrArg fin (pdRx_of_pdUp hu)
  · exact congrArg fin (pdRx_of_pdUp hu)
  · exact fun ado hp => congrArg fin (pdAlertRx_hubPort hu hp)
  · exact fun ado hp => congrArg fin (pdAlertRx_PU hu hp)
  · exact fun hr => congrArg fin (pdGetStatusRx_rev3 hu hr)
  · exact fun hs => congrArg fin (pdGetSourceInfoRx_source hu hs)
  · exact congrArg fin (pdRx_of_pdUp hu)
  · exact congrArg fin (pdRx_of_pdUp hu)
  · exact congrArg fin (pdRx_of_pdUp hu)
  · exact fun c hv ht => congrArg fin (pdBistRx_vSafe5V hu hv ht)
  · exact congrArg fin (pdRx_of_pdUp hu)
  · exact congrArg fin (pdRx_of_pdUp hu)
  · exact congrArg fin (pdRx_of_pdUp hu)
  · exact rfl
  · exact fun h hs hi hv ht => congrArg fin (pdSvdmRx_foreign hu hs hi hv ht)
  · exact fun ha => congrArg fin (pdResponseRx_eprEnterSucceeded hu ha)
  · exact fun c => congrArg fin (pdRx_of_pdUp hu)
  · exact congrArg fin (pdRx_of_pdUp hu)

end Sys2Proof.Machine
end

section
/-! PROOFS. The commands of PD_CMD (R165, R166, R191, R192, R199) and the budget manager's timers (R184, R189, R190): which
operation each bit of a write runs, when the port's state refuses it, and what the timers' commands come to. -/

namespace Sys2Proof.Machine

variable {s : State} {p : PortId}

/-! ### A write of PD_CMD (R199) -/

/-- Each row of PD_CMD is a write of the register with the row's bit set. -/
theorem fin_writeAt_PD_CMD {path : Path} {v : Word} (h : s.reaches path (R.PD_CMD p) = true) (k : Nat) :
    fin (writeAt path (R.PD_CMD p) (setBit v k) s) =
      .next (settled (pdCmd p (setBit v k) (written path (R.PD_CMD p) (setBit v k) s))) :=
  congrArg fin (write_PD_CMD h)

theorem pdCmd_rows {path : Path} {v : Word} (h : s.reaches path (R.PD_CMD p) = true) :
    ∀ x ∈ [(Instr.pdCmdSoftReset path p v, 0), (.pdCmdHardReset path p v, 1), (.pdCmdPrSwap path p v, 2),
      (.pdCmdVconnSwap path p v, 3), (.pdCmdSendCaps path p v, 4), (.pdCmdGetSinkCap path p v, 5),
      (.pdCmdEprExit path p v, 6)], exec x.1 s =
        .next (settled (pdCmd p (setBit v x.2) (written path (R.PD_CMD p) (setBit v x.2) s))) := by
  simp only [List.forall_mem_cons, List.not_mem_nil, false_implies, implies_true, and_true]
  exact ⟨fin_writeAt_PD_CMD h 0, fin_writeAt_PD_CMD h 1, fin_writeAt_PD_CMD h 2, fin_writeAt_PD_CMD h 3, fin_writeAt_PD_CMD h 4,
    fin_writeAt_PD_CMD h 5, fin_writeAt_PD_CMD h 6⟩

theorem pdCmd_single_bits (p : PortId) (s : State) : pdCmd p 0x01 s = pdCmdSoftReset p s ∧
    pdCmd p 0x02 s = pdCmdHardReset p s ∧ pdCmd p 0x04 s = pdCmdPrSwap p s ∧ pdCmd p 0x08 s = pdCmdVconnSwap p s ∧
    pdCmd p 0x10 s = pdCmdSendCaps p s ∧ pdCmd p 0x20 s = pdCmdGetSinkCap p s ∧ pdCmd p 0x40 s = pdCmdEprExit p s :=
  ⟨rfl, rfl, rfl, rfl, rfl, rfl, rfl⟩

/-! ### Resets (R165, R166) -/

theorem pdCmdSoftReset_ready (h : (s.port p).pd.st = .ready) (hu : s.pdUp p = true) :
    pdCmdSoftReset p s = pdSoftReset p s := by
  rw [pdCmdSoftReset, h]
  exact if_pos hu

theorem pdCmdHardReset_tandem (h : s.feed.tandem = true) : pdCmdHardReset p s = pdEvt p 13 s :=
  if_pos (by rw [h]; rfl)

/-- PU stays without a Hard Reset while it alone supplies the hub. -/
theorem pdCmdHardReset_puSole (hp : p = PU) (h : s.puSole = true) : pdCmdHardReset p s = pdEvt p 13 s :=
  if_pos (by simp [hp, h])

/-! ### An engine that is down refuses (R163, R199) -/

theorem State.pdFree_of_down (h : s.pdUp p = false) : s.pdFree p = false := by
  simp [State.pdFree, h]

theorem pdCmds_rejected_of_down (h : s.pdUp p = false) :
    pdCmdPrSwap p s = pdEvt p 13 s ∧ pdCmdVconnSwap p s = pdEvt p 13 s ∧
    pdCmdSendCaps p s = pdEvt p 13 s ∧ pdCmdGetSinkCap p s = pdEvt p 13 s ∧ pdCmdEprExit p s = pdEvt p 13 s := by
  have hf : s.pdFree p = false := State.pdFree_of_down h
  refine ⟨?_, ?_, ?_, ?_, ?_⟩
  · simp [pdCmdPrSwap, hf, pdCmdRej]
  · simp [pdCmdVconnSwap, hf, pdCmdRej]
  · simp [pdCmdSendCaps, h, pdCmdRej]
  · simp [pdCmdGetSinkCap, h, pdCmdRej]
  · simp [pdCmdEprExit, h, pdCmdRej]

/-! ### PR_Swap (R192) -/

theorem pdCmdPrSwap_source (hf : s.pdFree p = true) (hs : (s.port p).pd.source = true) : pdCmdPrSwap p s =
    pdStart p .prSwap (s.modPd p fun x => { x with swap := .sentPr }) :=
  if_pos (by rw [hf, hs]; rfl)

/-! ### The budget manager's timers (R184, R189) -/

theorem bmTick_up {vin : Nat} (h : s.coreUp = true) :
    bmTick vin s = bmRecompute (s.modBm fun b => { b with vinAvg := vin }) :=
  if_pos h

/-- The port has kept more than its share until RENEG_TO: the share becomes a hard limit. -/
theorem bmRenegTimeout_above_share {t : Nat} (ht : (s.port p).pd.target = some t) (hg : t < (s.port p).pd.grant)
    (hl : (s.port p).pd.bmLimited = false) : bmRenegTimeout p s = bmSettle (bmHardLimit p s) := by
  simp only [bmRenegTimeout, ht]
  exact if_pos (by rw [hl, decide_eq_true hg]; rfl)

/-- Settles O33: each clause is the equation of the operation the command runs. An exchange that a command starts waits for
SinkTx, where an answer does not (log 53), and hard limits change at the commands of the budget manager (log 55). -/
theorem pdCommandsAndBudgetAct : Obligations.PdCommandsAndBudgetAct := by
  unfold Obligations.PdCommandsAndBudgetAct
  intro s p
  refine ⟨?_, ?_, ?_, ?_, ?_, ?_, ?_, ?_, ?_, ?_⟩
  · exact fun path v h => pdCmd_rows h
  · exact pdCmd_single_bits p s
  · exact fun h hu => pdCmdSoftReset_ready h hu
  · exact fun h => pdCmdHardReset_tandem h
  · exact fun hp h => pdCmdHardReset_puSole hp h
  · exact fun h => pdCmds_rejected_of_down h
  · exact fun hf hs => pdCmdPrSwap_source hf hs
  · exact fun vin h => congrArg fin (bmTick_up h)
  · exact fun t ht hg hl => congrArg fin (bmRenegTimeout_above_share ht hg hl)
  · exact rfl

end Sys2Proof.Machine
end

section
/-! PROOFS. Checksums that check themselves (R201, R333, R335, R427). A CRC's register that holds the byte it takes in clears,
and a frame's header and payload read the same with the CRC behind them. -/

namespace Sys2Proof.Machine

/-! ### The PEC (R201, R427) -/

theorem crc8Bits_zero (k : Nat) : crc8Bits k 0 = 0 := by
  induction k with
  | zero => rfl
  | succ k ih => exact ih

theorem pec_append_pec (l : List Byte) : pec (l ++ [pec l]) = 0 :=
  calc pec (l ++ [pec l])
    _ = crc8Bits 8 (pec l ^^^ pec l) := by simp [pec]
    _ = crc8Bits 8 0 := congrArg (crc8Bits 8) BitVec.xor_self
    _ = 0 := crc8Bits_zero 8

/-! ### Numbers as bytes -/

@[simp] theorem length_leBytes (n v : Nat) : (leBytes n v).length = n := by
  induction n generalizing v with
  | zero => rfl
  | succ n ih => simp [leBytes, ih]

theorem leNat_leBytes (n v : Nat) : leNat (leBytes n v) = v % 256 ^ n := by
  induction n generalizing v with
  | zero => simp [leBytes, leNat, Nat.mod_one]
  | succ n ih => simp [leBytes, leNat, ih, Nat.pow_succ', Nat.mod_mul]

@[simp] theorem length_beBytes (n v : Nat) : (beBytes n v).length = n := by simp [beBytes]

theorem beNat_beBytes (n v : Nat) : beNat (beBytes n v) = v % 256 ^ n := by simp [beNat, beBytes, leNat_leBytes]

@[simp] theorem length_wordBytes (w : Word) : (wordBytes w).length = 4 := length_leBytes 4 _

theorem leNat_wordBytes (w : Word) : leNat (wordBytes w) = w.toNat :=
  (leNat_leBytes 4 _).trans (Nat.mod_eq_of_lt w.isLt)

/-! ### What a position of a frame reads -/

theorem slice_append_left {l : List Byte} (m : List Byte) {k n : Nat} (h : k + n ≤ l.length) :
    slice (l ++ m) k n = slice l k n := by
  rw [slice, slice, List.drop_append_of_le_length (by omega), List.take_append_of_le_length (by simp; omega)]

theorem frLen_append {l : List Byte} (m : List Byte) (h : 11 ≤ l.length) : frLen (l ++ m) = frLen l :=
  congrArg beNat (slice_append_left m h)

theorem frFlag_append {l : List Byte} (m : List Byte) (k : Nat) (h : 2 ≤ l.length) : frFlag (l ++ m) k = frFlag l k :=
  congrArg (fun b => (beNat b).testBit k) (slice_append_left m h)

/-- The number behind a list reads back. -/
theorem leAt_append_wordBytes (l : List Byte) (w : Word) : leAt (l ++ wordBytes w) l.length 4 = w.toNat := by
  rw [leAt, slice, List.drop_left, List.take_of_length_le (by simp), leNat_wordBytes]

theorem length_frPut {l : List Byte} {k n v : Nat} (h : k + n ≤ l.length) : (frPut l k n v).length = l.length := by
  simp only [frPut, List.length_append, List.length_take, List.length_drop, length_beBytes]
  omega

theorem beAt_frPut_self {l : List Byte} {k n v : Nat} (h : k ≤ l.length) : beAt (frPut l k n v) k n = v % 256 ^ n := by
  have hk : (l.take k).length = k := List.length_take_of_le h
  have hdrop : (frPut l k n v).drop k = beBytes n v ++ l.drop (k + n) := by
    rw [frPut, List.append_assoc, List.drop_left' hk]
  rw [beAt, slice, hdrop, List.take_left' (length_beBytes n v), beNat_beBytes]

theorem beAt_frPut_after {l : List Byte} {k n v j m : Nat} (h : k + n ≤ l.length) (hj : k + n ≤ j) :
    beAt (frPut l k n v) j m = beAt l j m := by
  have hput : (l.take k ++ beBytes n v).length = k + n := by
    rw [List.length_append, List.length_take_of_le (by omega), length_beBytes]
  have hdrop : (frPut l k n v).drop j = l.drop j := by
    rw [frPut, List.drop_append, List.drop_eq_nil_of_le (by omega), List.nil_append, List.drop_drop, hput,
      Nat.add_sub_cancel' hj]
  rw [beAt, slice, hdrop]
  rfl

/-! ### The receiver's checks (R335) -/

/-- A frame of the form R333 gives passes CODE and FORMAT, so its POISON flag and its CRC decide. -/
theorem rxCheck_append_wordBytes {l : List Byte} (c : Word) (hl : l.length = 18 + frLen l) (h64 : frLen l ≤ 64) :
    rxCheck true (l ++ wordBytes c) = if frFlag l 0 then .poison else if crc32 l = c then .good else .crc := by
  have hlen : (l ++ wordBytes c).length = l.length + 4 := by simp
  have hfr : frLen (l ++ wordBytes c) = frLen l := frLen_append _ (by omega)
  have hflag : frFlag (l ++ wordBytes c) 0 = frFlag l 0 := frFlag_append _ 0 (by omega)
  have hformat : ((l ++ wordBytes c).length < 22 || decide (64 < frLen (l ++ wordBytes c)) ||
      (l ++ wordBytes c).length != 22 + frLen (l ++ wordBytes c)) = false := by
    simp only [hlen, hfr, Bool.or_eq_false_iff, decide_eq_false_iff_not, bne_eq_false_iff_eq]
    omega
  rw [rxCheck, hformat, hflag, hlen, Nat.add_sub_cancel, List.take_left, leAt_append_wordBytes]
  simp only [Bool.not_true, Bool.false_eq_true, if_false, bne_iff_ne, ne_eq, ← BitVec.toNat_inj, ite_not]

/-- The frame that leaves with POISON: the flag set. -/
def poisonMarked (l : List Byte) : List Byte := frPut l 1 1 (frFlags l ||| 1)

theorem sealFrame_poison (l : List Byte) :
    sealFrame true l = poisonMarked l ++ wordBytes (crc32 (poisonMarked l) ^^^ 0xFFFFFFFF) := rfl

theorem length_poisonMarked {l : List Byte} (h : 2 ≤ l.length) : (poisonMarked l).length = l.length := length_frPut h

theorem frLen_poisonMarked {l : List Byte} (h : 2 ≤ l.length) : frLen (poisonMarked l) = frLen l :=
  beAt_frPut_after h (by omega)

theorem frFlag_poisonMarked {l : List Byte} (h : 1 ≤ l.length) : frFlag (poisonMarked l) 0 = true := by
  have hflags : frFlags (poisonMarked l) = (frFlags l ||| 1) % 2 ^ 8 := beAt_frPut_self h
  simp [frFlag, hflags]

theorem rxCheck_sealed {l : List Byte} (hl : l.length = 18 + frLen l) (h64 : frLen l ≤ 64) (hp : frFlag l 0 = false) :
    rxCheck true (sealFrame false l) = .good := by
  have hchecks := rxCheck_append_wordBytes (crc32 l) hl h64
  rwa [hp, if_neg Bool.false_ne_true, if_pos rfl] at hchecks

theorem rxCheck_sealed_poison {l : List Byte} (hl : l.length = 18 + frLen l) (h64 : frLen l ≤ 64) :
    rxCheck true (sealFrame true l) = .poison := by
  have hlen : (poisonMarked l).length = l.length := length_poisonMarked (by omega)
  have hfr : frLen (poisonMarked l) = frLen l := frLen_poisonMarked (by omega)
  have hflag : frFlag (poisonMarked l) 0 = true := frFlag_poisonMarked (by omega)
  rw [sealFrame_poison, rxCheck_append_wordBytes _ (by omega) (by omega), if_pos hflag]

/-- Settles O15: the PEC's register meets the byte it equals, and of a sealed frame the receiver finds the length, the flag and
the CRC that the sender wrote. -/
theorem checksumsCheckThemselves : Obligations.ChecksumsCheckThemselves := by
  unfold Obligations.ChecksumsCheckThemselves
  exact ⟨pec_append_pec, fun _ hl h64 hp => rxCheck_sealed hl h64 hp, fun _ hl h64 => rxCheck_sealed_poison hl h64⟩

end Sys2Proof.Machine
end

section
/-! PROOFS. The order of the PMBus queue (R209, R212): a transaction goes behind those of its own and of higher classes, the
queue's front goes onto a free bus, and an off command leaves nothing that it removes. -/

namespace Sys2Proof.Machine

variable {s : State} {t x : Txn} {l : List Txn}

/-! ### Insertion by class -/

/-- The queue is in the order of the classes. -/
abbrev ClassOrdered (l : List Txn) : Prop := l.Pairwise fun a b => a.cls ≤ b.cls

theorem pmbInsert_cons_behind (h : x.cls ≤ t.cls) : pmbInsert t (x :: l) = x :: pmbInsert t l := if_pos h

theorem pmbInsert_cons_before (h : ¬x.cls ≤ t.cls) : pmbInsert t (x :: l) = t :: x :: l := if_neg h

@[simp] theorem mem_pmbInsert {y : Txn} : y ∈ pmbInsert t l ↔ y = t ∨ y ∈ l := by
  induction l with
  | nil => simp [pmbInsert]
  | cons x l ih =>
    by_cases h : x.cls ≤ t.cls
    · simp [pmbInsert_cons_behind h, ih, or_left_comm]
    · simp [pmbInsert_cons_before h]

/-- A transaction that goes before the front of an ordered queue is of a higher class than all of it. -/
theorem ClassOrdered.lt_of_before (ho : ClassOrdered (x :: l)) (h : ¬x.cls ≤ t.cls) : ∀ y ∈ x :: l, t.cls < y.cls := by
  have hx : t.cls < x.cls := not_le.1 h
  intro y hy
  obtain rfl | hy := List.mem_cons.1 hy
  · exact hx
  · exact hx.trans_le (List.rel_of_pairwise_cons ho hy)

theorem classOrdered_pmbInsert (t : Txn) (ho : ClassOrdered l) : ClassOrdered (pmbInsert t l) := by
  induction l with
  | nil => exact List.pairwise_singleton _ _
  | cons x l ih =>
    obtain ⟨hx, hl⟩ := List.pairwise_cons.1 ho
    by_cases h : x.cls ≤ t.cls
    · rw [pmbInsert_cons_behind h, ClassOrdered, List.pairwise_cons]
      refine ⟨fun y hy => ?_, ih hl⟩
      obtain rfl | hy := mem_pmbInsert.1 hy
      · exact h
      · exact hx y hy
    · rw [pmbInsert_cons_before h]
      exact List.pairwise_cons.2 ⟨fun y hy => (ho.lt_of_before h y hy).le, ho⟩

/-- Within its class the inserted transaction is the last. -/
theorem filter_pmbInsert (t : Txn) (k : Fin 7) (ho : ClassOrdered l) :
    (pmbInsert t l).filter (fun x => x.cls = k) =
      l.filter (fun x => x.cls = k) ++ (if t.cls = k then [t] else []) := by
  induction l with
  | nil => by_cases hk : t.cls = k <;> simp [pmbInsert, hk]
  | cons x l ih =>
    by_cases h : x.cls ≤ t.cls
    · rw [pmbInsert_cons_behind h, List.filter_cons, List.filter_cons, ih ho.tail]
      split <;> rfl
    · rw [pmbInsert_cons_before h, List.filter_cons]
      by_cases hk : t.cls = k
      · have hnone : (x :: l).filter (fun x => x.cls = k) = [] :=
          List.filter_eq_nil_iff.2 fun y hy => by simpa [hk] using (ho.lt_of_before h y hy).ne'
        simp [hk, hnone]
      · simp [hk]

/-! ### The front goes onto the bus -/

theorem pmbPump_front (hw : s.pmb.wire = none) (hq : s.pmb.queue = t :: l) (hs : s.pmb.stuck = false) :
    pmbPump s = s.modPmb fun p => { p with wire := some t, queue := l } := by
  simp [pmbPump, hw, hq, hs]

theorem mem_of_mem_pmbPump (h : x ∈ (pmbPump s).pmb.queue) : x ∈ s.pmb.queue := by
  unfold pmbPump at h
  split at h
  next t l hw hq =>
    rw [hq]
    split at h
    · rwa [hq] at h
    · exact List.mem_cons_of_mem _ h
  next => exact h

theorem mem_of_mem_pmbIssue (h : x ∈ (pmbIssue t s).pmb.queue) : x = t ∨ x ∈ s.pmb.queue :=
  mem_pmbInsert.1 (mem_of_mem_pmbPump h)

/-! ### What an off command removes -/

theorem mem_pmbCut {i : Nat} :
    x ∈ (pmbCut i s).pmb.queue ↔ x ∈ s.pmb.queue ∧ ¬(x.tgt = i ∧ x.removable = true) := by
  have hqueue : (pmbCut i s).pmb.queue = s.pmb.queue.filter fun t => !(t.tgt == i && t.removable) := by
    unfold pmbCut
    dsimp only
    split <;> rfl
  rw [hqueue, List.mem_filter, Bool.not_eq_true', ← Bool.not_eq_true, Bool.and_eq_true, beq_iff_eq]

/-- An off command does not wait for the others of its target. -/
theorem pmbOff_eq (c : Fin 7) (i : Nat) (why : PmbWhy) (s : State) :
    pmbOff c i why s = pmbIssue { cls := c, tgt := i, cmd := .opOff, why := why }
      ((pmbCut i s).modTarget i fun t => { t with confirmed := 0 }) := rfl

theorem mem_pmbOff {c : Fin 7} {i : Nat} {why : PmbWhy} (h : x ∈ (pmbOff c i why s).pmb.queue) (hi : x.tgt = i) :
    x.cmd = .opOff ∨ x.removable = false := by
  rw [pmbOff_eq] at h
  obtain rfl | hcut := mem_of_mem_pmbIssue h
  · exact .inl rfl
  · obtain ⟨-, hkept⟩ := mem_pmbCut.1 hcut
    exact .inr (Bool.eq_false_iff.2 fun hr => hkept ⟨hi, hr⟩)

/-- Settles O36: each clause is the lemma on the queue's operation. That only what waits in the queue is ordered, each
transaction being queued when the one before it has ended, is the model's choice (log 44). -/
theorem pmbusQueueKeepsClassOrder : Obligations.PmbusQueueKeepsClassOrder := by
  unfold Obligations.PmbusQueueKeepsClassOrder
  refine ⟨?_, ?_, ?_, ?_, ?_⟩
  · exact fun t _ ho => classOrdered_pmbInsert t ho
  · exact fun t _ k ho => filter_pmbInsert t k ho
  · intro s t l hw hq hs
    rw [pmbPump_front hw hq hs]
    exact ⟨rfl, rfl⟩
  · exact fun _ _ _ => mem_pmbCut
  · exact fun _ _ _ _ _ h hi => mem_pmbOff h hi

end Sys2Proof.Machine
end

section
/-! PROOFS. Ends of PMBus transactions, time limits, alerts and the stuck bus (R200, R203 to R205, R207, R211, R213, R214): what
each operation comes to in the states the commands find. -/

namespace Sys2Proof.Machine

variable {s : State} {t : Txn} {d : BitVec 16}

/-! ### The end of a transaction (R200, R204) -/

/-- What follows when a transaction of a command of the hub ends, the wire being free again. -/
def pmbCommandEnd (t : Txn) (ack : PmbAck) (d : BitVec 16) (s : State) : State :=
  if t.cut then pmbNext t.tgt s
  else if t.phase = .clear then pmbIssue { t with phase := .send } s
  else match ack with
    | .noAck => pmbMiss t .noAck s
    | .badPec => pmbMiss t .pec s
    | .stretched => pmbMiss t .timeout s
    | .ok =>
      if t.phase = .confirm || t.cmd.isRead then pmbJudge t d s
      else pmbIssue { t with phase := .confirm, since := s.tb3, late := false } s

theorem pmbEnd_command (ack : PmbAck) (d : BitVec 16) (hw : s.pmb.wire = some t)
    (hs : ∀ c r l x, t.cmd ≠ .soft c r l x) : pmbEnd ack d s = pmbCommandEnd t ack d (pmbFree s) := by
  -- `hs` rules the arm of a software transaction out
  simp only [pmbEnd, hw]
  rfl

/-- The command was acknowledged: its confirming read follows. -/
theorem pmbCommandEnd_sent (hc : t.cut = false) (hp : t.phase = .send) (hr : t.cmd.isRead = false) :
    pmbCommandEnd t .ok d s = pmbIssue { t with phase := .confirm, since := s.tb3, late := false } s := by
  simp [pmbCommandEnd, hc, hp, hr]

theorem pmbCommandEnd_confirmed (hc : t.cut = false) (hp : t.phase = .confirm) :
    pmbCommandEnd t .ok d s = pmbJudge t d s := by
  simp [pmbCommandEnd, hc, hp]

theorem pmbCommandEnd_noAck (hc : t.cut = false) (hp : t.phase = .send) :
    pmbCommandEnd t .noAck d s = pmbRepeat t .noAck (s.bump F.PMB_ERRCNT_NAK) := by
  simp [pmbCommandEnd, hc, hp, pmbMiss]

theorem pmbCommandEnd_stretched (hc : t.cut = false) (hp : t.phase = .send) :
    pmbCommandEnd t .stretched d s = pmbRepeat t .timeout (s.bump F.PMB_ERRCNT_NAK) := by
  simp [pmbCommandEnd, hc, hp, pmbMiss]

theorem pmbRepeat_again {c : TgtCause} (h : t.attempts < 3) : pmbRepeat t c s = pmbPump (s.modPmb fun p =>
    { p with delayed := p.delayed ++ [{ t with attempts := t.attempts + 1, phase := .send, late := false }] }) :=
  if_neg (by omega)

theorem pmbRepeat_exhausted {c : TgtCause} (h : 3 ≤ t.attempts) : pmbRepeat t c s = pmbFail t c s := if_pos h

/-! ### Repeats, re-reads and their time limits (R204, R205) -/

theorem pmbDue_found {sel : Txn → Bool} (h : s.pmb.delayed.find? sel = some t) :
    pmbDue sel s = pmbIssue t (s.modPmb fun p => { p with delayed := p.delayed.erase t }) := by
  simp only [pmbDue, h]

/-- The command acknowledged first waits for its next read, so the limit fails it at once. -/
theorem pmbExpire_waiting {sel : Txn → Bool} {c : TgtCause}
    (h : pmbOldest ((s.pmb.delayed ++ s.pmb.queue ++ s.pmb.wire.toList).filter fun t => sel t && !t.late) = some t)
    (hd : s.pmb.delayed.contains t = true) :
    pmbExpire sel c s = pmbFail t c (s.modPmb fun p => { p with delayed := p.delayed.erase t }) := by
  simp only [pmbExpire, h]
  exact if_pos hd

/-! ### Registers of the host's requests (R207, R214) -/

theorem write_PMB_SW_CTRL_go {path : Path} {v : Word} (h : s.reaches path R.PMB_SW_CTRL = true) :
    writeAt path R.PMB_SW_CTRL (setBit v 20) s = pmbSwGo (written path R.PMB_SW_CTRL (setBit v 20) s) :=
  (write_PMB_SW_CTRL h).trans (if_pos (bitOf_setBit_self v (by decide)))

/-! ### Alerts (R211) -/

theorem pmbAlert_calm {a : BitVec 7} {ok : Bool} {ack : PmbAck} {st : BitVec 16} (ha : s.alertOn = true)
    (hs : s.pmb.storms = []) :
    pmbAlert a ok ack st s = alertServe a ok ack st (s.modPmb fun p => { p with alertLow := true }) := by
  simp [pmbAlert, ha, hs]

/-- A line that is high again, or low without a storm, is only noted. -/
theorem pmbAlertAgain_noted {low : Bool} (h : low = false ∨ s.pmb.storms = []) :
    pmbAlertAgain low s = s.modPmb fun p => { p with alertLow := low } := by
  obtain rfl | hs := h
  · rfl
  · simp [pmbAlertAgain, hs]

/-! ### The stuck bus (R213) -/

theorem pmbBusHeld_first (hs : s.pmb.stuck = false) (hr : s.pmb.recovering = false) :
    pmbBusHeld s = s.modPmb fun p => { p with recovering := true } := by
  simp [pmbBusHeld, hs, hr]

theorem pmbBusHeld_again (hs : s.pmb.stuck = false) (hr : s.pmb.recovering = true) : pmbBusHeld s =
    raiseAt .pmbStuck none (forEach allPorts ppOff (pmbEvt 5 0 (s.modPmb fun p => { p with stuck := true }))) := by
  simp [pmbBusHeld, hs, hr]

/-- Settles O34: each clause is the equation of the operation the command runs. A transaction of a command is queued when the
one before it has ended (log 44); that the bus is free again is told by PMB_STUCK_CLEAR (log 45). -/
theorem pmbusTransactionsEndAsTheRulesSay : Obligations.PmbusTransactionsEndAsTheRulesSay := by
  unfold Obligations.PmbusTransactionsEndAsTheRulesSay
  intro s
  refine ⟨?_, ?_, ?_, ?_, ?_, ?_, ?_, ?_, ?_, ?_, ?_, ?_, ?_, ?_, ?_, ?_, ?_⟩
  · exact fun t d hw hs hc hp hr => congrArg fin ((pmbEnd_command .ok d hw hs).trans (pmbCommandEnd_sent hc hp hr))
  · exact fun t d hw hs hc hp => congrArg fin ((pmbEnd_command .ok d hw hs).trans (pmbCommandEnd_confirmed hc hp))
  · exact fun t d hw hs hc hp ha => congrArg fin
      ((pmbEnd_command .noAck d hw hs).trans ((pmbCommandEnd_noAck hc hp).trans (pmbRepeat_again ha)))
  · exact fun t hw hs hc hp ha => congrArg fin
      ((pmbEnd_command .stretched 0 hw hs).trans ((pmbCommandEnd_stretched hc hp).trans (pmbRepeat_exhausted ha)))
  · exact fun t h => congrArg fin (pmbDue_found h)
  · exact fun t h => congrArg fin (pmbDue_found h)
  · exact fun t h hd => congrArg fin (pmbExpire_waiting h hd)
  · exact fun t h hd => congrArg fin (pmbExpire_waiting h hd)
  · exact fun path v h => congrArg fin (write_PMB_VERIFY h)
  · exact fun path v h => congrArg fin (write_PMB_SW_CTRL_go h)
  · exact fun a ok ack st ha hs => congrArg fin (pmbAlert_calm ha hs)
  · exact fun low h => congrArg fin (pmbAlertAgain_noted h)
  · exact fun a h => congrArg fin (if_pos h)
  · exact fun hs hr => congrArg fin (pmbBusHeld_first hs hr)
  · exact fun hs hr => congrArg fin (pmbBusHeld_again hs hr)
  · exact rfl
  · exact rfl

end Sys2Proof.Machine
end

section
/-! PROOFS. What marks a PMBus target faulty (R204, R205): its event and the fault it raises leave the targets, so they show the
state and the cause that were written. -/

namespace Sys2Proof.Machine

variable {s : State}

/-! ### What an event and a fault leave -/

theorem EventOnly.pmb {u v : State} (h : EventOnly u v) : v.pmb = u.pmb := by
  obtain ⟨_, _, _, _, _, _, _, _, _, rfl⟩ := h
  rfl

theorem EventOnly.flt {u v : State} (h : EventOnly u v) : v.flt = u.flt := by
  obtain ⟨_, _, _, _, _, _, _, _, _, rfl⟩ := h
  rfl

theorem pmbEvt_eventOnly (k : Nat) (w : Word) (s : State) : EventOnly s (pmbEvt k w s) :=
  (setReg_queueOnly _ _).eventOnly.trans (pushEntry_eventOnly _)

theorem State.target?_modTarget_self (s : State) (i : Nat) (f : Target → Target) :
    (s.modTarget i f).target? i = (s.target? i).map f := by
  simp [State.target?, State.modTarget]

/-! ### A target marked faulty (R205) -/

/-- A port converter that misses its acknowledgement while no feed is ACTIVE lacks its supply. -/
def lacksFeed (t : Target) (c : TgtCause) (s : State) : Bool := t.port?.isSome && c.missing && !s.feedActive

/-- The cause and the event of a target marked faulty, before the fault it raises. -/
def markedFaulty (i : Nat) (c : TgtCause) (s : State) : State :=
  pmbEvt 0 (atBits 28 4 c.code ||| atBits 0 5 i)
    (s.modTarget i fun t => { t with st := .faulty, cause := c, confirmed := 0 })

theorem markedFaulty_flt (i : Nat) (c : TgtCause) (s : State) : (markedFaulty i c s).flt = s.flt :=
  (pmbEvt_eventOnly _ _ _).flt

theorem target?_markedFaulty {i : Nat} {t : Target} (c : TgtCause) (h : s.target? i = some t) :
    (markedFaulty i c s).target? i = some { t with st := .faulty, cause := c, confirmed := 0 } := by
  have hpmb : (markedFaulty i c s).target? i =
      (s.modTarget i fun t => { t with st := .faulty, cause := c, confirmed := 0 }).target? i :=
    congrArg (·.targets[i]?) (pmbEvt_eventOnly _ _ _).pmb
  rw [hpmb, State.target?_modTarget_self, h]
  rfl

theorem pmbMark_eq (i : Nat) (t : Target) (c : TgtCause) (s : State) : pmbMark i t c s =
    let u := markedFaulty i (if lacksFeed t c s then .noFeed else c) s
    if t.role.toNat = 0x20 then raiseAt .vddc none u
    else if lacksFeed t c s then u else raiseAt .pmbFaulty t.port? u := rfl

/-- The fault that is raised leaves the targets. -/
theorem target?_pmbMark (i : Nat) (t : Target) (c : TgtCause) (s : State) :
    (pmbMark i t c s).target? i = (markedFaulty i (if lacksFeed t c s then .noFeed else c) s).target? i := by
  rw [pmbMark_eq]
  dsimp only
  split
  · rfl
  · split <;> rfl

theorem Target.role_lt_of_port? {t : Target} {p : PortId} (h : t.port? = some p) : t.role.toNat < 16 := by
  by_contra hn
  simp [Target.port?, hn] at h

/-- A converter without its supply raises no fault. -/
theorem pmbMark_lacksFeed {t : Target} {c : TgtCause} {p : PortId} (i : Nat) (hp : t.port? = some p)
    (hl : lacksFeed t c s = true) : pmbMark i t c s = markedFaulty i .noFeed s := by
  have hrole : t.role.toNat ≠ 0x20 := by have := Target.role_lt_of_port? hp; omega
  simp [pmbMark_eq, hrole, hl]

/-! ### Fault bits of STATUS_WORD (R204) -/

/-- The confirming read of an off command is judged by its fault bits before anything else. -/
theorem pmbJudge_off_faults {t : Txn} {d : BitVec 16} {x : Target} (hx : s.target? t.tgt = some x) (hc : t.cmd = .opOff)
    (hd : statusFaults d ≠ 0) : pmbJudge t d s = pmbFail t .status (s.modTarget t.tgt fun y => { y with status := d }) := by
  simp only [pmbJudge, hx, hc]
  rw [if_neg (by simp), if_pos hd]

/-- Settles O35: a target is marked with its cause, or with NO_FEED where it lacks its supply, and the faults it raises leave
the targets. That an off command is judged at its confirming read, queued when the command was acknowledged, is the model's
choice (log 44). -/
theorem pmbusTargetsFailWithTheirCause : Obligations.PmbusTargetsFailWithTheirCause := by
  unfold Obligations.PmbusTargetsFailWithTheirCause
  intro s i t ht
  refine ⟨fun c h => ?_, fun c p hp hm hf => ?_, fun x d hi hc _ hd => ?_⟩
  · have hl : lacksFeed t c s = false := by
      obtain h | h | h := h
      · simp [lacksFeed, Option.isNone_iff_eq_none.1 h]
      · simp [lacksFeed, h]
      · simp [lacksFeed, h]
    rw [target?_pmbMark, hl, if_neg Bool.false_ne_true, target?_markedFaulty c ht]
    rfl
  · have hl : lacksFeed t c s = true := by simp [lacksFeed, hp, hm, hf]
    rw [pmbMark_lacksFeed i hp hl, target?_markedFaulty .noFeed ht]
    exact ⟨rfl, markedFaulty_flt i .noFeed s⟩
  · subst hi
    exact pmbJudge_off_faults ht hc hd

end Sys2Proof.Machine
end

section
/-! PROOFS. Device and hub class requests (R215 to R220, R224, R237, R243, R247). A request that the hub takes acts on the hub
out of IDLE, which is the same hub with the same ports and registers; each operation then comes to the one branch that the
request and the configured state select. -/

namespace Sys2Proof.Machine

variable {s : State}

/-! ### The hub as a request finds it (R381) -/

theorem leaveIdle_configured : (leaveIdle s).configured = s.configured := congrArg (·.st == .configured) leaveIdle_hub

theorem leaveIdle_feed : (leaveIdle s).feed = s.feed := by
  unfold leaveIdle
  split <;> rfl

theorem leaveIdle_uport (n : Nat) : (leaveIdle s).uport n = s.uport n := by
  unfold leaveIdle
  split <;> rfl

theorem leaveIdle_rdB (f : Fld) : (leaveIdle s).rdB f = s.rdB f := by
  simp only [State.rdB, State.rd, State.reg, leaveIdle_regs]

theorem usbReq_up (hu : s.usbUp = true) (f : State → State) : usbReq f s = f (leaveIdle s) := if_pos hu

theorem cfgReq_configured (hu : s.usbUp = true) (hc : s.configured = true) (f : State → State) :
    cfgReq f s = f (leaveIdle s) :=
  (usbReq_up hu _).trans (if_pos (leaveIdle_configured.trans hc))

/-! ### Standard requests (R215 to R219, R237, R243, R247) -/

theorem getDescriptor_some {ty k : Nat} {l : List Byte} (hu : s.usbUp = true) (hd : hubDescriptor ty k (leaveIdle s) = some l)
    (len : Nat) : getDescriptor ty k len s = reply l len (leaveIdle s) := by
  rw [getDescriptor, usbReq_up hu, hd]

theorem getDescriptor_none {ty k : Nat} (hu : s.usbUp = true) (hd : hubDescriptor ty k (leaveIdle s) = none) (len : Nat) :
    getDescriptor ty k len s = answer .stall (leaveIdle s) := by
  rw [getDescriptor, usbReq_up hu, hd]

theorem setAddress_unconfigured (hu : s.usbUp = true) (hc : s.hub.st ≠ .configured) (a : BitVec 7) : setAddress a s =
    (leaveIdle s).modHub fun h => { h with addr := a, st := if a = 0 then .default_ else .addressed, answer := .ack } := by
  have hst : ((leaveIdle s).hub.st == .configured) = false := by simp [leaveIdle_hub, hc]
  simp only [setAddress, usbReq_up hu, answer, State.modHub, hst, Bool.false_eq_true, if_false]

/-- Moving the powered ports to Disconnected leaves the hub configured. -/
theorem setConfiguration_one (hu : s.usbUp = true) (ha : s.hub.st = .addressed) : ∃ u : State,
    setConfiguration 1 s = answer .ack (hubEvt 2 (ttRunAll (p17Connect u))) ∧ u.hub.st = .configured := by
  have hst : (leaveIdle s).hub.st = .addressed := by rw [leaveIdle_hub, ha]
  refine ⟨forEach downPorts (fun p s => if s.portPower p then s.modU p fun u => { u with ust := .disconnected } else s)
      ((leaveIdle s).modHub fun h => { h with st := .configured }), ?_, ?_⟩
  · simp [setConfiguration, usbReq_up hu, State.configured, hst]
  · refine forEach_keeps (fun t => t.hub.st) (fun p t => ?_) _ _
    split <;> rfl

theorem setConfiguration_unknown {cfg : Nat} (hu : s.usbUp = true) (hcfg : 1 < cfg) :
    setConfiguration cfg s = answer .stall (leaveIdle s) :=
  (usbReq_up hu _).trans (if_pos (by simp [hcfg]))

theorem setConfiguration_zero (hu : s.usbUp = true) (hc : s.hub.st = .configured) : setConfiguration 0 s =
    answer .ack (hubEvt 3 (hubUnconfigure ((leaveIdle s).modHub fun h => { h with st := .addressed }))) := by
  have hst : (leaveIdle s).hub.st = .configured := by rw [leaveIdle_hub, hc]
  simp [setConfiguration, usbReq_up hu, State.configured, hst]

theorem setInterface_one_high (hu : s.usbUp = true) (hc : s.configured = true) (hs : s.hub.speed = .high) :
    setInterface 1 s = answer .ack (ttResetAll ((leaveIdle s).modHub fun h => { h with alt := true })) :=
  (cfgReq_configured hu hc _).trans (if_pos (by simp [leaveIdle_hub, hs]))

theorem setInterface_one_full (hu : s.usbUp = true) (hc : s.configured = true) (hs : s.hub.speed ≠ .high) :
    setInterface 1 s = answer .stall (leaveIdle s) :=
  (cfgReq_configured hu hc _).trans (if_neg (by simp [leaveIdle_hub, hs]))

theorem getStatus_up (hu : s.usbUp = true) : getStatus s = reply
    (leBytes 2 (b2n (s.feed.fa.st == .active || s.feed.fb.st == .active) + 2 * b2n s.hub.rwakeEn)) 2 (leaveIdle s) := by
  rw [getStatus, usbReq_up hu, leaveIdle_feed, leaveIdle_hub]

/-! ### Hub class requests (R220, R224) -/

theorem getHubStatus_configured (hu : s.usbUp = true) (hc : s.configured = true) : getHubStatus s = reply
    (leBytes 2 (b2n (leaveIdle s).localLost) ++ leBytes 2 (b2n s.hub.cLocal)) 4 (leaveIdle s) := by
  rw [getHubStatus, cfgReq_configured hu hc, leaveIdle_hub]

theorem validPort_iff {n : Nat} : validPort n = true ↔ 1 ≤ n ∧ n ≤ 17 := decide_eq_true_iff

theorem getPortStatus_valid {n : Nat} (hu : s.usbUp = true) (hc : s.configured = true) (hn : 1 ≤ n ∧ n ≤ 17) :
    getPortStatus n s =
      reply (leBytes 2 ((leaveIdle s).pstat n) ++ leBytes 2 (s.uport n).chg.word) 4 (leaveIdle s) := by
  rw [getPortStatus, cfgReq_configured hu hc, if_pos (validPort_iff.2 hn), leaveIdle_uport]

theorem getPortStatus_invalid {n : Nat} (hu : s.usbUp = true) (hc : s.configured = true) (hn : ¬(1 ≤ n ∧ n ≤ 17)) :
    getPortStatus n s = answer .stall (leaveIdle s) := by
  rw [getPortStatus, cfgReq_configured hu hc, if_neg (validPort_iff.not.2 hn)]

theorem classStall_up (hu : s.usbUp = true) : classStall s = answer .stall (leaveIdle s) := usbReq_up hu _

/-! ### L1 of the upstream bus refused (R238) -/

theorem lpmToken_disabled (hu : s.usbUp = true) (he : s.rdB F.HUB_CFG_U_L1_EN = false) (link : Nat) (rwe : Bool) :
    lpmToken link rwe s = answer .stall (leaveIdle s) :=
  (usbReq_up hu _).trans (if_pos (by simp [leaveIdle_rdB, he]))

/-- Settles O37: each clause is the lemma that says what its request does to the hub out of IDLE. The layouts of the
descriptors, of the feature selectors, of the port status words and of the LPM token are those of USB 2.0 (log 23); the hub's
other choices of the model are those of log 57. -/
theorem hubRequestsAreAnswered : Obligations.HubRequestsAreAnswered := by
  unfold Obligations.HubRequestsAreAnswered
  intro s hu
  refine ⟨?_, ?_, ?_, ?_, ?_, ?_, ?_, ?_, ?_, ?_, ?_, ?_, ?_, ?_, ?_, ?_, ?_⟩
  · exact fun ty k len l hd => congrArg fin (getDescriptor_some hu hd len)
  · exact fun ty k len hd => congrArg fin (getDescriptor_none hu hd len)
  · exact fun a hc => congrArg fin (setAddress_unconfigured hu hc a)
  · intro ha
    obtain ⟨u, hset, hst⟩ := setConfiguration_one hu ha
    exact ⟨u, congrArg fin hset, hst⟩
  · exact fun _ => congrArg fin (setConfiguration_unknown hu (by decide))
  · exact fun hc => congrArg fin (setConfiguration_zero hu hc)
  · exact fun hc hs => congrArg fin (setInterface_one_high hu hc hs)
  · exact fun hc hs => congrArg fin (setInterface_one_full hu hc hs)
  · exact congrArg fin (getStatus_up hu)
  · exact fun on => congrArg fin (usbReq_up hu _)
  · exact fun hc => congrArg fin (getHubStatus_configured hu hc)
  · exact fun n hc h1 h17 => congrArg fin (getPortStatus_valid hu hc ⟨h1, h17⟩)
  · exact fun n hc hn => congrArg fin (getPortStatus_invalid hu hc (by omega))
  · exact fun on hc => congrArg fin (cfgReq_configured hu hc _)
  · exact fun r => congrArg fin (classStall_up hu)
  · exact fun n f => congrArg fin (classStall_up hu)
  · exact fun link rwe he => congrArg fin (lpmToken_disabled hu he _ rwe)

end Sys2Proof.Machine
end

section
/-! PROOFS. Requests to a port and what ends them (R220 to R223, R229 to R232, R235, R240, R241, R245). The hub acknowledges a
request to a port of 1 to 17 with every port as it was; the port's state and the request then select one branch of the
operation. -/

namespace Sys2Proof.Machine

variable {s : State} {n : Nat} {p : PortId}

/-! ### A request to a port of the hub (R220) -/

/-- The hub is configured and takes requests, and `n` is one of its ports. -/
structure TakesPortReq (s : State) (n : Nat) : Prop where
  up : s.usbUp = true
  configured : s.configured = true
  port : 1 ≤ n ∧ n ≤ 17

/-- The hub as the handler of a port request finds it: the request acknowledged. -/
theorem TakesPortReq.portReq_eq (h : TakesPortReq s n) (f : State → State) :
    portReq n f s = f (answer .ack (leaveIdle s)) :=
  (cfgReq_configured h.up h.configured _).trans (if_pos (validPort_iff.2 h.port))

theorem uport_acked (m : Nat) (a : UsbAnswer) : (answer a (leaveIdle s)).uport m = s.uport m := leaveIdle_uport m

theorem testMode_acked (a : UsbAnswer) : (answer a (leaveIdle s)).hub.testMode = s.hub.testMode :=
  congrArg (·.testMode) (leaveIdle_hub (s := s))

theorem ne_17_of_portOf (hp : portOf n = some p) : n ≠ 17 := by
  rintro rfl
  simp [portOf] at hp

theorem mem_hubPorts_iff {m : Nat} : m ∈ hubPorts ↔ 1 ≤ m ∧ m ≤ 17 := by
  simp only [hubPorts, List.mem_map, List.mem_range]
  constructor
  · rintro ⟨k, hk, rfl⟩
    omega
  · exact fun h => ⟨m - 1, by omega, by omega⟩

/-! ### Reset, suspend and resume (R229, R230, R232) -/

theorem portReset_enabled (h : TakesPortReq s n) (hn : n ≠ 17) (he : (s.uport n).ust = .enabled)
    (hc : (s.uport n).conn = true) : portReset n s =
      modUport n (fun u => { u.awake with ust := .resetting, resumeL1 := false }) (answer .ack (leaveIdle s)) := by
  simp only [portReset, h.portReq_eq, uport_acked, he, hc, if_true, if_neg hn]

theorem portSuspend_enabled (h : TakesPortReq s n) (he : (s.uport n).ust = .enabled) : portSuspend n s =
    uEvt n 4 (modUport n (fun u => { u with ust := .suspended, suspSel := true }) (answer .ack (leaveIdle s))) := by
  simp only [portSuspend, h.portReq_eq, uport_acked, he]

theorem portResume_suspended (h : TakesPortReq s n) (hs : (s.uport n).ust = .suspended) : portResume n s =
    modUport n (fun u => { u with ust := .resuming }) (answer .ack (leaveIdle s)) :=
  (h.portReq_eq _).trans (if_pos (by simp [uport_acked, hs]))

/-- The speed found is the device's, for a hub at high speed does not limit it. -/
theorem portResetDone_resetting {sp : UsbSpeed} (hu : s.usbUp = true) (hn : 1 ≤ n ∧ n ≤ 17) (hp : portOf n = some p)
    (hr : (s.uport n).ust = .resetting) (hsp : sp ≠ .none) (hs : s.hub.speed = .high) : portResetDone n sp s =
      hpEvt p 2 ((ttReset p false (s.modU p fun u =>
        { u with ust := .enabled, speed := sp, chg := { u.chg with reset := true } })).bump (F.HP_ERR_RESETS p)) := by
  rw [portResetDone, if_neg (by simp [validPort_iff.2 hn, hr, hu])]
  simp [hp, ne_17_of_portOf hp, hs, hsp]

theorem portResumeDone_resuming (hu : s.usbUp = true) (hn : 1 ≤ n ∧ n ≤ 17) (hr : (s.uport n).ust = .resuming) :
    portResumeDone n s = uEvt n (if (s.uport n).resumeL1 then 8 else 5) (modUport n (fun u =>
      { u with ust := if u.suspPend then .suspended else .enabled, suspSel := u.suspPend, suspPend := false,
               resumeL1 := false,
               chg := if u.resumeL1 then { u.chg with l1 := true } else { u.chg with suspend := true } }) s) :=
  if_neg (by simp [validPort_iff.2 hn, hr, hu])

/-! ### PORT_POWER (R222, R223) -/

theorem portPowerFeature_on (h : TakesPortReq s n) (hp : portOf n = some p)
    (hc : (answer .ack (leaveIdle s)).coupled = true) : portPowerFeature true n s =
      ppKick p ((answer .ack (leaveIdle s)).modU p fun u =>
        { u with power := true, ust := if u.ust == .poweredOff then .disconnected else u.ust }) := by
  simp only [portPowerFeature, h.portReq_eq, hp, hc, Bool.not_true, Bool.false_eq_true, if_false, if_true]

theorem portPowerFeature_off (h : TakesPortReq s n) (hp : portOf n = some p)
    (hc : (answer .ack (leaveIdle s)).coupled = true) : portPowerFeature false n s =
      ocTrack p (ppOff p ((uDisconnect p ((answer .ack (leaveIdle s)).modU p fun u => { u with power := false })).modU p
        fun u => { u with ust := .poweredOff })) := by
  simp only [portPowerFeature, h.portReq_eq, hp, hc, Bool.not_true, Bool.false_eq_true, if_false]

theorem portPowerFeature_uncoupled (h : TakesPortReq s n) (hp : portOf n = some p)
    (hc : (answer .ack (leaveIdle s)).coupled = false) (on : Bool) :
    portPowerFeature on n s = answer .ack (leaveIdle s) := by
  simp only [portPowerFeature, h.portReq_eq, hp, hc, Bool.not_false, if_true]

/-! ### Disable and test (R220, R229, R231) -/

theorem portEnableClear_enabled (h : TakesPortReq s n) (he : (s.uport n).ust = .enabled) :
    portEnableClear n s = uDisable n (answer .ack (leaveIdle s)) :=
  (h.portReq_eq _).trans (if_pos (by simp [uport_acked, he]))

theorem portTest_refused {sel : Nat} (h : TakesPortReq s n)
    (hr : n = 17 ∨ sel = 0 ∨ 5 < sel ∨ s.hub.testMode = true) :
    portTest n sel s = answer .stall (answer .ack (leaveIdle s)) := by
  refine (h.portReq_eq _).trans (if_pos ?_)
  simp only [testMode_acked, Bool.or_eq_true, decide_eq_true_eq, Bool.not_eq_true', decide_eq_false_iff_not]
  obtain hr | hr | hr | hr := hr
  · simp [hr]
  · simp [hr]
  · have : ¬(1 ≤ sel ∧ sel ≤ 5) := by omega
    simp [this]
  · simp [hr]

theorem portTest_disabled {sel : Nat} (h : TakesPortReq s n) (hn : n ≠ 17) (hsel : 1 ≤ sel ∧ sel ≤ 5)
    (ht : s.hub.testMode = false) (hd : (s.uport n).ust = .disabled)
    (ho : ∀ m, 1 ≤ m → m ≤ 17 → m ≠ n → m ≠ 17 → (s.uport m).ust = .disconnected) : portTest n sel s =
      modUport n (fun u => { u with ust := .testing })
        ((answer .ack (leaveIdle s)).modHub fun h => { h with testMode := true }) := by
  refine (h.portReq_eq _).trans (if_neg ?_)
  simp only [uport_acked, testMode_acked, hd, ht, hn, hsel, and_self, decide_false, decide_true, Bool.not_true, Bool.false_or,
    Bool.or_false, Bool.not_eq_true, Bool.not_eq_false', List.all_eq_true, List.mem_filter, mem_hubPorts_iff,
    decide_eq_true_eq]
  rintro m ⟨⟨h1, h17⟩, hmn⟩
  by_cases hm : m = 17
  · rw [hm]
    split <;> rfl
  · rw [ho m h1 h17 hmn hm]

/-! ### L1 of a port (R240, R241) -/

theorem portL1_17 (h : TakesPortReq s 17) (besl : Nat) (rwe : Bool) (dev : Nat) (a : LpmAnswer) :
    portL1 17 besl rwe dev a s = l1Result 17 3 besl rwe dev (answer .ack (leaveIdle s)) :=
  (h.portReq_eq _).trans (if_pos (by simp))

theorem portL1_ack (h : TakesPortReq s n) (hp : portOf n = some p)
    (hd : (answer .ack (leaveIdle s)).rdB F.HUB_CFG_D_L1_EN = true) (hl : (s.uport n).speed ≠ .low)
    (hx : (answer .ack (leaveIdle s)).rdB (F.HP_CTRL_L1_EN p) = true) (he : (s.uport n).ust = .enabled)
    (besl : Nat) (rwe : Bool) (dev : Nat) : portL1 n besl rwe dev .ack s =
      uEvt n 7 (l1Result n 1 besl rwe dev (modUport n (fun u => { u with ust := .l1 }) (answer .ack (leaveIdle s)))) := by
  rw [portL1, h.portReq_eq]
  simp [uport_acked, hp, hd, hl, hx, he, ne_17_of_portOf hp]

theorem portL1Clear_l1 (h : TakesPortReq s n) (hl : (s.uport n).ust = .l1) : portL1Clear n s =
    modUport n (fun u => { u with ust := .resuming, resumeL1 := true }) (answer .ack (leaveIdle s)) :=
  (h.portReq_eq _).trans (if_pos (by simp [uport_acked, hl]))

/-- Settles O38: each clause is the lemma that says what its request, or the end of what one began, does in the state it finds.
The selectors of features and change bits are those of USB 2.0 (log 23); that port 17 has no events and no test mode is the
model's choice (log 57). -/
theorem portRequestsMoveThePortStates : Obligations.PortRequestsMoveThePortStates := by
  unfold Obligations.PortRequestsMoveThePortStates
  rintro s n _ hu hc h1 h17 rfl
  have h : TakesPortReq s n := ⟨hu, hc, h1, h17⟩
  refine ⟨?_, ?_, ?_, ?_, ?_, ?_, ?_, ?_, ?_, ?_, ?_, ?_, ?_, ?_, ?_, ?_⟩
  · exact fun hn he hconn => congrArg fin (portReset_enabled h hn he hconn)
  · exact fun _ he => congrArg fin (portSuspend_enabled h he)
  · exact fun hs => congrArg fin (portResume_suspended h hs)
  · exact fun p hp hk => congrArg fin (portPowerFeature_on h hp hk)
  · exact fun p hp hk => congrArg fin (portPowerFeature_off h hp hk)
  · exact fun p on hp hk => congrArg fin (portPowerFeature_uncoupled h hp hk on)
  · exact fun he => congrArg fin (portEnableClear_enabled h he)
  · exact fun k hr => congrArg fin (portTest_refused h (hr.imp_right (Or.imp_left (congrArg BitVec.toNat))))
  · exact fun k hn hk1 hk5 ht hd ho => congrArg fin (portTest_disabled h hn ⟨hk1, hk5⟩ ht hd ho)
  · exact congrArg fin (h.portReq_eq _)
  · exact congrArg fin (h.portReq_eq _)
  · rintro besl rwe dev a rfl
    exact congrArg fin (portL1_17 h _ rwe _ a)
  · exact fun besl rwe dev p hp hd hl hx he => congrArg fin (portL1_ack h hp hd hl hx he _ rwe _)
  · exact fun hl => congrArg fin (portL1Clear_l1 h hl)
  · exact fun p sp hp hr hsp hs => congrArg fin (portResetDone_resetting hu ⟨h1, h17⟩ hp hr hsp hs)
  · exact fun hr => congrArg fin (portResumeDone_resuming hu ⟨h1, h17⟩ hr)

end Sys2Proof.Machine
end

section
/-! PROOFS. The requests to a transaction translator and its command register (R247, R248, R261 to R263). A request that the
hub takes acts on the translators that its TT_port names, all of them or one, and is stalled where it names none; a write of
CLEAR_NP frees the four buffers one after another, and each stays freed. -/

namespace Sys2Proof.Machine

variable {s t : State} {n : Nat} {p : PortId}

/-! ### The translators a request names (R247) -/

/-- The ports of TT_port `n`, once the hub has left IDLE for a request in the configured state. -/
structure TtAddressed (s : State) (n : Nat) (l : List PortId) : Prop where
  up : s.usbUp = true
  configured : s.configured = true
  ports : (leaveIdle s).ttPorts n = l

/-- The request acts on the ports it names, of which there is one at least. -/
theorem TtAddressed.ttReq_eq {l : List PortId} (h : TtAddressed s n l) (hl : l ≠ []) (f : List PortId → State → State) :
    ttReq n f s = f l (leaveIdle s) := by
  rw [ttReq, cfgReq_configured h.up h.configured]
  simp [h.ports, hl]

theorem TtAddressed.ttReq_stall (h : TtAddressed s n []) (f : List PortId → State → State) :
    ttReq n f s = answer .stall (leaveIdle s) := by
  rw [ttReq, cfgReq_configured h.up h.configured]
  simp [h.ports]

theorem ttPorts_own (ha : t.hub.alt = true) (hp : portOf n = some p) : t.ttPorts n = [p] := by
  simp [State.ttPorts, ha, hp, ne_17_of_portOf hp]

theorem ttPorts_all (ha : t.hub.alt = false) : t.ttPorts 1 = downPorts := by simp [State.ttPorts, ha]

theorem ttPorts_bad (hb : (t.hub.alt = false ∧ n ≠ 1) ∨ (t.hub.alt = true ∧ n = 17)) : t.ttPorts n = [] := by
  obtain ⟨ha, hn⟩ | ⟨ha, hn⟩ := hb
  · simp [State.ttPorts, ha, hn]
  · simp [State.ttPorts, ha, hn]

theorem downPorts_ne_nil : downPorts ≠ [] := by decide

/-! ### GetTTState (R261, R262) -/

theorem ttGetState_stopped {len : Nat} (h : TtAddressed s n [p]) (hs : ((leaveIdle s).port p).tt.st = .stopped) :
    ttGetState n len s = reply ((leaveIdle s).ttRecord n) len (leaveIdle s) :=
  (h.ttReq_eq (List.cons_ne_nil _ _) _).trans (if_pos (by simp [hs, -Fin.getElem_fin]))

theorem ttGetState_running {len : Nat} (h : TtAddressed s n [p]) (hs : ((leaveIdle s).port p).tt.st ≠ .stopped) :
    ttGetState n len s = answer .stall (leaveIdle s) :=
  (h.ttReq_eq (List.cons_ne_nil _ _) _).trans (if_neg (by simp [hs, -Fin.getElem_fin]))

/-! ### Freeing buffers (R261, R263) -/

theorem State.tt_modTt_self (s : State) (p : PortId) (f : Tt → Tt) : ((s.modTt p f).port p).tt = f (s.port p).tt := by
  rw [State.modTt, State.port_setPort, if_pos rfl]

/-- A change of a buffer is made, but for the stamp of its AGE. -/
theorem modNp_np_self (p : PortId) (k : Fin 4) (f : NpBuf → NpBuf) (s : State) :
    ∃ x, ((modNp p k f s).port p).tt.np[k] = { f (s.port p).tt.np[k] with since := x } := by
  rw [modNp, State.tt_modTt_self]
  by_cases h : ((f (s.port p).tt.np[k]).st == (s.port p).tt.np[k].st) = true
  · exact ⟨_, (Vector.getElem_set_self k.isLt).trans (if_pos h)⟩
  · exact ⟨_, (Vector.getElem_set_self k.isLt).trans (if_neg h)⟩

theorem modNp_np_other {j k : Fin 4} (h : k ≠ j) (p : PortId) (f : NpBuf → NpBuf) (s : State) :
    ((modNp p k f s).port p).tt.np[j] = (s.port p).tt.np[j] := by
  rw [modNp, State.tt_modTt_self]
  exact Vector.getElem_set_ne k.isLt j.isLt (Fin.val_ne_of_ne h)

/-- A buffer that answers no more split: free, or to end on the wire without a result. -/
def NpBuf.Cleared (b : NpBuf) : Prop := b.st = .free ∨ b.dropped = true

theorem npFree_cleared (k : Fin 4) (s : State) : (((npFree p k s).port p).tt.np[k]).Cleared := by
  obtain ⟨x, hx⟩ := modNp_np_self p k (fun b => if b.st == .running then { b with dropped := true } else { since := b.since }) s
  rw [npFree, hx]
  split
  · exact .inr rfl
  · exact .inl rfl

/-- Freeing others leaves a buffer as it was, so each of those freed ends cleared. -/
theorem forEach_npFree_cleared {j : Fin 4} {l : List (Fin 4)} (h : j ∈ l ∨ ((s.port p).tt.np[j]).Cleared) :
    (((forEach l (npFree p) s).port p).tt.np[j]).Cleared := by
  unfold forEach
  induction l generalizing s with
  | nil => exact h.resolve_left List.not_mem_nil
  | cons k l ih =>
    rw [List.foldl_cons]
    refine ih ?_
    by_cases hk : k = j
    · exact .inr (hk ▸ npFree_cleared k s)
    · rw [npFree, modNp_np_other hk]
      exact h.imp_left fun hm => (List.mem_cons.1 hm).resolve_left (Ne.symm hk)

/-! ### HP_TT_CMD (R263) -/

theorem ttCmd_reset (v : Word) (s : State) : ttCmd p (setBit v 0) s =
    ttReset p false (if bitOf v 1 then forEach (List.finRange 4) (npFree p) s else s) := by
  rw [ttCmd, bitOf_setBit_self v (by decide), bitOf_setBit_other v (by decide)]
  rfl

theorem ttCmd_clearNp (v : Word) (s : State) : ttCmd p (setBit v 1) s =
    if bitOf v 0 then ttReset p false (forEach (List.finRange 4) (npFree p) s)
    else forEach (List.finRange 4) (npFree p) s := by
  rw [ttCmd, bitOf_setBit_self v (by decide), bitOf_setBit_other v (by decide)]
  rfl

/-- Settles O41: a request acts on the translators its TT_port names, and a write of the command register on the one of its
port. That GetTTState needs a stopped translator and that StopTT leaves an idle one are the model's choice (log 57); the layouts
of the requests are those of USB 2.0 (log 23). -/
theorem translatorRequestsAct : Obligations.TranslatorRequestsAct := by
  unfold Obligations.TranslatorRequestsAct
  rintro s _ rfl
  refine ⟨fun hu hc _ => ⟨?_, ?_, ?_⟩, fun path d v hr => ⟨?_, ?_⟩⟩
  · intro n p ha _ hp
    have h : TtAddressed s n [p] := ⟨hu, hc, ttPorts_own ha hp⟩
    have hreq := h.ttReq_eq (List.cons_ne_nil _ _)
    exact ⟨fun v => congrArg fin (hreq _), congrArg fin (hreq _), congrArg fin (hreq _),
      fun len hs => congrArg fin (ttGetState_stopped h hs), fun len hs => congrArg fin (ttGetState_running h hs)⟩
  · intro ha
    have hreq := (⟨hu, hc, ttPorts_all ha⟩ : TtAddressed s 1 downPorts).ttReq_eq downPorts_ne_nil
    exact ⟨fun v => congrArg fin (hreq _), congrArg fin (hreq _), congrArg fin (hreq _)⟩
  · intro n hb
    have h : TtAddressed s n [] := ⟨hu, hc, ttPorts_bad hb⟩
    exact congrArg fin (h.ttReq_stall _)
  · exact congrArg fin ((write_HP_TT_CMD d.isLt hr).trans (ttCmd_reset v _))
  · refine ⟨_, congrArg fin ((write_HP_TT_CMD d.isLt hr).trans (ttCmd_clearNp v _)),
      _, fun hv => if_neg (by simp [hv]), fun hv => if_pos hv, fun k => ?_⟩
    exact forEach_npFree_cleared (.inl (List.mem_finRange k))

end Sys2Proof.Machine
end

section
/-! PROOFS. Splits and the full-speed bus of a translator (R252 to R258). A split finds the hub out of IDLE; whether the
translator takes it, which buffer or record it meets and in what state that one is select one branch of the operation. -/

namespace Sys2Proof.Machine

variable {s t : State} {p : PortId} {ty : NpType} {io : Bool} {a : BitVec 7} {e : BitVec 4} {data : List Byte}

/-! ### An answer leaves the ports -/

theorem answer_port (x : UsbAnswer) (s : State) (p : PortId) : (answer x s).port p = s.port p := rfl

theorem ttTakes_answer (x : UsbAnswer) (s : State) (p : PortId) : (answer x s).ttTakes p = s.ttTakes p := rfl

/-! ### Control and bulk start-splits (R253, R258) -/

theorem ttStart_off (h : t.ttTakes p = false) (ok : Bool) : ttStart p ty io a e data ok t = answer .noHandshake t :=
  if_pos (by simp [h])

theorem ttStart_badCrc : ttStart p ty io a e data false t = answer .noHandshake t := if_pos (by simp)

/-- What `ttStart` asks first lets a sound split of at most 64 bytes pass. -/
theorem start_not_refused (h : t.ttTakes p = true) (hd : data.length ≤ 64) :
    ¬(!t.ttTakes p || !true || decide (64 < data.length)) = true := by simp [h, hd]

theorem ttStart_free {k : Fin 4} (h : t.ttTakes p = true) (hd : data.length ≤ 64)
    (hf : (t.port p).tt.find io a e = none) (hk : (t.port p).tt.freeBuf = some k) :
    ttStart p ty io a e data true t = answer .ack (npTake p k ty io a e data t) := by
  rw [ttStart, if_neg (start_not_refused h hd)]
  simp only [hf, hk]

theorem ttStart_full (h : t.ttTakes p = true) (hd : data.length ≤ 64) (hf : (t.port p).tt.find io a e = none)
    (hk : (t.port p).tt.freeBuf = none) : ttStart p ty io a e data true t =
      answer .nak (t.modTt p fun x => { x with naked := (a, e, io) :: x.naked.filter (· ≠ (a, e, io)) }) := by
  rw [ttStart, if_neg (start_not_refused h hd)]
  simp only [hf, hk]

theorem ttStart_queued {k : Fin 4} (h : t.ttTakes p = true) (hd : data.length ≤ 64)
    (hf : (t.port p).tt.find false a e = some k) (hq : (t.port p).tt.np[k].st = .queued) :
    ttStart p ty false a e data true t = answer .ack (npFill p k data t) := by
  rw [ttStart, if_neg (start_not_refused h hd)]
  simp only [hf, hq]
  rfl

/-! ### Control and bulk complete-splits (R255, R258) -/

theorem ttComplete_pending {k : Fin 4} (h : t.ttTakes p = true) (hf : (t.port p).tt.find io a e = some k)
    (hst : (t.port p).tt.np[k].st ≠ .done) : ttComplete p io a e t = answer .nyet t := by
  simp only [ttComplete, h, hf]
  exact if_pos (bne_iff_ne.2 hst)

theorem ttComplete_result {k : Fin 4} {r : XactResult} (h : t.ttTakes p = true)
    (hf : (t.port p).tt.find io a e = some k) (hst : (t.port p).tt.np[k].st = .done)
    (hr : (t.port p).tt.np[k].res = some r) (hdata : r ≠ .data) :
    ttComplete p io a e t = answer (resultAnswer r) (npFree p k t) := by
  simp [ttComplete, h, hf, hst, hr, hdata, -Fin.getElem_fin]

theorem ttComplete_naked (h : t.ttTakes p = true) (hf : (t.port p).tt.find io a e = none)
    (hn : (a, e, io) ∈ (t.port p).tt.naked) : ttComplete p io a e t = answer .nyet t := by
  simp [ttComplete, h, hf, hn, -Fin.getElem_fin]

/-! ### Periodic start-splits (R256, R258) -/

theorem writeOpen_hub (l : List Nat) (s : State) : (writeOpen l s).hub = s.hub :=
  forEach_keeps State.hub (fun _ _ => by rfl) l s

theorem writeOpen_ports (l : List Nat) (s : State) : (writeOpen l s).ports = s.ports :=
  forEach_keeps State.ports (fun _ _ => by rfl) l s

theorem writeData_nil (ks : List Nat) (s : State) : writeData ks [] s = s := by cases ks <;> rfl

/-- Nor does `ttPerStart` turn a split away from a translator that takes them. -/
theorem perStart_not_refused (h : t.ttTakes p = true) : ¬(!(answer .noHandshake t).ttTakes p) = true := by
  rw [ttTakes_answer, h]
  decide

/-- The record of an IN that has not run: it holds no data. -/
def inRecord (t : Tt) (k : Nat) (iso : Bool) (a : BitVec 7) (e : BitVec 4) : PRecord :=
  { slot := k, iso := iso, dirIn := true, addr := a, ep := e, off := t.ring, len := 0 }

/-- The record of an IN takes no room in the ring; its header is written. -/
theorem ttPerStart_in {k : Nat} (h : t.ttTakes p = true) (hk : (t.port p).tt.freeRec = some k)
    (hr : (t.port p).tt.ringRoom 0 = true) (iso : Bool) : ttPerStart p iso true a e [] t =
      (writeOpen ((List.range 4).map (recWord (t.port p).tt k + ·)) (answer .noHandshake t)).modTt p fun x =>
        { x with recs := x.recs ++ [inRecord (t.port p).tt k iso a e], ring := (x.ring + wordsFor 0) % 448 } := by
  rw [ttPerStart, if_neg (perStart_not_refused h)]
  simp only [answer_port, hk, if_true, List.length_nil, hr, writeData_nil]
  rfl

theorem ttPerStart_overrun (h : t.ttTakes p = true) (hk : (t.port p).tt.freeRec = none) (iso : Bool) :
    ttPerStart p iso io a e data t = raiseAt .ttOverrun (some p) (ttEvt p 1
      ((answer .noHandshake t).bump (F.HP_TT_ERR_OVERRUN p))) := by
  rw [ttPerStart, if_neg (perStart_not_refused h)]
  simp only [answer_port, hk]

/-! ### Periodic complete-splits (R257, R258) -/

theorem ttPerComplete_off (h : t.ttTakes p = false) (last : Bool) : ttPerComplete p io a e last t = answer .err t :=
  if_pos (by simp [h])

theorem ttPerComplete_found {r : PRecord} (h : t.ttTakes p = true)
    (hf : (t.port p).tt.recs.find? (fun r => !r.dropped && r.addr == a && r.ep == e && r.dirIn == io) = some r)
    (last : Bool) : ttPerComplete p io a e last t =
      if last then recFree p r.slot (if r.st == .ended then recAnswer p r t else answer .nyet t)
        else if r.st == .ended then recAnswer p r t else answer .nyet t := by
  simp only [ttPerComplete, h, hf]
  rfl

/-! ### The full-speed bus (R252, R254, R255, R257) -/

theorem ttEnd_buffer {k : Fin 4} (hk : ((List.finRange 4).find? fun k => (s.port p).tt.np[k].st == .running) = some k)
    (r : XactResult) (data1 : Bool) : ttEnd p r data1 data s = ttNext p (npEnd p k r data1 data s) := by
  simp only [ttEnd, hk]

theorem ttExpire_idle {k : Nat} {r : PRecord} (hc : s.coreUp = true) (hr : (s.port p).tt.record k = some r)
    (hst : r.st ≠ .running) : ttExpire p k s = recFree p k s := by
  simp [ttExpire, hr, hst, hc, -Fin.getElem_fin]

theorem ttStale_done {k : Fin 4} (hc : s.coreUp = true) (hd : (s.port p).tt.np[k].st = .done)
    (hs : (s.port p).tt.np[k].stale = false) :
    ttStale p k s = ttEvt p 0 (modNp p k (fun b => { b with stale := true }) s) :=
  if_pos (by simp [hd, hs, hc, -Fin.getElem_fin])

/-- Settles O40: each clause is the lemma that says what its split, or the event on the port's bus, does in the state it finds.
Where a record's header lies and what its words hold is the model's choice (log 10). -/
theorem splitsFillBuffersAndRecords : Obligations.SplitsFillBuffersAndRecords := by
  unfold Obligations.SplitsFillBuffersAndRecords
  rintro s d _ rfl
  refine ⟨fun hu h => ⟨?_, ?_, ?_, ?_, ?_, ?_, ?_, ?_, ?_, ?_⟩, fun hu h => ⟨?_, ?_⟩, ?_, ?_, ?_, ?_⟩
  · exact fun ty io a e data k hf hk hd => congrArg fin ((usbReq_up hu _).trans (ttStart_free h hd hf hk))
  · intro ty io a e data hf hk hd
    refine ⟨_, congrArg fin ((usbReq_up hu _).trans (ttStart_full h hd hf hk)), rfl, ?_⟩
    rw [answer_port, State.tt_modTt_self]
    exact List.mem_cons_self
  · exact fun ty io a e data => congrArg fin ((usbReq_up hu _).trans ttStart_badCrc)
  · exact fun ty a e data k hf hq hd => congrArg fin ((usbReq_up hu _).trans (ttStart_queued h hd hf hq))
  · exact fun ty io a e k hf hst => congrArg fin ((usbReq_up hu _).trans (ttComplete_pending h hf hst))
  · exact fun ty io a e k r hf hst hr hdata => congrArg fin ((usbReq_up hu _).trans (ttComplete_result h hf hst hr hdata))
  · exact fun ty io a e hf hn => congrArg fin ((usbReq_up hu _).trans (ttComplete_naked h hf hn))
  · intro iso a e k hk hr
    refine ⟨_, congrArg fin ((usbReq_up hu _).trans (ttPerStart_in h hk hr iso)), ?_,
      inRecord ((leaveIdle s).port (dport d)).tt k iso a e, ?_, rfl, rfl, rfl, rfl, rfl⟩
    · exact congrArg Hub.answer (writeOpen_hub _ _)
    · rw [State.tt_modTt_self]
      exact List.mem_append_right _ List.mem_cons_self
  · exact fun iso io a e data hk => congrArg fin ((usbReq_up hu _).trans (ttPerStart_overrun h hk iso))
  · exact fun io a e last r hf => congrArg fin ((usbReq_up hu _).trans (ttPerComplete_found h hf last))
  · exact fun ty io a e data ok => congrArg fin ((usbReq_up hu _).trans (ttStart_off h ok))
  · exact fun io a e last => congrArg fin ((usbReq_up hu _).trans (ttPerComplete_off h last))
  · exact fun h => congrArg fin (if_pos h)
  · exact fun k r dt data hk => congrArg fin (ttEnd_buffer hk r dt)
  · exact fun k r hc hr hst => congrArg fin (ttExpire_idle hc hr hst)
  · exact fun k hc hd hs => congrArg fin (ttStale_done hc hd hs)

end Sys2Proof.Machine
end

section
/-! PROOFS. The carving of the endpoint buffers (R267, R269): each check asks one rule of every buffer in turn, so the carving
is taken exactly when every buffer keeps every rule. -/

namespace Sys2Proof.Machine

variable {c : Carving} {pages : Nat} {retired : Nat → Bool}

/-! ### The checks, rule by rule (R267) -/

theorem carveFirst_eq_none {bad : Nat → Nat × Nat → Bool} :
    carveFirst c bad = none ↔ ∀ e < c.length, bad e (c.getD e (0, 0)) = false := by
  simp [carveFirst, List.find?_eq_none]

/-- Every rule is asked of every buffer before the carving passes. -/
theorem carveCheck_eq_none : carveCheck pages retired c = none ↔
    carveFirst c carveSizeBad = none ∧ carveFirst c (carveOverlapBad c) = none ∧
    (carveFirst c fun _ b => decide (pages * 16 < b.1 + b.2)) = none ∧
    (carveFirst c fun _ b => (bufPages b).any retired) = none := by
  unfold carveCheck
  repeat' split
  all_goals simp [*]

theorem carveSizes_kept (hc : 1 ≤ c.length) : carveFirst c carveSizeBad = none ↔
    (2 ≤ (c.getD 0 (0, 0)).2 ∧ (c.getD 0 (0, 0)).2 ≤ 16) ∧
    ∀ e, 1 ≤ e → e < c.length → 8 ≤ (c.getD e (0, 0)).2 ∧ (c.getD e (0, 0)).2 ≤ 256 := by
  rw [carveFirst_eq_none]
  constructor
  · intro h
    refine ⟨by simpa [carveSizeBad] using h 0 hc, fun e h1 he => ?_⟩
    simpa [carveSizeBad, Nat.ne_of_gt h1] using h e he
  · rintro ⟨h0, hbulk⟩ e he
    obtain rfl | h1 := Nat.eq_zero_or_pos e
    · simpa [carveSizeBad] using h0
    · simpa [carveSizeBad, Nat.ne_of_gt h1] using hbulk e h1 he

/-- Buffers that hold something overlap exactly when they share a unit. -/
theorem carveOverlap_eq_false {a b : Nat × Nat} (ha : 0 < a.2) (hb : 0 < b.2) : carveOverlap a b = false ↔
    ∀ u, ¬(a.1 ≤ u ∧ u < a.1 + a.2 ∧ b.1 ≤ u ∧ u < b.1 + b.2) := by
  rw [carveOverlap, decide_eq_false_iff_not]
  constructor
  · intro h u hu
    omega
  · intro h hab
    have := h (max a.1 b.1)
    omega

theorem carveOverlap_comm (a b : Nat × Nat) : carveOverlap a b = carveOverlap b a := by
  simp only [carveOverlap, and_comm]

/-- It is enough to ask each pair once. -/
theorem carveOverlaps_kept : carveFirst c (carveOverlapBad c) = none ↔
    ∀ e f, e < f → f < c.length → carveOverlap (c.getD e (0, 0)) (c.getD f (0, 0)) = false := by
  have hpairs : carveFirst c (carveOverlapBad c) = none ↔ ∀ e < c.length, ∀ k < c.length, k ≠ e →
      carveOverlap (c.getD e (0, 0)) (c.getD k (0, 0)) = false := by
    simp [carveFirst_eq_none, carveOverlapBad]
  rw [hpairs]
  constructor
  · exact fun h e f hef hf => h e (by omega) f hf (by omega)
  · intro h e he k hk hne
    obtain hke | hek := Nat.lt_or_gt_of_ne hne
    · rw [carveOverlap_comm]
      exact h k e hke he
    · exact h e k hek hk

theorem carveInside_kept : (carveFirst c fun _ b => decide (pages * 16 < b.1 + b.2)) = none ↔
    ∀ e, e < c.length → (c.getD e (0, 0)).1 + (c.getD e (0, 0)).2 ≤ pages * 16 := by
  simp [carveFirst_eq_none]

theorem mem_bufPages {b : Nat × Nat} {p : Nat} : p ∈ bufPages b ↔ ∃ u, b.1 ≤ u ∧ u < b.1 + b.2 ∧ u / 16 = p := by
  unfold bufPages
  split
  next h => simp [h]; omega
  next h =>
    simp only [List.mem_map, List.mem_range]
    constructor
    · rintro ⟨k, hk, rfl⟩
      exact ⟨max b.1 ((k + b.1 / 16) * 16), by omega, by omega, by omega⟩
    · rintro ⟨u, h1, h2, rfl⟩
      exact ⟨u / 16 - b.1 / 16, by omega, by omega⟩

theorem carvePages_kept : (carveFirst c fun _ b => (bufPages b).any retired) = none ↔
    ∀ e u, e < c.length → (c.getD e (0, 0)).1 ≤ u → u < (c.getD e (0, 0)).1 + (c.getD e (0, 0)).2 →
      retired (u / 16) = false := by
  rw [carveFirst_eq_none]
  refine forall_congr' fun e => ?_
  simp only [List.any_eq_false, mem_bufPages, Bool.not_eq_true]
  constructor
  · exact fun h u he h1 h2 => h he _ ⟨u, h1, h2, rfl⟩
  · rintro h he _ ⟨u, h1, h2, rfl⟩
    exact h u he h1 h2

/-! ### EFN_CARVE.APPLY (R269) -/

theorem efnCarve_applied {path : Path} {v : Word} {s : State} (h : s.reaches path R.EFN_CARVE = true) :
    writeAt path R.EFN_CARVE (setBit v 0) s = carveApply (written path R.EFN_CARVE (setBit v 0) s) :=
  (write_EFN_CARVE h).trans (if_pos (bitOf_setBit_self v (by decide)))

/-- At Level 0 the rules are asked of EP0 and EP1 alone (R267). -/
theorem carveApply_level0 {u : State} (hs : u.efn.st ≠ .configured) (hl : u.glb.level = 0)
    (hk : carveCheck (u.rgnCount 0) u.retired (u.staged.take 3) = none) :
    carveApply u = carveResult 0 0 (forEach epList carveTake u) := by
  simp [carveApply, hs, hl, hk]

theorem carveApply_broken {u : State} {r e : Nat} (hs : u.efn.st ≠ .configured) (hl : u.glb.level ≠ 0)
    (hk : carveCheck (u.rgnCount 0) u.retired u.staged = some (r, e)) : carveApply u = carveResult r e u := by
  simp [carveApply, hs, hl, hk]

/-- Settles O12: the rules of R267, one lemma each, and what APPLY does with a carving that keeps them or breaks one. -/
theorem carvingRulesAreChecked : Obligations.CarvingRulesAreChecked := by
  unfold Obligations.CarvingRulesAreChecked
  refine ⟨fun pages retired c hc => ?_, ?_, ?_⟩
  · rw [carveCheck_eq_none, carveSizes_kept hc, carveOverlaps_kept, carveInside_kept, carvePages_kept, and_assoc]
    refine and_congr_right fun h0 => and_congr_right fun hbulk => and_congr_left fun _ => ?_
    have hpos : ∀ e < c.length, 0 < (c.getD e (0, 0)).2 := by
      intro e he
      obtain rfl | h1 := Nat.eq_zero_or_pos e
      · omega
      · have := hbulk e h1 he
        omega
    exact forall₄_congr fun e f hef hf => carveOverlap_eq_false (hpos e (by omega)) (hpos f hf)
  · rintro s path v _ hr rfl hs hl hk
    exact congrArg fin ((efnCarve_applied hr).trans (carveApply_level0 hs hl hk))
  · rintro s path v _ r e hr rfl hs hl hk
    exact congrArg fin ((efnCarve_applied hr).trans (carveApply_broken hs hl hk))

end Sys2Proof.Machine
end

section
/-! PROOFS. Requests on EP0 of the embedded function (R264 to R266, R273, R275 to R279, R284, R285). A SETUP packet ends what
EP0 held and the hub leaves IDLE; the fields of the request, and whether something holds it, then select one branch of the
operation. -/

namespace Sys2Proof.Machine

variable {s t : State}

/-! ### The function as a request finds it (R266, R278) -/

theorem efn_attached (hu : s.efnUp = true) : s.efn.st ≠ .detached := by
  intro h
  simp [State.efnUp, h] at hu

/-! ### Vendor requests (R275 to R279, R284) -/

section vendor

variable {code : Byte} {v ix : BitVec 16} {len a : Nat} {data : List Byte} {ok : Nat → Bool}

/-- A request that breaks R275's rules. -/
theorem vendorReq_bad (hu : s.efnUp = true) (h : ∀ a, vendorAddr v ix = some a → ok a = false) :
    vendorReq code v ix len data ok s = vendorStall (leaveIdle (setup s)) := by
  rw [vendorReq, if_neg (by simp [hu])]
  dsimp only
  split
  next a ha => rw [h a ha, if_neg Bool.false_ne_true]
  next => rfl

/-- A request that keeps them. -/
theorem vendorReq_good (hu : s.efnUp = true) (ha : vendorAddr v ix = some a) (hok : ok a = true) :
    vendorReq code v ix len data ok s = vendorGo code a len data (leaveIdle (setup s)) := by
  rw [vendorReq, if_neg (by simp [hu])]
  simp only [ha, hok, if_true]

theorem vendorGo_free (h : t.vendorHeld code a len = false) : vendorGo code a len data t = vendorDo code a len data t :=
  if_neg (by simp [h])

theorem vendorGo_held (h : t.vendorHeld code a len = true) : vendorGo code a len data t = vendorHold code a len data t :=
  if_pos h

theorem vendorReq_runs (hu : s.efnUp = true) (ha : vendorAddr v ix = some a) (hok : ok a = true)
    (hh : (leaveIdle (setup s)).vendorHeld code a len = false) :
    vendorReq code v ix len data ok s = vendorDo code a len data (leaveIdle (setup s)) :=
  (vendorReq_good hu ha hok).trans (vendorGo_free hh)

end vendor

/-! ### The data stage of a keyed write (R276) -/

/-- The number before a list reads back. -/
theorem leAt_leBytes_append (n v : Nat) (m : List Byte) : leAt (leBytes n v ++ m) 0 n = v % 256 ^ n := by
  rw [leAt, slice_append_left m (by simp), slice, List.drop_zero, List.take_of_length_le (by simp), leNat_leBytes]

theorem vendorDo_keyed (a : Nat) (w : Word) (t : State) :
    vendorDo 0x43 a 8 (leBytes 4 0x6B1C ++ wordBytes w) t = vendorAck (regKeyedWrite .usb a w t) := by
  have hw : BitVec.ofNat 32 (leAt (leBytes 4 0x6B1C ++ wordBytes w) 4 4) = w := by
    rw [show leAt (leBytes 4 0x6B1C ++ wordBytes w) 4 4 = w.toNat from leAt_append_wordBytes (leBytes 4 0x6B1C) w,
      BitVec.ofNat_toNat, BitVec.setWidth_eq]
  exact congrArg (fun x => vendorAck (regKeyedWrite .usb a x t)) hw

/-! ### Accesses held past their bound (R278, R282) -/

theorem holdTimeout_batch (h : s.batchOutOfReach = true) : holdTimeout s = batchEnd 4 [] s := if_pos h

theorem holdTimeout_request {c : Byte} {a len : Nat} {data : List Byte} (hh : s.efn.held = some (c, a, len, data))
    (hp : s.usbP.popWait = false) (hb : s.batchOutOfReach = false) : holdTimeout s = raiseFault
      { src := .regTimeout, addr := a, req := 0, acc := if c = 0x41 ∨ c = 0x43 then 2 else 1 }
      (vendorStall (s.modEfn fun e => { e with held := none })) := by
  simp [holdTimeout, hb, hh, hp]

/-! ### Standard requests (R264, R266, R273) -/

theorem efnSetConfig_one (h : t.efn.st ≠ .default_) : efnSetConfig 1 t =
    answer .ack (togglesReset (t.modEfn fun e => { e with st := .configured })) := by
  simp [efnSetConfig, h]

theorem efnSetAddress_unconfigured (h : t.efn.st ≠ .configured) (v : Nat) : efnSetAddress v t =
    answer .ack (t.modEfn fun e => { e with addr := BitVec.ofNat 7 v, st := if v % 128 = 0 then .default_ else .addressed }) :=
  if_neg (by simp [h])

section standard

variable (v ix : BitVec 16) (len : Nat)

theorem standard_getDescriptor (hu : s.efnUp = true) {l : List Byte}
    (hd : efnDescriptor (v.toNat / 256 % 256) (v.toNat % 256) (leaveIdle (setup s)) = some l) :
    efnStandard 0x80 6 v.toNat ix.toNat len s = reply l len (leaveIdle (setup s)) := by
  simp [efnStandard, hu, hd, replyOr]

theorem standard_setConfiguration (hu : s.efnUp = true) (v : Nat) :
    efnStandard 0 9 v ix.toNat len s = efnSetConfig (v % 256) (leaveIdle (setup s)) := by
  simp [efnStandard, hu]

theorem standard_setAddress (hu : s.efnUp = true) :
    efnStandard 0 5 v.toNat ix.toNat len s = efnSetAddress v.toNat (leaveIdle (setup s)) := by
  simp [efnStandard, hu]

theorem standard_getStatus (hu : s.efnUp = true) :
    efnStandard 0x80 0 v.toNat ix.toNat len s = reply [1, 0] len (leaveIdle (setup s)) := by
  simp [efnStandard, hu, efnStatus, replyOr]

end standard

/-! ### Halts and resets (R273, R285) -/

theorem setHalt_bulk {e : Fin 7} (he : e ≠ 0) (hu : t.efnUp = true) (hx : t.epExists e = true) (hc : t.efn.st = .configured) :
    setHalt e t = answer .ack (outPartial e (t.modEp e fun b => { b with halted := true })) := by
  simp [setHalt, hu, hx, hc, he]

theorem clearHalt_bulk {e : Fin 7} (he : e ≠ 0) (hu : t.efnUp = true) (hx : t.epExists e = true) (hc : t.efn.st = .configured) :
    clearHalt e t = answer .ack (t.modEp e fun b => { b with halted := false, toggle := false }) := by
  simp [clearHalt, hu, hx, hc, he]

theorem efnPortReset_attached (h : s.efn.st ≠ .detached) (lost : Bool) :
    efnPortReset lost s = efnDown (if lost then .detached else .default_) s.ep4Records s := by
  unfold efnPortReset
  split
  next hd => exact absurd hd h
  next => rfl

/-- Settles O42: each clause is the lemma that says what its request does to the hub that its SETUP packet leaves. The layouts of
the descriptors are those of USB 2.0 (log 23); that a wrong KEY stalls a request is the model's choice (log 56). -/
theorem functionRequestsAreAnswered : Obligations.FunctionRequestsAreAnswered := by
  unfold Obligations.FunctionRequestsAreAnswered
  rintro s _ hu rfl
  refine ⟨?_, ?_, ?_, ?_, ?_, ?_, ?_, ?_, ?_, ?_, ?_, ?_, ?_, ?_, ?_⟩
  · exact fun v ix len a ha hl hh => congrArg fin (vendorReq_runs hu ha hl hh)
  · exact fun v ix len data a ha hl hd hh => congrArg fin (vendorReq_runs hu ha (by simp [hl, hd]) hh)
  · exact fun v ix len ha hl h16 hh => congrArg fin (vendorReq_runs hu ha (by simp [hl, h16]) hh)
  · intro v ix a w ha hh
    have hok : (8 == 8 && (leBytes 4 0x6B1C ++ wordBytes w).length == 8 &&
        leAt (leBytes 4 0x6B1C ++ wordBytes w) 0 4 == 0x6B1C) = true := by simp [leAt_leBytes_append]
    exact congrArg fin ((vendorReq_runs hu ha hok hh).trans (vendorDo_keyed a w _))
  · rintro v ix data a _ ha hd rfl hk
    exact congrArg fin (vendorReq_bad hu fun _ _ => by simp [hk])
  · exact fun v ix len a ha hl hh => congrArg fin ((vendorReq_good hu ha hl).trans (vendorGo_held hh))
  · intro v ix len h
    refine congrArg fin (vendorReq_bad hu fun a ha => ?_)
    exact h.resolve_left (by simp [ha])
  · exact fun c a len data hh hp hb => congrArg fin (holdTimeout_request hh hp hb)
  · exact fun hb => congrArg fin (holdTimeout_batch hb)
  · exact fun v ix len l hd => congrArg fin (standard_getDescriptor v ix len hu hd)
  · exact fun ix len h => congrArg fin ((standard_setConfiguration ix len hu 1).trans (efnSetConfig_one h))
  · exact fun v ix len h => congrArg fin ((standard_setAddress v ix len hu).trans (efnSetAddress_unconfigured h _))
  · exact fun v ix len => congrArg fin (standard_getStatus v ix len hu)
  · intro e he hx hc
    have hset : (if s.efnUp then setup s else s) = setup s := if_pos hu
    exact ⟨congrArg fin ((congrArg (setHalt e) hset).trans (setHalt_bulk he hu hx hc)),
      congrArg fin ((congrArg (clearHalt e) hset).trans (clearHalt_bulk he hu hx hc))⟩
  · exact fun lost => congrArg fin (efnPortReset_attached (efn_attached hu) lost)

end Sys2Proof.Machine
end

section
/-! PROOFS. Bulk packets of the embedded function (R271 to R274, R378). What a packet moves beside its own ring, in the store
and in the Cadence queues, leaves the endpoints and the speed of the hub as they are, so the ring shows what the packet did to
it. -/

namespace Sys2Proof.Machine

/-- What a bulk packet rests on: the endpoints, and the speed of the hub. -/
def State.bulk (s : State) : Vector EpBuf 7 × UsbSpeed := (s.efn.eps, s.hub.speed)

variable (s : State)

@[simp] theorem State.bulk_ite {c : Prop} [Decidable c] (s t : State) :
    (if c then s else t).bulk = if c then s.bulk else t.bulk := apply_ite State.bulk c s t

@[simp] theorem forEach_bulk {α : Type} (l : List α) {f : α → State → State} (hf : ∀ x t, (f x t).bulk = t.bulk) :
    (forEach l f s).bulk = s.bulk := forEach_keeps State.bulk hf l s

theorem QueueOnly.bulk {s t : State} (h : QueueOnly s t) : t.bulk = s.bulk := by
  obtain ⟨_, _, _, rfl⟩ := h
  rfl

theorem ep_of_bulk {s t : State} (h : t.bulk = s.bulk) (e : Fin 7) : t.ep e = s.ep e :=
  congrArg (fun x : Vector EpBuf 7 × UsbSpeed => x.1[e]) h

theorem speed_of_bulk {s t : State} (h : t.bulk = s.bulk) : t.hub.speed = s.hub.speed := congrArg Prod.snd h

/-! ### Updates of the state -/

@[simp] theorem State.setReg_bulk (a : Nat) (w : Word) : (s.setReg a w).bulk = s.bulk := rfl
@[simp] theorem State.wr_bulk (f : Fld) (v : Nat) : (s.wr f v).bulk = s.bulk := rfl
@[simp] theorem State.bump_bulk (f : Fld) : (s.bump f).bulk = s.bulk := rfl
@[simp] theorem State.setCell_bulk (k : Nat) (c : StoCell) : (s.setCell k c).bulk = s.bulk := rfl
@[simp] theorem State.modSto_bulk (f : Sto → Sto) : (s.modSto f).bulk = s.bulk := rfl
@[simp] theorem State.modCad_bulk (f : Cad → Cad) : (s.modCad f).bulk = s.bulk := rfl
@[simp] theorem State.modCl_bulk (p : PortId) (f : Link → Link) : (s.modCl p f).bulk = s.bulk := rfl
@[simp] theorem State.modEvq_bulk (f : Evq → Evq) : (s.modEvq f).bulk = s.bulk := rfl
@[simp] theorem State.modI2c_bulk (f : I2cEngine → I2cEngine) : (s.modI2c f).bulk = s.bulk := rfl

@[simp] theorem State.modPath_bulk (p : Path) (f : PathState → PathState) : (s.modPath p f).bulk = s.bulk := by
  cases p <;> rfl

@[simp] theorem State.modLq_bulk (q : Fin 18) (f : LaunchQ → LaunchQ) : (s.modLq q f).bulk = s.bulk := by
  unfold State.modLq
  split <;> simp

@[simp] theorem leaveIdle_bulk : (leaveIdle s).bulk = s.bulk := by
  unfold leaveIdle
  split <;> rfl

/-! ### Events: a pop that waited ends, its endpoints stay -/

@[simp] theorem latchPop_bulk (p : Path) (ws : List Word) : (latchPop p ws s).bulk = s.bulk := by simp [latchPop]

@[simp] theorem i2cEndPop_bulk (ws : List Word) : (i2cEndPop ws s).bulk = s.bulk := by
  unfold i2cEndPop
  split <;> simp

@[simp] theorem efnEndPop_bulk (ws : List Word) : (efnEndPop ws s).bulk = s.bulk := by
  unfold efnEndPop
  split <;> rfl

@[simp] theorem endPop_bulk (p : Path) (ws : List Word) : (endPop p ws s).bulk = s.bulk := by
  unfold endPop
  split <;> simp

@[simp] theorem serveWaiting_bulk (p : Path) : (serveWaiting p s).bulk = s.bulk := by
  unfold serveWaiting
  split <;> simp [evqDropOldest]

@[simp] theorem pushEntry_bulk (e : EvEntry) : (pushEntry e s).bulk = s.bulk := by
  simp [pushEntry, (evqEnqueue_queueOnly e).bulk, (evqBuffer_queueOnly e).bulk]

@[simp] theorem raiseEvt_bulk (a k : Nat) (detail : Word) : (raiseEvt a k detail s).bulk = s.bulk := by
  simp [raiseEvt, pushEvent]

@[simp] theorem raiseEvt0_bulk (a k : Nat) : (raiseEvt0 a k s).bulk = s.bulk := raiseEvt_bulk s a k 0

/-! ### The store (R290, R295, R296, R299) -/

@[simp] theorem eccLog_bulk (req page : Nat) (ue : Bool) : (eccLog req page ue s).bulk = s.bulk := by
  unfold eccLog
  split <;> simp

@[simp] theorem storeRead_bulk (req k : Nat) : (storeRead req k s).2.bulk = s.bulk := by
  unfold storeRead
  dsimp only
  split <;> simp [eccCorrected, eccUncorrectable]

@[simp] theorem storeReadWords_bulk (req n k : Nat) (s : State) : (storeReadWords req n k s).2.bulk = s.bulk := by
  induction n generalizing k s with
  | zero => rfl
  | succ n ih => simp [storeReadWords, ih]

@[simp] theorem storeWrite_bulk (k : Nat) (w : Word) (poison : Bool) : (storeWrite k w poison s).bulk = s.bulk := rfl

@[simp] theorem storeByte_bulk (req a : Nat) (b : Byte) : (storeByte req a b s).bulk = s.bulk := by
  simp [storeByte, storeMerge]

@[simp] theorem storeBytes_bulk (req n a : Nat) (l : List Byte) (s : State) : (storeBytes req n a l s).bulk = s.bulk := by
  induction n generalizing a l s with
  | zero => rfl
  | succ n ih =>
    cases l with
    | nil => rfl
    | cons b l => simp [storeBytes, ih]

@[simp] theorem freePageOf_bulk (p : Nat) : (freePageOf p s).bulk = s.bulk := by simp [freePageOf, allocAvail]

/-! ### Cadence rings that records taken on EP2 IN and EP3 IN free (R360, R378) -/

@[simp] theorem freeIdle_bulk : (freeIdle s).bulk = s.bulk := by simp [freeIdle]
@[simp] theorem rxOwn_bulk (p : PortId) : (rxOwn p s).bulk = s.bulk := by simp [rxOwn]
@[simp] theorem freeRunOf_bulk (b k : Nat) : (freeRunOf b k s).bulk = s.bulk := by simp [freeRunOf]
@[simp] theorem rxFree_bulk (p : PortId) : (rxFree p s).bulk = s.bulk := by simp [rxFree]
@[simp] theorem queueFree_bulk (q : Fin 18) : (queueFree q s).bulk = s.bulk := by simp [queueFree]
@[simp] theorem broadcastFree_bulk : (broadcastFree s).bulk = s.bulk := by simp [broadcastFree]

@[simp] theorem completeDesc_bulk (q : Fin 18) (d : HeadDesc) : (completeDesc q d s).bulk = s.bulk := by
  unfold completeDesc
  (repeat' split) <;> simp [pushCompletion]

@[simp] theorem completeList_bulk (q : Fin 18) (st : Byte) (l : List HeadDesc) (s : State) :
    (completeList q st l s).bulk = s.bulk := by
  induction l generalizing s with
  | nil => rfl
  | cons d l ih => simp [completeList, ih]

@[simp] theorem completeUnreads_bulk (q : Fin 18) (st : Byte) (n : Nat) (s : State) :
    (completeUnreads q st n s).bulk = s.bulk := by
  induction n generalizing s with
  | zero => rfl
  | succ n ih => simp [completeUnreads, completeUnread, readDesc, ih]

@[simp] theorem completeAll_bulk (q : Fin 18) (st : Byte) : (completeAll q st s).bulk = s.bulk := by simp [completeAll]
@[simp] theorem ringsFree_bulk (p : PortId) : (ringsFree p s).bulk = s.bulk := by simp [ringsFree]
@[simp] theorem rxRelease_bulk (p : PortId) : (rxRelease p s).bulk = s.bulk := by simp [rxRelease]

@[simp] theorem completionRelease_bulk : (completionRelease s).bulk = s.bulk := by
  unfold completionRelease
  split
  · rfl
  next c rest _ =>
    unfold completionFree
    split <;> simp

@[simp] theorem epRelease_bulk (e : Fin 7) (k : Nat) : (epRelease e k s).bulk = s.bulk := by simp [epRelease]

variable {s} {e : Fin 7} {data : List Byte}

/-! ### An endpoint after a change of it -/

theorem ep_modEp_self (s : State) (e : Fin 7) (f : EpBuf → EpBuf) : (s.modEp e f).ep e = f (s.ep e) :=
  Vector.getElem_set_self e.isLt

theorem modEp_speed (s : State) (e : Fin 7) (f : EpBuf → EpBuf) : (s.modEp e f).hub.speed = s.hub.speed := rfl

theorem ep1Read_ep (s : State) (e : Fin 7) : (ep1Read s).ep e = s.ep e := by
  unfold ep1Read
  split <;> rfl

/-! ### OUT packets (R271, R273) -/

/-- A buffer without room in the store takes empty packets only. -/
theorem epPut_ep (h : data.length ≤ s.epFree e) :
    (epPut e data s).ep e = { s.ep e with fill := (s.ep e).fill + data.length } := by
  unfold epPut
  dsimp only
  split
  next h0 =>
    have hnil : data.length = 0 := by
      simp only [State.epFree, h0] at h
      omega
    rw [hnil, Nat.add_zero]
  next =>
    rw [ep_modEp_self, ep_of_bulk (s := s) (by simp)]

theorem epPut_speed (e : Fin 7) (data : List Byte) (s : State) : (epPut e data s).hub.speed = s.hub.speed := by
  unfold epPut
  dsimp only
  split
  · rfl
  · rw [modEp_speed]
    exact speed_of_bulk (by simp)

theorem epTakeIn_ep (h : data.length ≤ s.epFree e) : (epTakeIn e data s).ep e =
    { s.ep e with fill := (s.ep e).fill + data.length, xfers := (s.ep e).xfers ++ [data.length], toggle := !(s.ep e).toggle } := by
  rw [epTakeIn, ep_modEp_self, epPut_ep h]

/-- The hub once an OUT packet has joined its ring: out of IDLE, and a first packet on EP1 OUT has begun a batch (R271, R281). -/
def outTaken (e : Fin 7) (data : List Byte) (s : State) : State :=
  let u := leaveIdle (epTakeIn e data s)
  if e = 1 && u.efn.batch == .idle then u.modEfn fun x => { x with batch := .receiving } else u

theorem outTaken_bulk (e : Fin 7) (data : List Byte) (s : State) : (outTaken e data s).bulk = (epTakeIn e data s).bulk := by
  unfold outTaken
  dsimp only
  split
  · exact leaveIdle_bulk _
  · exact leaveIdle_bulk _

theorem outTaken_ep (h : data.length ≤ s.epFree e) : (outTaken e data s).ep e =
    { s.ep e with fill := (s.ep e).fill + data.length, xfers := (s.ep e).xfers ++ [data.length], toggle := !(s.ep e).toggle } := by
  rw [ep_of_bulk (outTaken_bulk e data s), epTakeIn_ep h]

theorem outTaken_speed (e : Fin 7) (data : List Byte) (s : State) : (outTaken e data s).hub.speed = s.hub.speed :=
  (speed_of_bulk (outTaken_bulk e data s)).trans (epPut_speed e data s)

section outPackets

variable (hu : s.epUp e = true) (ho : epIsOut e = true)
include hu ho

/-- An OUT endpoint of the configured function does not pass over a packet of a length it may have. -/
theorem bulkOut_not_ignored (hm : data.length ≤ s.maxPacket) :
    ¬(!s.epUp e || !epIsOut e || decide (s.maxPacket < data.length)) = true := by
  simp [hu, ho, hm]

theorem bulkOut_halted (hm : data.length ≤ s.maxPacket) (hh : (s.ep e).halted = true) :
    bulkOut e data s = answer .stall s := by
  rw [bulkOut, if_neg (bulkOut_not_ignored hu ho hm), if_pos hh]

theorem bulkOut_open (hm : data.length ≤ s.maxPacket) (hd : e = 3 → s.cad.ep2Discard = false)
    (hh : (s.ep e).halted = false) : bulkOut e data s = if s.epFree e < data.length then answer .nak s else
      answer (if (outTaken e data s).hub.speed == .high && decide (s.epFree e < data.length + 512) then .nyet else .ack)
        (outTaken e data s) := by
  have hdiscard : ¬(decide (e = 3) && s.cad.ep2Discard) = true := by simpa using hd
  rw [bulkOut, if_neg (bulkOut_not_ignored hu ho hm), if_neg (by simp [hh]), if_neg hdiscard]
  rfl

theorem bulkOut_full (hm : data.length ≤ s.maxPacket) (hd : e = 3 → s.cad.ep2Discard = false)
    (hh : (s.ep e).halted = false) (hf : s.epFree e < data.length) : bulkOut e data s = answer .nak s :=
  (bulkOut_open hu ho hm hd hh).trans (if_pos hf)

theorem bulkOut_fits (hm : data.length ≤ s.maxPacket) (hd : e = 3 → s.cad.ep2Discard = false)
    (hh : (s.ep e).halted = false) (hf : data.length ≤ s.epFree e) : bulkOut e data s =
      answer (if s.hub.speed == .high && decide (s.epFree e < data.length + 512) then .nyet else .ack) (outTaken e data s) := by
  rw [bulkOut_open hu ho hm hd hh, if_neg (Nat.not_lt.2 hf), outTaken_speed]

theorem bulkPing_open (hs : s.hub.speed = .high) (hh : (s.ep e).halted = false) :
    bulkPing e s = answer (if 512 ≤ s.epFree e then .ack else .nak) s := by
  simp [bulkPing, hu, ho, hs, hh]

theorem bulkPing_halted (hs : s.hub.speed = .high) (hh : (s.ep e).halted = true) : bulkPing e s = answer .stall s := by
  simp [bulkPing, hu, ho, hs, hh]

end outPackets

/-! ### IN packets (R272, R274, R378) -/

section inPackets

variable (hu : s.epUp e = true) (hi : epIsIn e = true)
include hu hi

theorem bulkIn_halted (hh : (s.ep e).halted = true) : bulkIn e s = answer .stall s := by simp [bulkIn, hu, hi, hh]

theorem bulkIn_empty (hh : (s.ep e).halted = false) (hn : nextPacket e (leaveIdle (epFill e s)) = none) :
    bulkIn e s = answer .nak (leaveIdle (epFill e s)) := by
  simp [bulkIn, hu, hi, hh, hn]

/-- A packet without a poisoned word is sent, and kept until the host acknowledges it. -/
theorem bulkIn_sent {t : State} {n : Nat} (hh : (s.ep e).halted = false) (ht : leaveIdle (epFill e s) = t)
    (hn : nextPacket e t = some n) (hp : epPoisonAt e n t = none) : bulkIn e s =
      let u := (epPeek e 0 n t).2.modEp e fun b => { b with sent := some n }
      answer (.data ((epPeek e 0 n t).1.1.take n) true (u.ep e).toggle) (u.modEp e fun b => { b with poisonRun := 0 }) := by
  simp [bulkIn, hu, hi, hh, ht, hn, hp]

/-- The bytes of an acknowledged packet go; the records it completes, and the batch it lets run, are not of the ring. -/
theorem bulkInAck_ep {n : Nat} (hh : (s.ep e).halted = false) (hs : (s.ep e).sent = some n) :
    ((bulkInAck e s).ep e).sent = none ∧ ((bulkInAck e s).ep e).toggle = (!(s.ep e).toggle) ∧
    ((bulkInAck e s).ep e).fill = (s.ep e).fill - n := by
  have hgo : ¬(!s.epUp e || !epIsIn e || (s.ep e).halted) = true := by simp [hu, hi, hh]
  rw [bulkInAck, if_neg hgo]
  simp only [hs]
  split
  next h2 =>
    subst h2
    rw [ep1Read_ep, ep_modEp_self, ep_modEp_self, epDrop, ep_modEp_self]
    split <;> exact ⟨rfl, rfl, rfl⟩
  next =>
    rw [ep_of_bulk (epRelease_bulk _ _ _), ep_modEp_self, ep_modEp_self, epDrop, ep_modEp_self]
    exact ⟨rfl, rfl, rfl⟩

end inPackets

/-- Settles O43: what a packet is answered is the branch that its endpoint's state selects, and what a taken or acknowledged one
leaves in its ring is read off the ring, which nothing else it moves touches. Where a ring lies in the store is the model's
choice (log 11). -/
theorem bulkPacketsAreAnswered : Obligations.BulkPacketsAreAnswered := by
  unfold Obligations.BulkPacketsAreAnswered
  intro s e hu
  refine ⟨fun ho => ⟨?_, ?_, ?_, ?_, ?_⟩, fun hi => ⟨?_, ?_, ?_, ?_⟩⟩
  · intro data hm hd hh hf
    have hep := outTaken_ep hf
    exact ⟨_, congrArg fin (bulkOut_fits hu ho hm hd hh hf), rfl, congrArg EpBuf.fill hep, congrArg EpBuf.xfers hep,
      congrArg EpBuf.toggle hep⟩
  · exact fun data hm hd hh hf => congrArg fin (bulkOut_full hu ho hm hd hh hf)
  · exact fun data hm hh => congrArg fin (bulkOut_halted hu ho hm hh)
  · exact fun hs hh => congrArg fin (bulkPing_open hu ho hs hh)
  · exact fun hs hh => congrArg fin (bulkPing_halted hu ho hs hh)
  · exact fun t n hh ht hn hp => congrArg fin (bulkIn_sent hu hi hh ht hn hp)
  · rintro _ hh rfl hn
    exact congrArg fin (bulkIn_empty hu hi hh hn)
  · exact fun hh => congrArg fin (bulkIn_halted hu hi hh)
  · exact fun n hh hs => ⟨_, rfl, bulkInAck_ep hu hi hh hs⟩

end Sys2Proof.Machine
end

section
/-! PROOFS. The batches of EP1 (R269, R280 to R285). A batch is taken from its ring and checked whole, its commands run one at a
time, each where nothing holds it, and its response goes to EP1 IN in one piece; each equation is the branch that the state
selects. -/

namespace Sys2Proof.Machine

variable {s : State} {n : Nat}

/-! ### From the ring to the first command (R280, R281) -/

section received

variable {b : (List Byte × Bool) × State} (hr : s.efn.batch = .receiving) (hf : 8 ≤ s.epFree 2)
  (hw : (batchExtent s).1.1 = .whole n) (hb : epPeek 1 0 n (batchExtent s).2 = b)
include hr hf hw hb

/-- A batch that is whole and passes its check is taken from the ring and begins. -/
theorem batchReceived_starts (hk : batchCheck b.1.1 (epTakeOut 1 n b.2).respRoom = none) : batchReceived s =
    (epTakeOut 1 n b.2).modEfn fun e =>
      { e with batch := .executing, bytes := b.1.1, index := 0, off := 8, resp := [], firstErr := 0xFF,
               skipping := bitOf (BitVec.ofNat 32 (leAt b.1.1 3 1)) 0, executed := 0, discardResp := false } := by
  rw [batchReceived, if_neg (by simp [hr, hf])]
  simp only [hw, hb, hk]

/-- One that fails is answered MALFORMED, with its tag and the place of its failure. -/
theorem batchReceived_malformed {k : Byte} (hk : batchCheck b.1.1 (epTakeOut 1 n b.2).respRoom = some k) : batchReceived s =
    efnResume (malformed (((batchExtent s).1.2 ++ [0, 0]).take 2) k (epTakeOut 1 n b.2)) := by
  rw [batchReceived, if_neg (by simp [hr, hf])]
  simp only [hw, hb, hk]

end received

theorem batchAbort_partly (hr : s.efn.batch = .receiving) (hp : (batchExtent s).1.1 = .partly) : batchAbort s =
    batchIdle (efnEvt 3 ((epEmpty 1 (batchExtent s).2).bump F.EFN_ERRCNT_MALFORMED)) := by
  simp only [batchAbort, hr, hp]

/-! ### Commands (R280, R282) -/

theorem batchRmw_clean {w : Word} {u : State} (h : s.batchAt 4 = true) (hg : batchGet s.efn.addr24 s = ((w, false), u)) :
    batchRmw s = batchEnd 0 [] (regWrite .usb s.efn.addr24
      ((w &&& ~~~ BitVec.ofNat 32 s.efn.arg) ||| (s.efn.extra 0 &&& BitVec.ofNat 32 s.efn.arg)) u) := by
  simp [batchRmw, h, hg]

theorem batchRmw_poisoned {w : Word} {u : State} (h : s.batchAt 4 = true) (hg : batchGet s.efn.addr24 s = ((w, true), u)) :
    batchRmw s = batchEnd 3 [] u := by
  simp [batchRmw, h, hg]

theorem batchPoll_clean {w : Word} {u : State} (h : s.batchAt 5 = true) (hg : batchGet s.efn.addr24 s = ((w, false), u))
    (out : Bool) : batchPoll out s = if w &&& s.efn.extra 0 = s.efn.extra 1 then batchEnd 0 [w] u
      else if out then batchEnd 4 [w] u else u := by
  simp [batchPoll, h, hg]

theorem batchKeyed_eq (h : s.batchAt 6 = true) : batchKeyed s = if s.efn.extra 0 = 0x6B1C then
    batchEnd 0 [] (regKeyedWrite .usb s.efn.addr24 (BitVec.ofNat 32 s.efn.arg) s) else batchEnd 5 [] s := if_pos h

/-- Entries that are held are popped at once: only an empty queue is waited for (R277). -/
theorem batchPop_held (h : s.batchAt 8 = true) (hq : s.evq.held ≠ []) (out : Bool) : batchPop out s =
    batchEnd 0 (batchPops s.efn.arg [] s).1 (batchPops s.efn.arg [] s).2 := by
  simp [batchPop, h, hq]

/-! ### Messages of EP1 IN (R283, R284) -/

theorem length_ep1Head (kind status len count : Nat) {tag : List Byte} (first : Byte) (ht : tag.length = 2) :
    (ep1Head kind status tag len count first).length = 8 := by
  simp [ep1Head, ht]

theorem epQueueIn_fits {e : Fin 7} {l : List Byte} (h : l.length ≤ s.epFree e) : (epQueueIn e l s).1 = true := by
  rw [epQueueIn, if_neg (Nat.not_lt.2 h)]

/-- The response of the batch that has run to its end. -/
def batchMessage (e : Efn) : List Byte :=
  ep1Head 1 (if e.firstErr = 0xFF then 0 else 1) (e.bytes.take 2) (8 + e.resp.length) e.executed e.firstErr ++ e.resp

theorem length_batchMessage {e : Efn} (h : 2 ≤ e.bytes.length) : (batchMessage e).length = 8 + e.resp.length := by
  rw [batchMessage, List.length_append, length_ep1Head _ _ _ _ _ (by simp [h])]

theorem batchDone_fits (hc : s.coreUp = true) (hx : s.efn.batch = .executing) (ho : s.efn.batchOver = true)
    (hd : s.efn.discardResp = false) (hr : 8 + s.efn.resp.length ≤ s.epFree 2) (hb : 2 ≤ s.efn.bytes.length) :
    batchDone s = efnResume ((epQueueIn 2 (batchMessage s.efn) s).2.modEfn fun e =>
      { e with batch := .responseUnread, bytes := [], resp := [] }) := by
  have hroom : (epQueueIn 2 (batchMessage s.efn) s).1 = true := epQueueIn_fits (by rw [length_batchMessage hb]; exact hr)
  rw [batchDone, if_neg (by simp [hc, hx, ho]), if_neg (by simp [hd])]
  exact if_pos hroom

theorem evqPush_ready (hu : s.epUp 2 = true) (hp : s.rdB F.EFN_CTRL_EVQ_PUSH = true) (hx : (s.ep 2).xfers = [])
    (hq : s.evq.held ≠ []) (hf : 24 ≤ s.epFree 2) : evqPush s =
      let r := batchPops (min 31 ((s.epFree 2 - 8) / 16)) [] s
      (epQueueIn 2 (ep1Head 2 0 [0, 0] (8 + 16 * (r.1.length / 4)) (r.1.length / 4) 0xFF ++ wordsBytes r.1) r.2).2 :=
  if_pos (by simp [hu, hp, hx, hq, hf])

/-- Settles O44: each clause is the equation of the operation its command runs. That a response waits until EP1 IN has room for
it, and that what a batch held goes on when it ends, are the model's choice (log 56). -/
theorem batchesRunCommandByCommand : Obligations.BatchesRunCommandByCommand := by
  unfold Obligations.BatchesRunCommandByCommand
  intro s
  refine ⟨fun n hr hf hw => ⟨?_, ?_⟩, ?_, ?_, ?_, ?_, ?_, ?_, ?_, ?_, ?_, ?_, ?_, ?_, ?_, ?_, ?_⟩
  · exact fun b hb hk => congrArg fin (batchReceived_starts hr hf hw hb hk)
  · exact fun b k hb hk => congrArg fin (batchReceived_malformed hr hf hw hb hk)
  · exact fun hr hp => congrArg (fun u => fin (efnResume u)) (batchAbort_partly hr hp)
  · exact fun h => congrArg fin (if_pos h)
  · exact fun h => congrArg fin (if_pos h)
  · exact fun h => congrArg fin (if_pos h)
  · exact fun w u h hg => congrArg fin (batchRmw_clean h hg)
  · exact fun w u h hg => congrArg fin (batchRmw_poisoned h hg)
  · exact fun w u out h hg hm => congrArg fin ((batchPoll_clean h hg out).trans (if_pos hm))
  · exact fun w u h hg hm => ⟨congrArg fin ((batchPoll_clean h hg true).trans (if_neg hm)),
      congrArg fin ((batchPoll_clean h hg false).trans (if_neg hm))⟩
  · exact fun h hk => congrArg fin ((batchKeyed_eq h).trans (if_pos hk))
  · exact fun h hk => congrArg fin ((batchKeyed_eq h).trans (if_neg hk))
  · exact fun h => congrArg fin (if_pos h)
  · exact fun out h hq => congrArg fin (batchPop_held h hq out)
  · exact fun hc hx ho hd hr hb => congrArg fin (batchDone_fits hc hx ho hd hr hb)
  · rintro hu hp hx hq hf _ rfl
    exact congrArg fin (evqPush_ready hu hp hx hq hf)
  · exact fun path v h => congrArg fin (efnCarve_applied h)

end Sys2Proof.Machine
end

section
/-! PROOFS. One step of the block and its time bases (R293, R304, R305, R309, R445, R459): a command runs on the rest of the
queue, the tick stands for it on an empty one, and either keeps the sparse data canonical. Every command but the three that
carry a voltage completes. -/

namespace Sys2Proof.Machine

/-! ### A step (R304, R305) -/

theorem step_cons {s : State} {c : Instr} {rest : List Instr} (h : s.pending = c :: rest) :
    step s = exec c { s with pending := rest } := by
  simp only [step, h]

theorem step_nil {s : State} (h : s.pending = []) : step s = .next (tick s) := by
  simp only [step, h]

/-- Settles O1. That a tick stands in place of idling is the model's choice (log 1). -/
theorem stepRunsTheFrontCommand : Obligations.StepRunsTheFrontCommand := by
  unfold Obligations.StepRunsTheFrontCommand
  intro c rest s
  exact ⟨step_cons rfl, step_nil⟩

/-- Settles O2: before any supply is good no register is listed, so each reads its reset word. -/
theorem resetIsCanonicalAndIdle : Obligations.ResetIsCanonicalAndIdle := by
  unfold Obligations.ResetIsCanonicalAndIdle
  exact ⟨rfl, rfl, rfl, rfl, fun _ => rfl⟩

/-! ### What a step keeps -/

theorem sound_of_canonical {s : State} (h : s.canonical = true) : Sound s.pending s := ⟨rfl, h⟩

/-- Settles O3: the command at the front, and the tick, keep what `Sound` says of the state they find. -/
theorem stepKeepsTheStateCanonical : Obligations.StepKeepsTheStateCanonical := by
  unfold Obligations.StepKeepsTheStateCanonical
  intro s t hs ht
  cases hp : s.pending with
  | nil =>
    obtain rfl : tick s = t := by simpa only [step_nil hp, Host.Outcome.next.injEq] using ht
    exact (tick_sound (sound_of_canonical hs)).2
  | cons c rest =>
    have hrest : Sound rest { s with pending := rest } := ⟨rfl, hs⟩
    exact (exec_sound hrest t (step_cons hp ▸ ht)).2

/-! ### Which commands complete (R87, R152, R459) -/

/-- The command carries a voltage beyond the table of R459. -/
def Overstressed (c : Instr) : Prop :=
  (∃ mv, c = .vinOvervoltage mv ∧ 100000 < mv) ∨ (∃ p mv, (c = .ccOvp p mv ∨ c = .sbuOvp p mv) ∧ 58000 < mv)

/-- Only a voltage's limit decides between completing and the fault. -/
theorem exec_completes_or_overstressed (c : Instr) (s : State) :
    (∃ t, exec c s = .next t) ∧ ¬ Overstressed c ∨ exec c s = .fault .stressBeyondRating ∧ Overstressed c := by
  cases c with
  | vinOvervoltage mv =>
    by_cases h : 100000 < mv
    · exact .inr ⟨if_pos h, .inl ⟨mv, rfl, h⟩⟩
    · exact .inl ⟨⟨_, if_neg h⟩, by simp [Overstressed, h]⟩
  | ccOvp p mv =>
    by_cases h : 58000 < mv
    · exact .inr ⟨if_pos h, .inr ⟨p, mv, .inl rfl, h⟩⟩
    · exact .inl ⟨⟨_, if_neg h⟩, by simp [Overstressed, h]⟩
  | sbuOvp p mv =>
    by_cases h : 58000 < mv
    · exact .inr ⟨if_pos h, .inr ⟨p, mv, .inr rfl, h⟩⟩
    · exact .inl ⟨⟨_, if_neg h⟩, by simp [Overstressed, h]⟩
  | _ => exact .inl ⟨⟨_, rfl⟩, by simp [Overstressed]⟩

/-- Settles O4. That a command whose guard fails is a no-op that completes (log 2), and that a stress beyond the table is a
fault (log 14), are the model's choices. -/
theorem commandsCompleteAndLeaveTheQueue : Obligations.CommandsCompleteAndLeaveTheQueue := by
  unfold Obligations.CommandsCompleteAndLeaveTheQueue
  intro c s
  obtain ⟨⟨t, ht⟩, hc⟩ | ⟨hf, hc⟩ := exec_completes_or_overstressed c s
  · exact ⟨.inl ⟨t, ht, fun hs => (exec_sound (sound_of_canonical hs) t ht).1⟩, by simp [ht], fun h => absurd h hc⟩
  · exact ⟨.inr hf, fun _ => hc, fun _ => hf⟩

/-! ### The tick (R305, R309) -/

/-- Below one second a sum of nanoseconds stays; at one it is carried. -/
theorem Tb0.add_units {t : Tb0} {inc : Nat} (hns : t.ns.toNat < 1000000000) (hsec : t.sec.toNat + 1 < 2 ^ 48)
    (hinc : inc ≤ 0x05800000) : (t.add inc).units = t.units + inc ∧ (t.add inc).ns.toNat < 1000000000 := by
  have hfrac : t.frac.toNat < 2 ^ 24 := t.frac.isLt
  simp only [Tb0.add, Tb0.units]
  split
  · simp only [BitVec.toNat_ofNat]
    omega
  · simp only [BitVec.toNat_ofNat, BitVec.toNat_add, show BitVec.toNat (1 : BitVec 48) = 1 from rfl]
    omega

/-- While TIME runs a tick adds the increment of R305 to TB0 and 5 ns to TB1. -/
theorem tick_tim {s : State} (ha : s.aonUp = true) (ht : s.timeUp = true) (hd : s.tim.discOk = true) :
    (tick s).tim.tb0 = s.tim.tb0.add (s.reg R.TIM_TB0_INC).toNat ∧ (tick s).tim.tb1 = s.tim.tb1 + 5 := by
  have hinc : s.incNow = (s.reg R.TIM_TB0_INC).toNat := if_pos hd
  simp only [tick, ha, ht, if_true, tickX32, tickTime, hinc]
  split <;> exact ⟨rfl, rfl⟩

theorem timIncMoved_reg {s : State} (h : s.canonical = true) (hd : s.tim.discOk = true) :
    ((timIncMoved s).reg R.TIM_TB0_INC).toNat = min 0x05800000 (max 0x04800000 (s.reg R.TIM_TB0_INC).toNat) := by
  simp only [timIncMoved, hd, if_true, State.reg_setReg_self h, BitVec.toNat_ofNat]
  omega

/-- Settles O7: the arithmetic of the carry, what a tick on an empty queue adds (log 1), and the range a committed increment is
brought into. -/
theorem tickAdvancesTb0ByTheIncrement : Obligations.TickAdvancesTb0ByTheIncrement := by
  unfold Obligations.TickAdvancesTb0ByTheIncrement
  exact ⟨fun _ _ hns hsec hinc => Tb0.add_units hns hsec hinc,
    fun s hp ha ht hd => ⟨tick s, step_nil hp, tick_tim ha ht hd⟩, rfl,
    fun _ h hd => timIncMoved_reg h hd⟩

end Sys2Proof.Machine
end

section
/-! PROOFS. The central store (R289, R290, R294 to R298, R301): how many of a word's 39 bits are flipped, what a read makes of
them, and what a write leaves in the word. -/

namespace Sys2Proof.Machine

/-! ### Flipped bits (R294) -/

theorem popcount_eq_card {n v : Nat} {S : Finset Nat} (hS : ∀ k ∈ S, k < n) (hv : ∀ k, v.testBit k = decide (k ∈ S)) :
    popcount n v = S.card := by
  have hset : S = ((List.range n).filter fun i => v.testBit i).toFinset := by
    ext k
    simpa [hv] using hS k
  rw [hset, List.toFinset_card_of_nodup (List.nodup_range.filter _), popcount]

theorem popcount_zero (n : Nat) : popcount n 0 = 0 := by simp [popcount]

theorem popcount_two_pow {n i : Nat} (h : i < n) : popcount n (2 ^ i) = 1 :=
  popcount_eq_card (S := {i}) (by simpa using h) (by simp [Nat.testBit_two_pow, eq_comm])

theorem testBit_two_pow_add {i j : Nat} (h : i < j) (k : Nat) :
    (2 ^ j + 2 ^ i).testBit k = decide (k = i ∨ k = j) := by
  have hor : 2 ^ j + 2 ^ i = 2 ^ j ||| 2 ^ i := by
    simpa using Nat.two_pow_add_eq_or_of_lt (Nat.pow_lt_pow_right (by omega) h) 1
  rw [hor, Nat.testBit_or, Nat.testBit_two_pow, Nat.testBit_two_pow, Bool.or_comm, Bool.decide_or]
  simp only [eq_comm]

theorem popcount_two_pow_add {n i j : Nat} (hi : i < n) (hj : j < n) (h : i ≠ j) : popcount n (2 ^ i + 2 ^ j) = 2 := by
  refine (popcount_eq_card (S := {i, j}) (by simp [hi, hj]) fun k => ?_).trans (Finset.card_pair h)
  obtain hlt | hlt := Nat.lt_or_gt_of_ne h
  · rw [Nat.add_comm, testBit_two_pow_add hlt]
    simp
  · rw [testBit_two_pow_add hlt]
    simp [or_comm]

/-- How many of a word's 39 bits are flipped. -/
def StoCell.flips (c : StoCell) : Nat := popcount 32 c.dErr.toNat + popcount 7 c.cErr.toNat

theorem popcount_mod (n v : Nat) : popcount n (v % 2 ^ n) = popcount n v := by
  unfold popcount
  refine congrArg List.length (List.filter_congr fun i hi => ?_)
  simp [Nat.testBit_mod_two_pow, List.mem_range.1 hi]

/-- The flips of the data and those of the check bits, each from its own bit 0 on. -/
theorem flips_flipped (w : Word) (l : List (Fin 39)) : (flipped w l).flips =
    popcount 32 ((l.filter (·.val < 32)).map fun i => 2 ^ i.val).sum +
      popcount 7 ((l.filter (32 ≤ ·.val)).map fun i => 2 ^ (i.val - 32)).sum := by
  rw [← popcount_mod 32, ← popcount_mod 7]
  rfl

theorem flips_none (w : Word) : (flipped w []).flips = 0 := by
  simp [flips_flipped, popcount_zero]

/-- A bit of the data, or of the check bits. -/
theorem flips_one (w : Word) (i : Fin 39) : (flipped w [i]).flips = 1 := by
  have hc : i.val - 32 < 7 := by omega
  by_cases h : i.val < 32
  · simp [flips_flipped, h, Nat.not_le.2 h, popcount_zero, popcount_two_pow h]
  · simp [flips_flipped, h, Nat.not_lt.1 h, popcount_zero, popcount_two_pow hc]

/-- Two bits of the data, one of each, or two of the check bits. -/
theorem flips_two (w : Word) {i j : Fin 39} (hij : i ≠ j) : (flipped w [i, j]).flips = 2 := by
  have hne : i.val ≠ j.val := Fin.val_ne_of_ne hij
  have hci : i.val - 32 < 7 := by omega
  have hcj : j.val - 32 < 7 := by omega
  by_cases hi : i.val < 32 <;> by_cases hj : j.val < 32
  · simp [flips_flipped, hi, hj, Nat.not_le.2 hi, Nat.not_le.2 hj, popcount_zero, popcount_two_pow_add hi hj hne]
  · simp [flips_flipped, hi, hj, Nat.not_le.2 hi, Nat.not_lt.1 hj, popcount_two_pow hi, popcount_two_pow hcj]
  · simp [flips_flipped, hi, hj, Nat.not_lt.1 hi, Nat.not_le.2 hj, popcount_two_pow hj, popcount_two_pow hci]
  · have hc : i.val - 32 ≠ j.val - 32 := by omega
    simp [flips_flipped, hi, hj, Nat.not_lt.1 hi, Nat.not_lt.1 hj, popcount_zero, popcount_two_pow_add hci hcj hc]

/-! ### What a read makes of a word (R294 to R296) -/

theorem eccClass_of_flips_zero {c : StoCell} (h : c.flips = 0) : eccClass c = .clean := by
  rw [StoCell.flips] at h
  simp [eccClass, h]

theorem eccClass_of_flips_one {c : StoCell} (h : c.flips = 1) : eccClass c = .corrected := by
  rw [StoCell.flips] at h
  simp [eccClass, h]

theorem eccClass_of_flips_two {c : StoCell} (h : c.flips = 2) : eccClass c = .uncorrectable := by
  rw [StoCell.flips] at h
  simp [eccClass, h]

/-- The data of a word with flips is the word with its data flips. -/
theorem eccFixed_flipped {w : Word} {l : List (Fin 39)} (h : (flipped w l).flips ≤ 1) : eccFixed (flipped w l) = w := by
  have hdata : (flipped w l).data ^^^ (flipped w l).dErr = w := by
    simp only [flipped, BitVec.xor_assoc, BitVec.xor_self, BitVec.xor_zero]
  exact (if_pos h).trans hdata

theorem storeRead_clean {s : State} {k : Nat} (req : Nat) (h : eccClass (s.cell k) = .clean) :
    storeRead req k s = (((s.cell k).data, false), s) := by
  simp only [storeRead, h]

theorem storeRead_corrected {s : State} {k : Nat} (req : Nat) (h : eccClass (s.cell k) = .corrected) :
    storeRead req k s = ((eccFixed (s.cell k), false), eccCorrected req k (eccFixed (s.cell k)) s) := by
  simp only [storeRead, h]

theorem storeRead_uncorrectable {s : State} {k : Nat} (req : Nat) (h : eccClass (s.cell k) = .uncorrectable) :
    storeRead req k s = (((s.cell k).data, true), eccUncorrectable req k s) := by
  simp only [storeRead, h]

/-- Settles O5: the number of flipped bits decides how a read is classified. -/
theorem eccCorrectsOneBitAndDetectsTwo : Obligations.EccCorrectsOneBitAndDetectsTwo := by
  unfold Obligations.EccCorrectsOneBitAndDetectsTwo
  intro w req k s
  refine ⟨fun i hk => ?_, fun i j hij hk => ?_, fun hk => ?_⟩
  · have hclass : eccClass (s.cell k) = .corrected := hk ▸ eccClass_of_flips_one (flips_one w i)
    refine ⟨?_, hclass⟩
    rw [storeRead_corrected req hclass, hk, eccFixed_flipped (flips_one w i).le]
  · have hclass : eccClass (s.cell k) = .uncorrectable := hk ▸ eccClass_of_flips_two (flips_two w hij)
    exact ⟨by rw [storeRead_uncorrectable req hclass], hclass⟩
  · have hclass : eccClass (s.cell k) = .clean := hk ▸ eccClass_of_flips_zero (flips_none w)
    rw [storeRead_clean req hclass, hk]
    simp [flipped]

/-! ### What a write leaves in a word (R290, R298) -/

theorem eccClass_cleanCell (w : Word) : eccClass (cleanCell w) = .clean :=
  eccClass_of_flips_zero (by simp [StoCell.flips, cleanCell, popcount_zero])

theorem storeMerge_cell {s : State} {k : Nat} (req : Nat) (mask w : Word) (h : s.canonical = true) :
    (storeMerge req k mask w s).cell k = (if (storeRead req k s).1.2 then poisonCell else cleanCell)
      (((storeRead req k s).1.1 &&& ~~~mask) ||| (w &&& mask)) := by
  have hread : (storeRead req k s).2.canonical = true := (storeRead_sound (sound_of_canonical h)).2
  rw [storeMerge, storeWrite, State.cell_setCell_self hread]
  split <;> rfl

/-- Settles O6: a full word takes its place alone, and a shorter write stores the read it merged, poisoned as it was read. -/
theorem writesStoreFreshCheckBitsOrMerge : Obligations.WritesStoreFreshCheckBitsOrMerge := by
  unfold Obligations.WritesStoreFreshCheckBitsOrMerge
  intro s k req w mask h
  refine ⟨State.cell_setCell_self h, eccClass_cleanCell w, fun j hj => State.cell_setCell_other h hj, ?_, ?_, ?_⟩
  · rintro _ rfl hclass
    rw [storeMerge_cell req mask w h, storeRead_clean req hclass]
    rfl
  · rintro _ rfl hclass
    rw [storeMerge_cell req mask w h, storeRead_corrected req hclass]
    rfl
  · rintro _ rfl hclass
    rw [storeMerge_cell req mask w h, storeRead_uncorrectable req hclass]
    rfl

/-! ### The store window (R289, R290, R295 to R297, R301) -/

variable {s t : State} {path : Path} {addr : BitVec 19}

theorem inWindow_windowAt (addr : BitVec 19) : inWindow (windowAt addr) = true :=
  decide_eq_true (by unfold windowAt; omega)

theorem windowAt_sub (addr : BitVec 19) : windowAt addr - 0x100000 = addr.toNat / 4 * 4 := by
  simp only [windowAt]
  omega

/-- The window lies above every port's block. -/
theorem touchDomain_windowAt (addr : BitVec 19) (s : State) : touchDomain (windowAt addr) s = s := by
  have hport : addrPort (windowAt addr) = none := dif_neg (by simp only [windowAt]; omega)
  simp only [touchDomain, hport]

/-- A read of the window ends IDLE, then reads the word. -/
theorem readAt_window (hr : s.reaches path (windowAt addr) = true) : readAt path (windowAt addr) s =
    (windowGet path (windowAt addr) (leaveIdle s)).2 := by
  rw [readAt, if_pos hr, regRead, touchDomain_windowAt]
  exact congrArg Prod.snd (if_pos (inWindow_windowAt addr))

theorem windowRead_windowAt (path : Path) (addr : BitVec 19) (s : State) :
    windowRead path (windowAt addr - 0x100000) s = storeRead (pathReq path) (addr.toNat / 4) s := by
  rw [windowRead, windowAt_sub, Nat.mul_div_cancel _ (by decide)]

theorem windowGet_unpoisoned {w : Word} (hk : storeRead (pathReq path) (addr.toNat / 4) s = ((w, false), t)) :
    (windowGet path (windowAt addr) s).2 = t := by
  simp [windowGet, windowRead_windowAt, hk]

theorem windowGet_poisoned {w : Word} (hk : storeRead (pathReq path) (addr.toNat / 4) s = ((w, true), t)) :
    (windowGet path (windowAt addr) s).2 =
      raiseFault { src := poisonSrc path, addr := windowAt addr, req := pathReq path, acc := 1 } t := by
  simp [windowGet, windowRead_windowAt, hk]

/-- A write of the window re-arms the path's lockring and ends IDLE, then writes the word. -/
theorem writeAt_window (v : Word) (hr : s.reaches path (windowAt addr) = true) : writeAt path (windowAt addr) v s =
    windowWrite path (addr.toNat / 4 * 4) v (leaveIdle (s.modPath path fun x => { x with lockOpen := false })) := by
  rw [writeAt_of_reaches hr, regWrite, rearmed, touchDomain_windowAt, ← windowAt_sub]
  exact if_pos (inWindow_windowAt addr)

theorem leaveIdle_sto : (leaveIdle s).sto = s.sto := by
  unfold leaveIdle
  split <;> rfl

theorem windowWrite_unarmed {a : Nat} (v : Word) (h : s.sto.armed ≠ some path) :
    windowWrite path a v s = s.setCell (a / 4) (cleanCell v) := if_neg h

/-- Settles O45: the read's class and the armed flip choose the branch. -/
theorem storeWindowReadsCorrectsAndPoisons : Obligations.StoreWindowReadsCorrectsAndPoisons := by
  unfold Obligations.StoreWindowReadsCorrectsAndPoisons
  rintro s path addr _ rfl hr
  refine ⟨fun hc => ?_, ?_, fun hc => ?_, fun v ha => ?_, fun v ha => congrArg fin (writeAt_window v hr)⟩
  · exact congrArg fin ((readAt_window hr).trans (windowGet_unpoisoned (storeRead_clean _ hc)))
  · rintro _ rfl hc
    exact congrArg fin ((readAt_window hr).trans (windowGet_unpoisoned (storeRead_corrected _ hc)))
  · exact congrArg fin ((readAt_window hr).trans (windowGet_poisoned (storeRead_uncorrectable _ hc)))
  · have hu : (leaveIdle (s.modPath path fun x => { x with lockOpen := false })).sto.armed ≠ some path := by
      rw [leaveIdle_sto]
      cases path <;> exact ha
    have hw := windowWrite_unarmed (a := addr.toNat / 4 * 4) v hu
    rw [Nat.mul_div_cancel _ (by decide)] at hw
    exact congrArg fin ((writeAt_window v hr).trans hw)

end Sys2Proof.Machine
end

section
/-! PROOFS. Reads and commands of the time bases (R310, R311, R315, R316, R318 to R321): what a read latches for its path, and
what each command comes to in the state it finds. -/

namespace Sys2Proof.Machine

/-! ### Reading a map after a run of writes -/

section setSeq

variable {β : Type} [DecidableEq β] {d : Nat → β} {n k j i : Nat} {vs : List β} {m : SMap β}

theorem SMap.get_setSeq_before (h : SMap.wf d m = true) (hj : j < k) :
    SMap.get d (SMap.setSeq d n m k vs) j = SMap.get d m j := by
  induction vs generalizing m k with
  | nil => rfl
  | cons v vs ih => exact (ih (SMap.wf_set h) (by omega)).trans (SMap.get_set_other h (by omega))

theorem SMap.get_setSeq_at {x : β} (h : SMap.wf d m = true) (hn : 0 < n) (hi : vs[i]? = some x) :
    SMap.get d (SMap.setSeq d n m k vs) (k + n * i) = x := by
  induction vs generalizing m k i with
  | nil => simp at hi
  | cons v vs ih =>
    cases i with
    | zero =>
      obtain rfl : v = x := by simpa using hi
      exact (SMap.get_setSeq_before (SMap.wf_set h) (by omega)).trans (SMap.get_set_self h)
    | succ i =>
      rw [show k + n * (i + 1) = k + n + n * i by rw [Nat.mul_succ]; omega]
      exact ih (SMap.wf_set h) (by simpa using hi)

end setSeq

variable {s : State} {path : Path}

theorem latch_latchSeq (path : Path) (a : Nat) (ws : List Word) (s : State) :
    ((latchSeq path a ws s).path path).latch = SMap.setSeq (fun _ => 0) 4 (s.path path).latch a ws := by
  rw [latchSeq, State.path_modPath_self]

theorem readValue_latched {a : Nat} (h : latched a = true) :
    s.readValue path a = (s.path path).latch.get (fun _ => 0) a := if_pos h

/-! ### Reads that latch (R319, R320) -/

theorem regRead_TIM_TB0_NS (path : Path) (s : State) :
    regRead path R.TIM_TB0_NS s = gotWord (tb0Read path (leaveIdle s)) := rfl

theorem regRead_TIM_TB3_LO (path : Path) (s : State) :
    regRead path R.TIM_TB3_LO s = gotWord (tb3Read path (leaveIdle s)) := rfl

theorem regRead_TIM_CAP_STAT (path : Path) (k : Fin 3) (s : State) :
    regRead path (R.TIM_CAP_STAT k) s = gotWord (capRead path k (leaveIdle s)) := by
  fin_cases k <;> rfl

theorem readAt_TIM_TB0_NS (h : s.reaches path R.TIM_TB0_NS = true) :
    readAt path R.TIM_TB0_NS s = (tb0Read path (leaveIdle s)).2 := by
  rw [readAt, if_pos h, regRead_TIM_TB0_NS, gotWord]

theorem readAt_TIM_TB3_LO (h : s.reaches path R.TIM_TB3_LO = true) :
    readAt path R.TIM_TB3_LO s = (tb3Read path (leaveIdle s)).2 := by
  rw [readAt, if_pos h, regRead_TIM_TB3_LO, gotWord]

theorem readAt_TIM_CAP_STAT {k : Fin 3} (h : s.reaches path (R.TIM_CAP_STAT k) = true) :
    readAt path (R.TIM_CAP_STAT k) s = (capRead path k (leaveIdle s)).2 := by
  rw [readAt, if_pos h, regRead_TIM_CAP_STAT, gotWord]

/-- The two runs that a read of TIM_TB0_NS latches lie on either side of TIM_TB0_NS itself. -/
theorem tb0Read_latches (hw : (s.path path).latch.wf (fun _ => 0) = true) :
    (tb0Read path s).2.readValue path R.TIM_TB0_SHI = BitVec.ofNat 32 (s.tim.tb0.sec.toNat / 2 ^ 32) ∧
    (tb0Read path s).2.readValue path R.TIM_TB0_SLO = BitVec.ofNat 32 s.tim.tb0.sec.toNat ∧
    (tb0Read path s).2.readValue path R.TIM_TB0_FRAC = BitVec.ofNat 32 s.tim.tb0.frac.toNat ∧
    (tb0Read path s).2.readValue path R.TIM_TB1_LO = BitVec.ofNat 32 s.tim.tb1.toNat ∧
    (tb0Read path s).2.readValue path R.TIM_TB1_HI = BitVec.ofNat 32 (s.tim.tb1.toNat / 2 ^ 32) := by
  have hw' := SMap.wf_setSeq (n := 4) (k := R.TIM_TB0_SHI)
    (vs := [BitVec.ofNat 32 (s.tim.tb0.sec.toNat / 2 ^ 32), BitVec.ofNat 32 s.tim.tb0.sec.toNat]) hw
  simp only [readValue_latched (show latched R.TIM_TB0_SHI = true by decide),
    readValue_latched (show latched R.TIM_TB0_SLO = true by decide),
    readValue_latched (show latched R.TIM_TB0_FRAC = true by decide),
    readValue_latched (show latched R.TIM_TB1_LO = true by decide),
    readValue_latched (show latched R.TIM_TB1_HI = true by decide), tb0Read, latch_latchSeq]
  refine ⟨?_, ?_, ?_, ?_, ?_⟩
  · exact (SMap.get_setSeq_before hw' (by decide)).trans (SMap.get_setSeq_at (i := 0) hw (by decide) rfl)
  · exact (SMap.get_setSeq_before hw' (by decide)).trans (SMap.get_setSeq_at (i := 1) hw (by decide) rfl)
  · exact SMap.get_setSeq_at (i := 0) hw' (by decide) rfl
  · exact SMap.get_setSeq_at (i := 1) hw' (by decide) rfl
  · exact SMap.get_setSeq_at (i := 2) hw' (by decide) rfl

theorem tb3Read_latches (hw : (s.path path).latch.wf (fun _ => 0) = true) :
    (tb3Read path s).2.readValue path R.TIM_TB3_HI = BitVec.ofNat 32 (s.tim.tb3.toNat / 2 ^ 32) := by
  rw [readValue_latched (by decide), tb3Read, latch_latchSeq]
  exact SMap.get_setSeq_at (i := 0) hw (by decide) rfl

/-- Settles O8: a read returns the time it samples, and the registers it latches read it back on its path. -/
theorem timeReadsLatchForTheirPath : Obligations.TimeReadsLatchForTheirPath := by
  unfold Obligations.TimeReadsLatchForTheirPath
  rintro s path _ rfl hw
  refine ⟨fun hr => ⟨?_, _, congrArg fin (readAt_TIM_TB0_NS hr), tb0Read_latches hw⟩,
    fun hr => ⟨?_, _, congrArg fin (readAt_TIM_TB3_LO hr), tb3Read_latches hw⟩⟩
  · rw [regRead_TIM_TB0_NS]
    rfl
  · rw [regRead_TIM_TB3_LO]
    rfl

/-! ### UNDISC and TPULSE (R310, R311, R321) -/

theorem setUndisc_clear (h : s.tim.undisc = false) :
    setUndisc s = raiseEvt0 R.TIM_EVT 5 { s with tim := { s.tim with undisc := true } } :=
  if_neg (by simp [h])

theorem holdoverExpire_running (hh : s.rdB F.TIM_CTRL_HOLDOVER = true) (ht : s.timeUp = true) :
    holdoverExpire s = setUndisc s := if_pos (by simp [hh, ht])

theorem tpStart_mode_ne_3 (h : s.tpMode ≠ 3) :
    tpStart s = { s with tim := { s.tim with tpPulse := true, tpNext := s.tb0.sec + 1 } } := if_neg h

theorem tpStart_mode_3 (h : s.tpMode = 3) : tpStart s =
    ({ s with tim := { s.tim with tpPulse := true, tpNext := s.tb0.sec + 1 } } : State).wr F.TIM_TP_AT_NS_ARM 0 := if_pos h

theorem tpDue_mode_2 (h : s.tpMode = 2) (hn : s.tim.tpNext ≤ s.tb0.sec) : s.tpDue.isSome = true := by
  simp [State.tpDue, h, hn]

theorem tpDue_mode_3 (h : s.tpMode = 3) (ha : s.rdB F.TIM_TP_AT_NS_ARM = true) (hd : tbLe s.tpAt s.tb0 = true) :
    s.tpDue.isSome = true := by
  simp [State.tpDue, h, ha, hd]

theorem tpFire_due (ht : s.timeUp = true) (hd : s.tpDue.isSome = true) : tpFire s = tpStart s :=
  if_pos (by simp [ht, hd])

/-- The edge away from the level TP_POL gives. -/
theorem tpEdge_capture {r : Bool} (ht : s.timeUp = true) (hm : s.tpMode = 1) (hp : s.rdB F.TIM_CTRL_TP_POL = !r) :
    tpEdge r s = raiseEvt0 R.TIM_EVT 0 (timCapture 0 0 s) :=
  if_pos (by simp [ht, hm, hp])

theorem timSwCap_set (v : Word) (ht : s.timeUp = true) :
    timSwCap (setBit v 0) s = timCapture 2 (BitVec.ofNat 32 s.tb3) s :=
  if_pos (by simp [bitOf_setBit_self, ht])

/-! ### The re-advance (R316) -/

theorem EventOnly.tim {t : State} (h : EventOnly s t) : t.tim = s.tim := by
  obtain ⟨_, _, _, _, _, _, _, _, _, rfl⟩ := h
  rfl

/-- UNDISC is set, with its event where it was clear; the rest of the time bases is as it was. -/
theorem setUndisc_tim (s : State) : (setUndisc s).tim = { s.tim with undisc := true } := by
  by_cases h : s.tim.undisc = true
  · rw [setUndisc, if_pos h, ← h]
  · rw [setUndisc_clear (by simpa using h), (raiseEvt0_eventOnly _ _).tim]

/-- The time bases once they have advanced by the X32 periods since the shadow, UNDISC apart. -/
def Tim.readvanced (t : Tim) : Tim :=
  let d := (t.tb3 - t.shadow3).toNat
  let f := ((t.shadow0.sec.toNat * 1000000000 + t.shadow0.ns.toNat) * 2 ^ 24 + t.shadow0.frac.toNat) + d * (3906250 * 2 ^ 17)
  { t with tb0 := tb0Of (f / 2 ^ 24) (BitVec.ofNat 24 f), tb1 := t.shadow1 + BitVec.ofNat 64 (d * 3906250 / 128),
           readvance := false, tpNext := f / 2 ^ 24 / 1000000000 + 1 }

theorem tbReadvance_due (hr : s.tim.readvance = true) (hx : s.pwr.x24Run = true) :
    tbReadvance s = setUndisc { s with tim := s.tim.readvanced } := if_pos (by simp [hr, hx])

theorem tbReadvance_tim (hr : s.tim.readvance = true) (hx : s.pwr.x24Run = true) :
    (tbReadvance s).tim.readvance = false ∧ (tbReadvance s).tim.undisc = true ∧
    (tbReadvance s).tim.tb1 =
      s.tim.shadow1 + BitVec.ofNat 64 ((s.tim.tb3 - s.tim.shadow3).toNat * 3906250 / 128) := by
  have htim : (tbReadvance s).tim = { s.tim.readvanced with undisc := true } := by
    rw [tbReadvance_due hr hx, setUndisc_tim]
  rw [htim]
  exact ⟨rfl, rfl, rfl⟩

/-- Settles O48: each clause is the equation of the operation the command runs. That the events of the time bases arrive as
commands of their own, while the tick moves the bases alone, is the model's choice (logs 1, 3). -/
theorem timeBaseCommandsAct : Obligations.TimeBaseCommandsAct := by
  unfold Obligations.TimeBaseCommandsAct
  rintro s path _ rfl
  refine ⟨?_, ?_, ?_, rfl, ?_, ?_, ?_, ?_, ?_, ?_, ?_⟩
  · exact fun hh ht hu => congrArg fin ((holdoverExpire_running hh ht).trans (setUndisc_clear hu))
  · exact fun ht hm hn => congrArg fin ((tpFire_due ht (tpDue_mode_2 hm hn)).trans (tpStart_mode_ne_3 (by omega)))
  · exact fun ht hm ha hd => congrArg fin ((tpFire_due ht (tpDue_mode_3 hm ha hd)).trans (tpStart_mode_3 hm))
  · exact fun r ht hm hp => congrArg fin (tpEdge_capture ht hm hp)
  · rintro v _ hr rfl ht
    exact congrArg fin ((write_TIM_CMD hr).trans (timSwCap_set v ht))
  · exact fun k hr => congrArg fin (readAt_TIM_CAP_STAT hr)
  · exact fun hr => congrArg fin (readAt_TIM_TB0_NS hr)
  · exact fun hr => congrArg fin (readAt_TIM_TB3_LO hr)
  · exact fun ha => congrArg fin (if_pos ha)
  · exact fun hr hx => ⟨tbReadvance s, rfl, tbReadvance_tim hr hx⟩

end Sys2Proof.Machine
end

section
/-! PROOFS. Received frames of the Cadence Link (R333 to R339, R343, R344, R351 to R353, R359): the fields of a frame the hub
builds, the receiver's checks, and where the two routing rules send a good frame. -/

namespace Sys2Proof.Machine

/-! ### The fields of a frame (R333, R334) -/

theorem leNat_lt (l : List Byte) : leNat l < 256 ^ l.length := by
  induction l with
  | nil => exact Nat.one_pos
  | cons b l ih =>
    have hb : b.toNat < 256 := b.isLt
    simp only [leNat, List.length_cons, Nat.pow_succ']
    omega

theorem beAt_lt (l : List Byte) (k n : Nat) : beAt l k n < 256 ^ n := by
  refine (leNat_lt _).trans_le (Nat.pow_le_pow_right (by decide) ?_)
  rw [List.length_reverse, slice, List.length_take]
  exact Nat.min_le_left ..

/-- A number between two lists reads back, cut to its bytes. -/
theorem beAt_beBytes {l : List Byte} {k n : Nat} (v : Nat) (m : List Byte) (h : l.length = k) :
    beAt (l ++ (beBytes n v ++ m)) k n = v % 256 ^ n := by
  rw [beAt, slice, List.drop_left' h, List.take_left' (length_beBytes n v), beNat_beBytes]

section fields

variable (ty flags seq route src hop corr : Nat) (pl : List Byte)

theorem frType_mkFrame : frType (mkFrame ty flags seq route src hop corr pl) = ty % 256 := by
  simpa [mkFrame, frType] using beAt_beBytes (l := []) (n := 1) ty _ rfl

theorem frFlags_mkFrame : frFlags (mkFrame ty flags seq route src hop corr pl) = flags % 256 := by
  simpa [mkFrame, frFlags] using beAt_beBytes (l := beBytes 1 ty) (n := 1) flags _ (by simp)

theorem frSeq_mkFrame : frSeq (mkFrame ty flags seq route src hop corr pl) = seq % 2 ^ 16 := by
  simpa [mkFrame, frSeq] using beAt_beBytes (l := beBytes 1 ty ++ beBytes 1 flags) (n := 2) seq _ (by simp)

theorem frRoute_mkFrame : frRoute (mkFrame ty flags seq route src hop corr pl) = route % 2 ^ 24 := by
  simpa [mkFrame, frRoute] using
    beAt_beBytes (l := beBytes 1 ty ++ beBytes 1 flags ++ beBytes 2 seq) (n := 3) route _ (by simp)

theorem frLen_mkFrame : frLen (mkFrame ty flags seq route src hop corr pl) = pl.length % 256 := by
  simpa [mkFrame, frLen] using beAt_beBytes (l := beBytes 1 ty ++ beBytes 1 flags ++ beBytes 2 seq ++ beBytes 3 route ++
    beBytes 3 src) (n := 1) pl.length _ (by simp)

theorem frHop_mkFrame : frHop (mkFrame ty flags seq route src hop corr pl) = hop % 256 := by
  simpa [mkFrame, frHop] using beAt_beBytes (l := beBytes 1 ty ++ beBytes 1 flags ++ beBytes 2 seq ++ beBytes 3 route ++
    beBytes 3 src ++ beBytes 1 pl.length) (n := 1) hop _ (by simp)

theorem frCorr_mkFrame : frCorr (mkFrame ty flags seq route src hop corr pl) = corr % 2 ^ 48 := by
  simpa [mkFrame, frCorr] using beAt_beBytes (l := beBytes 1 ty ++ beBytes 1 flags ++ beBytes 2 seq ++ beBytes 3 route ++
    beBytes 3 src ++ beBytes 1 pl.length ++ beBytes 1 hop) (n := 6) corr _ (by simp)

theorem frPayload_mkFrame : frPayload (mkFrame ty flags seq route src hop corr pl) = pl :=
  List.drop_left' (by simp)

end fields

/-! ### Answers (R344, R352) -/

variable {s : State} {t : TbTime} {rx1 : BitVec 64} {l : List Byte} {p : PortId}

/-- The answer to an ECHO carries its SEQ, its LEN and its payload, and asks for no answer itself (R344). -/
theorem echoReply_fields (p : PortId) (route hop : Nat) (s : State) (hlen : frLen l = (frPayload l).length)
    (h64 : frLen l ≤ 64) : ∃ r, echoReply p route hop l s = cadSendOn p 0 r s ∧ frType r = 0x3F ∧ frSeq r = frSeq l ∧
      frLen r = frLen l ∧ frPayload r = frPayload l ∧ frFlag r 2 = false ∧ frRoute r = route % 2 ^ 24 := by
  have hseq : frSeq l < 2 ^ 16 := beAt_lt l 2 2
  refine ⟨_, rfl, frType_mkFrame .., ?_, ?_, frPayload_mkFrame .., ?_, frRoute_mkFrame ..⟩
  · rw [frSeq_mkFrame, Nat.mod_eq_of_lt hseq]
  · rw [frLen_mkFrame, ← hlen, Nat.mod_eq_of_lt (by omega)]
  · simp [frFlag, frFlags_mkFrame]

theorem routeMode_zero_mod : routeMode (0 % 2 ^ 24) = 0 := rfl

/-- The answer to a DELAY_REQ carries the receive stamp, the request's SEQ and its CORR (R352). -/
theorem delayAnswer_fields (p : PortId) (route : Nat) (s : State) (hsec : t.sec < 2 ^ 48) (hns : t.ns < 2 ^ 32) :
    ∃ r, delayAnswer p t route l s = cadSendOn p 0 r (s.modCad fun c => { c with seqResp := c.seqResp + 1 }) ∧
      frType r = 3 ∧ beAt (frPayload r) 0 6 = t.sec ∧ beAt (frPayload r) 6 4 = t.ns ∧
      beAt (frPayload r) 10 2 = frSeq l ∧ frCorr r = frCorr l ∧ frRoute r = route % 2 ^ 24 ∧ frHop r = s.tier + 1 ∧
      frFlag r 3 = false := by
  have hseq : frSeq l < 2 ^ 16 := beAt_lt l 2 2
  have hcorr : frCorr l < 2 ^ 48 := beAt_lt l 12 6
  have htier : s.tier < 6 := s.cad.tier.isLt
  refine ⟨_, rfl, frType_mkFrame .., ?_, ?_, ?_, ?_, frRoute_mkFrame .., ?_, ?_⟩
  · refine Eq.trans ?_ (Nat.mod_eq_of_lt hsec)
    simpa [frPayload_mkFrame] using beAt_beBytes (l := []) (n := 6) t.sec _ rfl
  · refine Eq.trans ?_ (Nat.mod_eq_of_lt hns)
    simpa [frPayload_mkFrame] using beAt_beBytes (l := beBytes 6 t.sec) (k := 6) (n := 4) t.ns _ (by simp)
  · refine Eq.trans ?_ (Nat.mod_eq_of_lt hseq)
    simpa [frPayload_mkFrame] using
      beAt_beBytes (l := beBytes 6 t.sec ++ beBytes 4 t.ns) (k := 10) (n := 2) (frSeq l) _ (by simp)
  · rw [frCorr_mkFrame, Nat.mod_eq_of_lt hcorr]
  · rw [frHop_mkFrame, Nat.mod_eq_of_lt (by omega)]
  · simp [frFlag, frFlags_mkFrame]

/-! ### Uplink frames (R339, R352) -/

theorem upRx_sync (p : PortId) (h : frType l = 1) : upRx p t rx1 l s = routeErr p s := if_pos (by simp [h])

theorem upRx_link_echo (p : PortId) (hty : frType l = 0x3F) (hm : routeMode (frRoute l) = 0) (ha : frFlag l 2 = true) :
    upRx p t rx1 l s = echoReply p 0 (s.tier + 1) l s := by
  simp [upRx, hty, hm, ha]

theorem upRx_link_unasked (p : PortId) (hty : frType l ≠ 1) (hm : routeMode (frRoute l) = 0) (ha : frFlag l 2 = false) :
    upRx p t rx1 l s = cadDeliver p t l s := by
  simp [upRx, hty, hm, ha]

theorem upRx_unaccepted (p : PortId) (hty : frType l ≠ 1) (hm : routeMode (frRoute l) ≠ 0)
    (hu : upAccepted s.tier (routeMode (frRoute l)) = false) : upRx p t rx1 l s = routeErr p s := by
  simp [upRx, hty, hm, hu]

theorem upRx_delayReq (p : PortId) (hty : frType l = 2) (hm : routeMode (frRoute l) ≠ 0)
    (hu : upAccepted s.tier (routeMode (frRoute l)) = true) (hc : s.cadTransparent = false) :
    upRx p t rx1 l s = delayAnswer p t (upFinish p s.tier (frRoute l)) l s := by
  simp [upRx, hty, hm, hu, hc]

/-- A root ends every accepted frame. -/
theorem upRx_root_echo (p : PortId) (hty : frType l = 0x3F) (hm : routeMode (frRoute l) ≠ 0)
    (hu : upAccepted s.tier (routeMode (frRoute l)) = true) (hr : s.cadRoot = true) (ha : frFlag l 2 = true) :
    upRx p t rx1 l s = echoReply p (upFinish p s.tier (frRoute l)) (s.tier + 1) l s := by
  simp [upRx, hty, hm, hu, hr, ha]

theorem puEnds_echo (hty : frType l = 0x3F) (ha : frFlag l 2 = true) :
    puEnds t l s = echoReply PU (if routeMode (frRoute l) = 0 then 0 else s.upRoute) 0 l s :=
  if_pos (by simp [hty, ha])

/-- Settles O10: each branch that answers is the answer's frame, field by field. -/
theorem echoAndDelayRequestsAreAnswered : Obligations.EchoAndDelayRequestsAreAnswered := by
  unfold Obligations.EchoAndDelayRequestsAreAnswered
  intro s t rx1 l hlen h64
  refine ⟨fun hty ha => ⟨fun hm p => ?_, fun hm => ?_, fun hm => ?_, fun hm hu hr p => ?_⟩, fun hty hm hu hc hsec hns p => ?_⟩
  · obtain ⟨r, hr, hrty, hseq, hrlen, hpl, hflag, hroute⟩ := echoReply_fields p 0 (s.tier + 1) s hlen h64
    exact ⟨r, (upRx_link_echo p hty hm ha).trans hr, hrty, hseq, hrlen, hpl, hflag, congrArg routeMode hroute⟩
  · obtain ⟨r, hr, hrty, hseq, hrlen, hpl, hflag, hroute⟩ := echoReply_fields PU 0 0 s hlen h64
    rw [puEnds_echo hty ha, if_pos hm]
    exact ⟨r, hr, hrty, hseq, hrlen, hpl, hflag, congrArg routeMode hroute⟩
  · obtain ⟨r, hr, hrty, hseq, -, hpl, hflag, hroute⟩ := echoReply_fields PU s.upRoute 0 s hlen h64
    rw [puEnds_echo hty ha, if_neg hm]
    exact ⟨r, hr, hrty, hseq, hpl, hflag, hroute⟩
  · obtain ⟨r, hrep, hrty, hseq, -, hpl, hflag, hroute⟩ :=
      echoReply_fields p (upFinish p s.tier (frRoute l)) (s.tier + 1) s hlen h64
    exact ⟨r, (upRx_root_echo p hty hm hu hr ha).trans hrep, hrty, hseq, hpl, hflag, hroute⟩
  · rw [upRx_delayReq p hty hm hu hc]
    exact delayAnswer_fields p _ s hsec hns

/-! ### The receiver's checks (R335) -/

theorem live_of_up {x : LState} (h : x = .up) : x.live = true := by rw [h]; rfl

/-- What the receiver counts. -/
def rxCounted (p : PortId) (k : RxCheck) (s : State) : State :=
  match k with
  | .code => s.bump (F.CL_ERR0_CODE_ROUTE p)
  | .format => s.bump (F.CL_ERR0_FORMAT_UNKNOWN p)
  | .crc => s.bump (F.CL_ERR0_CRC_NO_ROUTE p)
  | .poison => clEvt p 3 (s.bump (F.CL_ERR0_POISON_FWD_DROP p))
  | .good => s

/-- On a link that is UP a frame with an error is counted and dropped. -/
theorem cadRx_up_bad {codeOk : Bool} {b : List Byte} {k : RxCheck} (hc : s.coreUp = true) (hu : (s.port p).cl.st = .up)
    (hk : rxCheck codeOk b = k) (hg : k ≠ .good) : cadRx p codeOk b s = rxCounted p k s := by
  rw [cadRx, if_neg (by rw [hc, live_of_up hu]; decide)]
  dsimp only
  rw [if_neg (by rw [hu]; decide), hk, if_pos (by simpa using hg)]
  rfl

/-- On a link that is UP a good frame is routed, its stamps its time on the wire back. -/
theorem cadRx_up_good {b : List Byte} (hc : s.coreUp = true) (hu : (s.port p).cl.st = .up) (hk : rxCheck true b = .good)
    (ht : tbOfNs (tbNs s.tb0 - frameNs (s.port p).cl.ver.val b.length) = t)
    (hrx : s.tim.tb1 - BitVec.ofNat 64 (frameNs (s.port p).cl.ver.val b.length) = rx1) (hl : b.take (b.length - 4) = l) :
    cadRx p true b s = if p.val < 16 then upRx p t rx1 l s else downRx t rx1 l s := by
  rw [cadRx, if_neg (by rw [hc, live_of_up hu]; decide)]
  dsimp only
  rw [if_neg (by rw [hu]; decide), hk, if_neg (by decide), ht, hrx, hl]

/-- Settles O52: the check chooses what is counted, and the port which routing rule a good frame meets. That the stamps of a
frame lie its time on the wire back is the model's choice (log 58). -/
theorem receivedFramesAreCheckedAndRouted : Obligations.ReceivedFramesAreCheckedAndRouted := by
  unfold Obligations.ReceivedFramesAreCheckedAndRouted
  intro s p b hc hu
  refine ⟨?_, ?_, ?_, ?_, fun t rx1 l hk ht hrx hl => ?_⟩
  · exact congrArg fin (cadRx_up_bad hc hu (k := .code) rfl (by decide))
  · exact fun hk => congrArg fin (cadRx_up_bad hc hu hk (by decide))
  · exact fun hk => congrArg fin (cadRx_up_bad hc hu hk (by decide))
  · exact fun hk => congrArg fin (cadRx_up_bad hc hu hk (by decide))
  · have hrouted := cadRx_up_good hc hu hk ht hrx hl
    have hup : p.val < 16 → cadRx p true b s = upRx p t rx1 l s := fun hp => hrouted.trans (if_pos hp)
    have hdown : p = PU → cadRx p true b s = downRx t rx1 l s := by
      rintro rfl
      exact hrouted.trans (if_neg (by decide))
    exact ⟨fun hp => congrArg fin (hup hp), fun hp => congrArg fin (hdown hp),
      fun hp hty => congrArg fin ((if_pos hty).trans (hdown hp)), fun hp hty => congrArg fin ((if_pos hty).trans (hup hp)),
      fun hp hty => congrArg fin ((if_pos hty).trans (hdown hp)), fun hp hty => congrArg fin ((if_pos hty).trans (hdown hp)),
      fun hp hty => congrArg fin ((if_pos hty).trans (hup hp))⟩

end Sys2Proof.Machine
end

section
/-! PROOFS. Where the two routing rules send a good frame (R336, R338, R339, R344, R351 to R353, R359). An event of the queue
writes EVQ_LOST and nothing else of the register file, so the hub's MODE stands while its tier moves. -/

namespace Sys2Proof.Machine

/-! ### What the queue writes of the register file -/

section beside

variable {β : Type} [DecidableEq β] {d : Nat → β} {m : SMap β} {k j : Nat} {v : β}

/-- A key above the written one reads as before, whatever the form of the map. -/
theorem SMap.get_set_above (h : k < j) : SMap.get d (SMap.set d m k v) j = SMap.get d m j := by
  induction m with
  | nil => unfold SMap.set; split <;> simp [SMap.get, show ¬ j < k by omega, show j ≠ k by omega]
  | cons e m ih =>
    obtain ⟨a, x⟩ := e
    unfold SMap.set
    split
    · split
      · rfl
      · simp [SMap.get, show ¬ j < k by omega, show j ≠ k by omega]
    · split
      · have hka : k = a := by assumption
        split <;> simp [SMap.get, show ¬ j < a by omega, show j ≠ a by omega, show ¬ j < k by omega, show j ≠ k by omega]
      · simp only [SMap.get, ih]

/-- A key below one that gets an entry reads as before, whatever the form of the map. -/
theorem SMap.get_set_below (h : j < k) (hv : v ≠ d k) : SMap.get d (SMap.set d m k v) j = SMap.get d m j := by
  induction m with
  | nil => simp [SMap.set, hv, SMap.get, h]
  | cons e m ih =>
    obtain ⟨a, x⟩ := e
    unfold SMap.set
    split
    · simp [SMap.get, h, show j < a by omega]
    · split
      · subst_vars
        simp [SMap.get, h]
      · simp only [SMap.get, ih]

end beside

variable {s : State} {a : Nat}

/-- An address above EVQ_LOST, the one register that the queue writes. -/
theorem evqCountLost_reg (ha : R.EVQ_LOST < a) (n : Nat) : (evqCountLost n s).reg a = s.reg a := SMap.get_set_above ha

theorem evqEnter_reg (n : Nat) : (evqEnter n s).reg a = s.reg a := by
  induction n generalizing s with
  | zero => rfl
  | succ n ih =>
    simp only [evqEnter]
    split
    · rfl
    split
    · rfl
    split
    · rfl
    split
    · rfl
    · exact ih

theorem evqStore_reg (e : EvEntry) (w : Option Nat) : (evqStore e w s).reg a = s.reg a := by
  unfold evqStore
  split <;> rfl

theorem evqMakeLost_reg (m : EvMeta) (n : Nat) : (evqMakeLost m n s).reg a = s.reg a := by
  unfold evqMakeLost
  split <;> rfl

theorem evqStop_reg (ha : R.EVQ_LOST < a) (free weight fresh : Nat) : (evqStop free weight fresh s).reg a = s.reg a := by
  refine Eq.trans ?_ (evqCountLost_reg ha fresh)
  unfold evqStop
  dsimp only
  split
  · rfl
  split
  · exact evqMakeLost_reg _ _
  split
  · exact evqStore_reg _ _
  · exact (evqMakeLost_reg _ _).trans (evqCountLost_reg ha 1)

theorem evqOverwrite_reg (ha : R.EVQ_LOST < a) (k : Nat) : (evqOverwrite k s).reg a = s.reg a := by
  induction k generalizing s with
  | zero => rfl
  | succ k ih =>
    simp only [evqOverwrite]
    split
    · rfl
    split
    · exact ih.trans ((evqMakeLost_reg _ _).trans (evqCountLost_reg ha _))
    · rfl

theorem evqPut_reg (ha : R.EVQ_LOST < a) (e : EvEntry) (w : Option Nat) : (evqPut e w s).reg a = s.reg a := by
  refine Eq.trans ?_ (evqEnter_reg 17)
  unfold evqPut
  dsimp only
  split
  · split
    · exact (evqStore_reg _ _).trans (evqOverwrite_reg ha _)
    · exact (evqCountLost_reg ha _).trans (evqOverwrite_reg ha _)
  split
  · exact evqStore_reg _ _
  · exact evqStop_reg ha _ _ _

theorem evqEnqueue_reg (ha : R.EVQ_LOST < a) (e : EvEntry) : (evqEnqueue e s).reg a = s.reg a := by
  unfold evqEnqueue
  refine (evqPut_reg ha _ _).trans ?_
  split
  · rfl
  · exact evqPut_reg ha _ _

theorem evqBuffer_reg (ha : R.EVQ_LOST < a) (e : EvEntry) : (evqBuffer e s).reg a = s.reg a := by
  unfold evqBuffer
  dsimp only
  split
  · rfl
  split <;> exact evqCountLost_reg ha 1

theorem modPath_reg (p : Path) (f : PathState → PathState) : (s.modPath p f).reg a = s.reg a := by cases p <;> rfl

theorem endPop_reg (p : Path) (ws : List Word) : (endPop p ws s).reg a = s.reg a := by
  have hlatched : (latchPop p ws (s.modPath p fun x => { x with popWait := false })).reg a = s.reg a :=
    (modPath_reg p _).trans (modPath_reg p _)
  cases p with
  | loader => exact hlatched
  | i2c => refine Eq.trans ?_ hlatched; simp only [endPop, i2cEndPop]; split <;> rfl
  | usb => refine Eq.trans ?_ hlatched; simp only [endPop, efnEndPop]; split <;> rfl

theorem serveWaiting_reg (p : Path) : (serveWaiting p s).reg a = s.reg a := by
  unfold serveWaiting
  split
  · exact endPop_reg p _
  · rfl

theorem pushEntry_reg (ha : R.EVQ_LOST < a) (e : EvEntry) : (pushEntry e s).reg a = s.reg a := by
  unfold pushEntry
  split
  · exact (serveWaiting_reg .usb).trans ((serveWaiting_reg .i2c).trans (evqEnqueue_reg ha e))
  · exact evqBuffer_reg ha e

/-! ### SYNC frames (R336, R351) -/

theorem setBit_zero_ne_zero (w : Word) : setBit w 0 ≠ 0 := by
  intro h
  have hbit := bitOf_setBit_self w (k := 0)
  rw [h] at hbit
  exact absurd hbit (by decide)

theorem cadEvt_mode : (cadEvt 0 s).reg R.CAD_MODE = s.reg R.CAD_MODE :=
  (pushEntry_reg (by decide) _).trans (SMap.get_set_below (by decide) (setBit_zero_ne_zero _))

theorem setTier_cadSync (h : Fin 6) : (setTier h s).cadSync = s.cadSync := by
  unfold setTier
  split
  · rfl
  · simp only [State.cadSync, State.rd, cadEvt_mode]
    rfl

variable {t : TbTime} {rx1 : BitVec 64} {l : List Byte}

theorem downRx_sync (hty : frType l = 1) : downRx t rx1 l s = syncRx t rx1 l s := if_pos (by simp [hty])

/-- A synchronized hub takes its tier from a good SYNC and notes the exchange the SYNC starts. -/
theorem syncRx_synced (hs : s.cadSync = true) (hm : routeMode (frRoute l) = 0xF) (hlen : frLen l = 16) (h1 : 1 ≤ frHop l)
    (h5 : frHop l ≤ 5) (hr : s.cadRoot = false) : syncRx t rx1 l s =
      (setTier (Fin.ofNat 6 (frHop l)) (s.modCad fun c => { c with tooDeep := false })).modCad fun c =>
        { c with syncUndisc := (beAt (frPayload l) 10 1).testBit 0, syncAbsent := false,
                 xs := c.xs ++ [{ t1 := ⟨beAt (frPayload l) 0 6, beAt (frPayload l) 6 4⟩,
                                  c1 := BitVec.ofNat 48 (frCorr l), t2 := t, due := delayDue t }] } := by
  have hgood : ¬ (s.cadRoot || routeMode (frRoute l) != 0xF || frLen l != 16 || frHop l = 0) = true := by
    simp [hr, hm, hlen, show frHop l ≠ 0 by omega]
  have hsynced := (setTier_cadSync (s := s.modCad fun c => { c with tooDeep := false }) (Fin.ofNat 6 (frHop l))).trans hs
  rw [syncRx, if_neg hgood, if_neg (by omega)]
  exact if_pos hsynced

theorem syncRx_tooDeep (hm : routeMode (frRoute l) = 0xF) (hlen : frLen l = 16) (h5 : 5 < frHop l)
    (hr : s.cadRoot = false) : syncRx t rx1 l s =
      raiseAt .cadTooDeep none (cadEvt 1 (setTier 0 (s.modCad fun c => { c with tooDeep := true }))) := by
  have hgood : ¬ (s.cadRoot || routeMode (frRoute l) != 0xF || frLen l != 16 || frHop l = 0) = true := by
    simp [hr, hm, hlen, show frHop l ≠ 0 by omega]
  exact (if_neg hgood).trans (if_pos h5)

/-! ### Downlink frames (R338, R359) -/

/-- A DELAY_REQ has no place on PU, and a frame of another tier none at this hub. -/
theorem downRx_misplaced (hty : frType l ≠ 1) (h : frType l = 2 ∨ (s.tier ≠ 0 ∧ frHop l ≠ s.tier)) :
    downRx t rx1 l s = routeErr PU s :=
  (if_neg (by simpa using hty)).trans (if_pos (by simpa using h))

theorem downRx_bell (hty : frType l = 0x12) (hh : s.tier = 0 ∨ frHop l = s.tier) : downRx t rx1 l s = bellRx t rx1 l s := by
  have hplace : ¬ (frType l == 0x02 || (s.tier != 0 && frHop l != s.tier)) = true := by
    simp only [hty, Bool.or_eq_true, Bool.and_eq_true, bne_iff_ne, beq_iff_eq]
    omega
  exact (if_neg (by simp [hty])).trans ((if_neg hplace).trans (if_pos (by simp [hty])))

/-- A frame of this tier with a MODE of 1 to 5 goes by its PATH. -/
theorem downRx_path {m : Nat} (hsync : frType l ≠ 1) (hdelay : frType l ≠ 2) (hbell : frType l ≠ 0x12)
    (hh : frHop l = s.tier) (hm : routeMode (frRoute l) = m) (h1 : 1 ≤ m) (h5 : m ≤ 5) :
    downRx t rx1 l s = puPath false m t rx1 l s := by
  simp only [downRx, hm]
  rw [if_neg (by simpa using hsync), if_neg (by simp [hdelay, hh]), if_neg (by simpa using hbell), if_neg (by omega),
    if_pos h5]

theorem puPath_onward {m : Nat} (h1 : 1 ≤ s.tier) (hm : s.tier ≤ m) : puPath false m t rx1 l s =
    cadSendOn (Fin.ofNat 17 (routeNib (frRoute l) s.tier)) rx1 (hopUp l) s :=
  (if_neg (by omega)).trans (if_pos hm)

theorem puPath_beyond {m : Nat} (hm : m < s.tier) : puPath false m t rx1 l s = routeErr PU s :=
  (if_neg (by omega)).trans ((if_neg (by omega)).trans (if_neg (by simp)))

/-- Settles O53: a frame's TYPE, MODE and HOP choose the branch, and the events of a moving tier leave CAD_MODE as it was. That
a SYNC on PU passes the rule of HOP by is the model's choice (log 58). -/
theorem routingFollowsModeAndTier : Obligations.RoutingFollowsModeAndTier := by
  unfold Obligations.RoutingFollowsModeAndTier
  intro s t rx1 l
  refine ⟨?_, ?_, downRx_misplaced, downRx_bell, ?_, ?_, upRx_sync, ?_, ?_, ?_, ?_⟩
  · exact fun hty hs hm hlen h1 h5 hr => (downRx_sync hty).trans (syncRx_synced hs hm hlen h1 h5 hr)
  · exact fun hty hm hlen h5 hr => (downRx_sync hty).trans (syncRx_tooDeep hm hlen h5 hr)
  · exact fun m hsync hdelay hbell hh hm h1 h5 ht htm =>
      (downRx_path hsync hdelay hbell hh hm h1 h5).trans (puPath_onward ht htm)
  · exact fun m hsync hdelay hbell hh hm h1 h5 htm =>
      (downRx_path hsync hdelay hbell hh hm h1 h5).trans (puPath_beyond htm)
  · exact fun p _ hm ⟨hty, ha⟩ => upRx_link_echo p hty hm ha
  · exact upRx_link_unasked
  · exact upRx_unaccepted
  · exact upRx_delayReq

end Sys2Proof.Machine
end

section
/-! PROOFS. Discovery of the Cadence mode by a downstream port, and the version a link is entered and retrained at (R322 to
R329). What PD sends leaves the link's own state as it was. -/

namespace Sys2Proof.Machine

variable {s : State} {p : PortId}

/-! ### The link's state after an update of a port -/

theorem State.cl_modCl (p : PortId) (f : Link → Link) : ((s.modCl p f).port p).cl = f (s.port p).cl := by
  rw [State.modCl, State.port_setPort, if_pos rfl]

theorem State.cl_modPd (p q : PortId) (f : Pd → Pd) : ((s.modPd p f).port q).cl = (s.port q).cl := by
  rw [State.modPd, State.port_setPort]
  split
  next h => rw [h]
  next => rfl

theorem pdSend_cl (p q : PortId) (m : PdMsg) : ((pdSend p m s).port q).cl = (s.port q).cl := by
  unfold pdSend
  split
  · rfl
  · exact State.cl_modPd p q _

theorem pdStart_cl (p q : PortId) (m : PdMsg) : ((pdStart p m s).port q).cl = (s.port q).cl := by
  unfold pdStart
  dsimp only
  split
  · split
    · exact State.cl_modPd p q _
    · split
      · exact pdSend_cl p q m
      · exact State.cl_modPd p q _
  · exact pdSend_cl p q m

theorem setPartner_cl (p q : PortId) (w : Word) : ((setPartner p w s).port q).cl = (s.port q).cl := State.cl_modPd p q _

/-! ### The steps of discovery (R322, R323) -/

theorem discSend_identity (h : (s.port p).cl.disc = .identity) : discSend p s = startVdm p 0xFF00 0 1 [] s := by
  rw [discSend, h]

theorem discSend_svids (h : (s.port p).cl.disc = .svids) : discSend p s = startVdm p 0xFF00 0 2 [] s := by
  rw [discSend, h]

theorem discSend_modes (h : (s.port p).cl.disc = .modes) : discSend p s = startVdm p s.cadSvid 0 3 [] s := by
  rw [discSend, h]

/-- The Enter Mode VDO (R326): SIG 0xCD and the version. -/
def enterVdo (ver : Nat) : Word := 0xCD000000 ||| atBits 16 2 ver

theorem discSend_enter (h : (s.port p).cl.disc = .enter) :
    discSend p s = startVdm p s.cadSvid (s.port p).cl.objPos.val 4 [enterVdo (s.selVer p 2).val] s := by
  rw [discSend, h]
  rfl

theorem enterVdo_fields : ∀ ver : Fin 3, bitsOf (enterVdo ver) 24 8 = 0xCD ∧ bitsOf (enterVdo ver) 16 2 = ver.val ∧
    enterVdo ver &&& 0x00FCFFFF = 0 := by decide

theorem cadDiscover_may (h : s.mayDiscover p = true) : cadDiscover p s =
    startVdm p 0xFF00 0 1 [] (s.modCl p fun l => { l with st := .discover, disc := .identity, busy := 0 }) :=
  (if_pos h).trans (discSend_identity (congrArg Link.disc (State.cl_modCl p _)))

/-- An answer during discovery is to the present step. -/
theorem cadResponse_ack (hc : s.coreUp = true) (hx : (s.port p).cl.exiting = false) (hs : (s.port p).cl.st = .discover)
    (vdos : List Word) : cadResponse p (.ack vdos) s = discAck p vdos s := by
  rw [cadResponse, if_neg (by simp [hc]), hx, hs]
  rfl

theorem cadResponse_nak (hc : s.coreUp = true) (hx : (s.port p).cl.exiting = false) (hs : (s.port p).cl.st = .discover) :
    cadResponse p .nak s = noMode p .nak s := by
  rw [cadResponse, if_neg (by simp [hc]), hx, hs]
  rfl

theorem cadResponse_busy (hc : s.coreUp = true) (hx : (s.port p).cl.exiting = false) (hs : (s.port p).cl.st = .discover)
    (hb : (s.port p).cl.busy < 5) : cadResponse p .busy s = s.modCl p fun l => { l with busy := l.busy + 1 } := by
  rw [cadResponse, if_neg (by simp [hc]), hx, hs]
  exact if_neg (Nat.not_le.2 hb)

/-- The ACK of an Exit Mode ends the mode (R329). -/
theorem cadResponse_exited (hc : s.coreUp = true) (hx : (s.port p).cl.exiting = true) (vdos : List Word) :
    cadResponse p (.ack vdos) s = s.modCl p fun l => { l with exiting := false, entered := false } := by
  rw [cadResponse, if_neg (by simp [hc]), if_pos hx]

theorem discAck_identity (h : (s.port p).cl.disc = .identity) (vdos : List Word) : discAck p vdos s =
    startVdm p 0xFF00 0 2 [] (s.modCl p fun l => { l with disc := .svids, busy := 0 }) := by
  rw [discAck, h]
  exact discSend_svids (congrArg Link.disc (State.cl_modCl p _))

theorem discAck_svid {vdos : List Word} (h : (s.port p).cl.disc = .svids)
    (hv : (vdos.flatMap fun w => [bitsOf w 16 16, bitsOf w 0 16]).contains s.cadSvid = true) : discAck p vdos s =
    startVdm p s.cadSvid 0 3 [] (s.modCl p fun l => { l with disc := .modes, busy := 0 }) := by
  rw [discAck, h]
  exact (if_pos hv).trans (discSend_modes (congrArg Link.disc (State.cl_modCl p _)))

theorem discAck_noSvid {vdos : List Word} (h : (s.port p).cl.disc = .svids)
    (hv : (vdos.flatMap fun w => [bitsOf w 16 16, bitsOf w 0 16]).contains s.cadSvid = false) :
    discAck p vdos s = noMode p .noSvid s := by
  rw [discAck, h]
  exact if_neg (by rw [hv]; decide)

theorem discAck_badVdo {vdos : List Word} (h : (s.port p).cl.disc = .modes) (hv : vdos.any modeVdoOk = false) :
    discAck p vdos s = noMode p .badVdo s := by
  have hnone : ((List.range vdos.length).find? fun k => modeVdoOk (vdos.getD k 0)) = none := by
    refine List.find?_eq_none.2 fun k hk => ?_
    rw [List.getD_eq_getElem _ _ (List.mem_range.1 hk)]
    exact List.any_eq_false.1 hv _ (List.getElem_mem _)
  rw [discAck, h]
  dsimp only
  rw [hnone]

/-- The link with its partner's first Mode VDO `w` recorded, about to enter. -/
def entering (p : PortId) (w : Word) (s : State) : State :=
  (setPartner p w (s.modCl p fun l => { l with objPos := 1 })).modCl p fun l => { l with disc := .enter, busy := 0 }

theorem entering_cl (w : Word) :
    ((entering p w s).port p).cl = { (s.port p).cl with objPos := 1, disc := .enter, busy := 0 } := by
  rw [entering, State.cl_modCl, setPartner_cl, State.cl_modCl]

theorem discAck_mode {w : Word} {rest : List Word} (h : (s.port p).cl.disc = .modes) (hw : modeVdoOk w = true) :
    discAck p (w :: rest) s = startVdm p s.cadSvid 1 4 [enterVdo ((entering p w s).selVer p 2).val] (entering p w s) := by
  have hfirst : ((List.range (w :: rest).length).find? fun k => modeVdoOk ((w :: rest).getD k 0)) = some 0 := by
    rw [List.length_cons, List.range_succ_eq_map, List.find?_cons_of_pos (by exact hw)]
  rw [discAck, h]
  dsimp only
  rw [hfirst]
  refine (discSend_enter (s := entering p w s) (congrArg Link.disc (entering_cl w))).trans ?_
  rw [entering_cl]
  rfl

/-- What is sent meanwhile leaves the step of discovery. -/
theorem discAck_mode_cl {w : Word} {rest : List Word} (h : (s.port p).cl.disc = .modes) (hw : modeVdoOk w = true) :
    ((discAck p (w :: rest) s).port p).cl = { (s.port p).cl with objPos := 1, disc := .enter, busy := 0 } := by
  rw [discAck_mode h hw]
  exact (pdStart_cl p p _).trans (entering_cl w)

theorem discAck_enter (h : (s.port p).cl.disc = .enter) (vdos : List Word) :
    discAck p vdos s = cadEntered p (s.selVer p 2) s := by
  rw [discAck, h]

theorem cadNoResponse_discovering (hc : s.coreUp = true) (hs : (s.port p).cl.st = .discover) :
    cadNoResponse p s = noMode p .noResponse s := if_pos (by rw [hc, hs]; rfl)

theorem cadBusyRetry_discovering (hc : s.coreUp = true) (hs : (s.port p).cl.st = .discover)
    (hb : (s.port p).cl.busy ≠ 0) : cadBusyRetry p s = discSend p s :=
  if_pos (by rw [hc, hs]; simpa using hb)

/-! ### Attention (R328) -/

/-- An Attention on an UP link retrains it at the version its VDO names, or at the present one where it names none. -/
theorem cadAttentionRx_up {w : Word} {t : State} (hu : s.pdUp p = true) (ht : pdIn p false s = t)
    (hs : (t.port p).cl.st = .up) (hsig : bitsOf w 24 8 = 0xCD) (hbit : bitOf w 8 = true) : cadAttentionRx p w s =
    cadRetrain p (if bitsOf w 16 2 = 1 ∨ bitsOf w 16 2 = 2 then t.selVer p (bitsOf w 16 2) else (t.port p).cl.ver) t := by
  subst ht
  refine (pdRx_of_pdUp hu).trans (if_pos ?_)
  rw [hs, hsig, hbit]
  rfl

/-- Settles O49: each command meets one step of discovery, and its answer leads to the next. That an Attention acts
on an UP link only is the model's choice (log 59). -/
theorem modeDiscoveryRunsStepByStep : Obligations.ModeDiscoveryRunsStepByStep := by
  unfold Obligations.ModeDiscoveryRunsStepByStep
  intro s d
  refine ⟨fun hm => congrArg fin (cadDiscover_may hm), fun hc hx hs => ?_, fun hx => ?_, ?_⟩
  · have hack (vdos : List Word) := congrArg fin (cadResponse_ack hc hx hs vdos)
    refine ⟨?_, ?_, ?_, ?_, ?_, ?_, ?_, ?_, ?_, ?_⟩
    · exact fun vdos hd => (hack vdos).trans (congrArg fin (discAck_identity hd vdos))
    · exact fun vdos hd hv => (hack vdos).trans (congrArg fin (discAck_svid hd hv))
    · exact fun vdos hd hv => (hack vdos).trans (congrArg fin (discAck_noSvid hd hv))
    · exact fun vdos hd hv => (hack vdos).trans (congrArg fin (discAck_badVdo hd hv))
    · exact fun w rest hd hw => ⟨_, hack (w :: rest), congrArg Link.objPos (discAck_mode_cl hd hw),
        congrArg Link.disc (discAck_mode_cl hd hw)⟩
    · exact fun vdos hd => (hack vdos).trans (congrArg fin (discAck_enter hd vdos))
    · exact congrArg fin (cadResponse_nak hc hx hs)
    · exact fun hb => congrArg fin (cadResponse_busy hc hx hs hb)
    · exact congrArg fin (cadNoResponse_discovering hc hs)
    · exact fun hb => congrArg fin (cadBusyRetry_discovering hc hs hb)
  · exact ⟨congrArg fin (if_pos hx), fun vdos hc => congrArg fin (cadResponse_exited hc hx vdos)⟩
  · intro w hu hs hsig hbit hver
    refine congrArg fin ((cadAttentionRx_up hu rfl hs hsig hbit).trans ?_)
    rw [if_neg (by omega)]

/-! ### Versions (R326, R328) -/

theorem maxVer_one (h : s.glb.level = 1 ∨ s.rd F.CAD_MODE_MAX_VER = 1) : s.maxVer = 1 := if_pos (by simpa using h)

theorem maxVer_two (hl : s.glb.level ≠ 1) (hm : s.rd F.CAD_MODE_MAX_VER ≠ 1) : s.maxVer = 2 := if_neg (by simp [hl, hm])

theorem maxVer_le_two (s : State) : s.maxVer ≤ 2 := by unfold State.maxVer; split <;> decide

/-- The highest version in the partner's VERSIONS, in the allowance and not above `v`. -/
theorem selVer_val (s : State) (p : PortId) (v : Nat) : (s.selVer p v).val =
    if bitOf (s.reg (R.CL_PARTNER p)) 17 = true ∧ s.maxVer = 2 ∧ 2 ≤ v then 2 else 1 := by
  have hle := maxVer_le_two s
  have hmax : 2 ≤ s.maxVer ↔ s.maxVer = 2 := ⟨fun h => Nat.le_antisymm hle h, Nat.le_of_eq ∘ Eq.symm⟩
  simp only [State.selVer, Bool.and_eq_true, decide_eq_true_eq, hmax, and_assoc]
  split <;> rfl

theorem attentionVdo_fields : ∀ v : Fin 4, bitsOf (attentionVdo v) 24 8 = 0xCD ∧ bitsOf (attentionVdo v) 16 2 = v.val ∧
    bitOf (attentionVdo v) 8 = true ∧ attentionVdo v &&& 0x00FCFEFF = 0 := by decide

theorem cadMode_ne_clPartner : ∀ p : PortId, R.CAD_MODE ≠ R.CL_PARTNER p := by decide

theorem entering_partner (h : s.canonical = true) (w : Word) : (entering p w s).reg (R.CL_PARTNER p) = w :=
  State.reg_setReg_self (s := s.modCl p fun l => { l with objPos := 1 }) h

theorem entering_maxVer (h : s.canonical = true) (w : Word) : (entering p w s).maxVer = s.maxVer := by
  have hmode : (entering p w s).reg R.CAD_MODE = s.reg R.CAD_MODE :=
    State.reg_setReg_other (s := s.modCl p fun l => { l with objPos := 1 }) h (cadMode_ne_clPartner p)
  rw [State.maxVer, State.rd, hmode]
  rfl

/-- Settles O9: the partner's VERSIONS are in its Mode VDO, recorded before the version is selected. -/
theorem versionsFollowPartnerAndAllowance : Obligations.VersionsFollowPartnerAndAllowance := by
  unfold Obligations.VersionsFollowPartnerAndAllowance
  intro s d hcan
  refine ⟨maxVer_one, maxVer_two, fun v _ => selVer_val s (dport d) v, ?_, ?_, attentionVdo_fields, ?_⟩
  · intro w rest hc hx hs hd hw
    obtain ⟨hsig, hver, hrest⟩ := enterVdo_fields ((entering (dport d) w s).selVer (dport d) 2)
    exact ⟨entering (dport d) w s, _, congrArg fin ((cadResponse_ack hc hx hs _).trans (discAck_mode hd hw)), hsig, hver,
      hrest, entering_partner hcan w, entering_maxVer hcan w⟩
  · exact fun hc hx hs => congrArg fin (cadResponse_nak hc hx hs)
  · exact fun w t hu ht hs hsig hbit => congrArg fin (cadAttentionRx_up hu ht hs hsig hbit)

end Sys2Proof.Machine
end

section
/-! PROOFS. The hub's answers to the commands of the Cadence mode on PU, and the training and retraining of links (R323 to
R329, R346 to R350). -/

namespace Sys2Proof.Machine

variable {s t : State} {p : PortId}

/-! ### What a received message and its answer leave -/

theorem pdSend_coreUp (p : PortId) (m : PdMsg) : (pdSend p m s).coreUp = s.coreUp := by
  unfold pdSend
  split <;> rfl

theorem pdIn_coreUp (p : PortId) (rev2 : Bool) : (pdIn p rev2 s).coreUp = s.coreUp := by
  unfold pdIn
  dsimp only
  split <;> rfl

theorem puAnswer_ack (hu : s.pdUp PU = true) (svid obj cmd : Nat) (vdos : List Word) :
    puAnswer true svid obj cmd vdos s = sendVdm PU svid obj 1 cmd vdos (pdIn PU false s) := pdRx_of_pdUp hu

theorem puAnswer_nak (hu : s.pdUp PU = true) (svid obj cmd : Nat) (vdos : List Word) :
    puAnswer false svid obj cmd vdos s = sendVdm PU svid obj 2 cmd [] (pdIn PU false s) := pdRx_of_pdUp hu

/-! ### PU as responder (R324) -/

/-- The ID Header: what the rules give of it stands in `w` whatever the rest of `w` is. -/
def idHeader (w : Word) (vid : Nat) : Word := putBits (putBits (putBits w 27 3 1) 26 1 1) 0 16 vid

theorem idHeader_vid (w : Word) {vid : Nat} (h : vid < 2 ^ 16) : bitsOf (idHeader w vid) 0 16 = vid :=
  (bitsOf_putBits_self (by decide)).trans (Nat.mod_eq_of_lt h)

theorem idHeader_modal (w : Word) (vid : Nat) : bitsOf (idHeader w vid) 26 1 = 1 :=
  (bitsOf_putBits_other (by decide) (.inl (by decide))).trans (bitsOf_putBits_self (by decide))

theorem idHeader_ufp (w : Word) (vid : Nat) : bitsOf (idHeader w vid) 27 3 = 1 :=
  (bitsOf_putBits_other (by decide) (.inl (by decide))).trans
    ((bitsOf_putBits_other (by decide) (.inl (by decide))).trans (bitsOf_putBits_self (by decide)))

/-- The bits R324 does not give are two free words. -/
theorem cadIdentity_answers (hu : s.fresh.2.fresh.2.pdUp PU = true) : cadIdentity s = sendVdm PU 0xFF00 0 1 1
    [idHeader s.fresh.1 s.img.vid.toNat, s.fresh.2.fresh.1, atBits 16 16 s.img.pid.toNat ||| atBits 0 16 s.img.bcd.toNat]
    (pdIn PU false s.fresh.2.fresh.2) := puAnswer_ack hu ..

theorem cadEnterRx_accepted {v : Word} (hu : s.pdUp PU = true) (hc : s.coreUp = true) (hp : s.puCad = true)
    (ha : (s.port PU).cl.rx.alloc = true) (h1 : 1 ≤ bitsOf v 16 2) (hv : bitsOf v 16 2 ≤ s.maxVer) : cadEnterRx v s =
      (sendVdm PU s.cadSvid 1 1 4 [] (pdIn PU false s)).modCl PU fun l =>
        { l with enterVer := Fin.ofNat 3 (bitsOf v 16 2), objPos := 1 } := by
  have hcore : (sendVdm PU s.cadSvid 1 1 4 [] (pdIn PU false s)).coreUp = true :=
    (pdSend_coreUp PU _).trans ((pdIn_coreUp PU false).trans hc)
  simp only [cadEnterRx, hp, ha, h1, hv, and_self, decide_true, Bool.and_self, puAnswer_ack hu, hcore,
    if_true]

theorem cadEnterRx_noVersion {v : Word} (hu : s.pdUp PU = true) (hv : bitsOf v 16 2 = 0) :
    cadEnterRx v s = sendVdm PU s.cadSvid 1 2 4 [] (pdIn PU false s) := by
  have hno : ¬ (1 ≤ bitsOf v 16 2 ∧ bitsOf v 16 2 ≤ s.maxVer) := by omega
  simp only [cadEnterRx, hno, decide_false, Bool.and_false, Bool.false_and, puAnswer_nak hu, Bool.false_eq_true, if_false]

theorem cadAttentionAgain_waiting {v : Fin 3} (hc : s.coreUp = true) (ha : (s.port PU).cl.attention = some v)
    (hl : (s.port PU).cl.st.live = true) : cadAttentionAgain s = cadAttention v s := by
  rw [cadAttentionAgain, ha]
  exact if_pos (by rw [hc, hl]; rfl)

/-- Settles O50: PU answers ACK or NAK by what the hub may enter, and the answer leaves CORE up. The free words of the
Identity and the layout of a VDM header are the model's choice (logs 6 and 21). -/
theorem upstreamAnswersTheModeCommands : Obligations.UpstreamAnswersTheModeCommands := by
  unfold Obligations.UpstreamAnswersTheModeCommands
  rintro s t rfl
  refine ⟨fun hu => ⟨fun hp => ⟨?_, ?_⟩, fun hp => ⟨?_, ?_⟩⟩, ?_, ?_, ?_, ?_, ?_⟩
  · exact congrArg fin ((congrArg (fun b => puAnswer b 0xFF00 0 2 _ s) hp).trans (puAnswer_ack hu ..))
  · exact congrArg fin ((congrArg (fun b => puAnswer b s.cadSvid 0 3 _ s) hp).trans (puAnswer_ack hu ..))
  · exact congrArg fin ((congrArg (fun b => puAnswer b 0xFF00 0 2 _ s) hp).trans (puAnswer_nak hu ..))
  · exact congrArg fin ((congrArg (fun b => puAnswer b s.cadSvid 0 3 _ s) hp).trans (puAnswer_nak hu ..))
  · rintro u rfl hu
    exact ⟨_, _, idHeader_vid _ s.img.vid.isLt, idHeader_modal _ _, idHeader_ufp _ _, congrArg fin (cadIdentity_answers hu)⟩
  · exact fun v hu hc hp ha h1 hv => congrArg fin (cadEnterRx_accepted hu hc hp ha h1 hv)
  · exact fun v hu hv => congrArg fin (cadEnterRx_noVersion hu hv)
  · rintro p u hu rfl
    exact congrArg fin (pdRx_of_pdUp hu)
  · exact fun v hc ha hl => congrArg fin (cadAttentionAgain_waiting hc ha hl)

/-! ### Training (R346) -/

/-- A downstream port that locks sends its first ECHO. -/
theorem cadLock_dfp (hc : s.coreUp = true) (hs : (s.port p).cl.st = .train) (hl : (s.port p).cl.locked = false)
    (hp : p.val < 16) : cadLock p s = trainEcho p (s.modCl p fun l => { l with locked := true, everLocked := true }) :=
  (if_pos (by rw [hc, hs, hl]; rfl)).trans (if_pos hp)

theorem cadLock_ufp (hc : s.coreUp = true) (hs : (s.port PU).cl.st = .train) (hl : (s.port PU).cl.locked = false) :
    cadLock PU s = s.modCl PU fun l => { l with locked := true, everLocked := true } :=
  (if_pos (by rw [hc, hs, hl]; rfl)).trans (if_neg (by decide))

/-- The link after one more attempt that is not UP: the attempt is counted and its frames are gone. -/
def attemptCounted (p : PortId) (s : State) : State :=
  s.modCl p fun l => { l with fails := l.fails + 1, wire := none, outQ := l.outQ.filter fun f => f.kind != .train }

theorem cadAttemptFail_train (hc : s.coreUp = true) (hs : (s.port p).cl.st = .train) : cadAttemptFail p s =
    if 2 ≤ (s.port p).cl.fails.val then cadFail p (attemptCounted p s) else cadTrain p 1 (attemptCounted p s) :=
  if_neg (by rw [hc, hs]; decide)

/-! ### Retrains (R347 to R349) -/

theorem puLinkUp_training (hc : s.coreUp = true) (hs : (s.port PU).cl.st = .train ∨ (s.port PU).cl.st = .retrain) :
    puLinkUp s = cadUp PU s := by
  refine if_pos ?_
  obtain h | h := hs <;> rw [hc, h] <;> rfl

theorem cadLostLock_dfp (hc : s.coreUp = true) (hs : (s.port p).cl.st = .up) (hp : p.val < 16) :
    cadLostLock p s = cadRetrain p (s.port p).cl.ver s :=
  (if_neg (by rw [hc, hs]; decide)).trans (if_pos hp)

theorem cadLostLock_ufp (hc : s.coreUp = true) (hs : (s.port PU).cl.st = .up) :
    cadLostLock PU s = cadAttention (s.port PU).cl.ver s :=
  (if_neg (by rw [hc, hs]; decide)).trans (if_neg (by decide))

theorem cadRetrainRx_up (hc : s.coreUp = true) (hs : (s.port PU).cl.st = .up) (ver : Fin 3) :
    cadRetrainRx ver s = cadRetrain PU ver s := if_pos (by rw [hc, hs]; rfl)

/-- A retrain that is not UP in time takes the link down and trains it again at its version. -/
theorem cadRetrainFail_retrain (hc : s.coreUp = true) (hs : (s.port p).cl.st = .retrain) : cadRetrainFail p s =
    cadTrain p (s.port p).cl.ver
      ((linkDown p .retrainFail .train s).modCl p fun l => { l with fails := 0, everLocked := false }) :=
  if_pos (by rw [hc, hs]; rfl)

/-- Settles O51: the state of the link and the side of the port choose what each command does. That a third failed
attempt sends Exit Mode and a failed retrain trains the same version again is the model's choice (log 59). -/
theorem linksTrainAndRetrain : Obligations.LinksTrainAndRetrain := by
  unfold Obligations.LinksTrainAndRetrain
  intro s p hc
  refine ⟨?_, ?_, ?_, ?_, ?_, ?_, ?_, ?_, ?_, ?_⟩
  · exact fun hs hl hp => congrArg fin (cadLock_dfp hc hs hl hp)
  · exact fun hs hl => congrArg fin (cadLock_ufp hc hs hl)
  · exact fun hs hf => congrArg fin ((cadAttemptFail_train hc hs).trans (if_neg (Nat.not_le.2 hf)))
  · exact fun hs hf => congrArg fin ((cadAttemptFail_train hc hs).trans (if_pos hf.ge))
  · exact fun hs => congrArg fin (puLinkUp_training hc hs)
  · exact fun hs hp => congrArg fin (cadLostLock_dfp hc hs hp)
  · exact fun hs => congrArg fin (cadLostLock_ufp hc hs)
  · exact fun v hs => congrArg fin (cadRetrainRx_up hc hs _)
  · exact fun hs => congrArg fin (cadRetrainFail_retrain hc hs)
  · exact fun path v hr => ⟨congrArg fin (write_CL_CMD hr), congrArg fin (write_CL_CMD hr)⟩

end Sys2Proof.Machine
end

section
/-! PROOFS. The frames a hub sends at set times, the end of a frame, and the exchange record (R340, R346, R351 to R355,
R369). -/

namespace Sys2Proof.Machine

variable {s : State} {p : PortId}

/-! ### The end of a frame (R340, R346, R369) -/

/-- The frame has left the wire, and the pages of the slots that hold nothing are free. -/
def wireFreed (p : PortId) (s : State) : State := freeIdle (s.modCl p fun l => { l with wire := none })

theorem cadTxDone_other {f : OutFrame} (hw : (s.port p).cl.wire = some f) (hk : f.kind = .other) :
    cadTxDone p s = cadPump p (wireFreed p s) := by
  rw [cadTxDone, hw]
  dsimp only
  rw [hk]
  rfl

theorem cadTxDone_launch {f : OutFrame} {q : Fin 18} (hw : (s.port p).cl.wire = some f) (hk : f.kind = .launch q) :
    cadTxDone p s = cadPump p (launchDone q p (wireFreed p s)) := by
  rw [cadTxDone, hw]
  dsimp only
  rw [hk]
  rfl

/-- The empty ECHO of a downstream port is the frame that makes its link UP. -/
theorem cadTxDone_trained {f : OutFrame} (hw : (s.port p).cl.wire = some f) (hk : f.kind = .train) (hp : p.val < 16)
    (hl : frLen f.bytes = 0) : cadTxDone p s = cadUp p (wireFreed p s) := by
  rw [cadTxDone, hw]
  dsimp only
  rw [hk]
  exact if_pos (by simp [hp, hl])

/-! ### Timed frames (R351 to R355) -/

theorem cadSyncDue_sends (hc : s.coreUp = true) (hs : s.sendsSync = true) (hd : s.cad.tooDeep = false)
    (hm : downPorts.any s.timedMay = true) : cadSyncDue s =
      (forEach downPorts (fun p => timedStart p .sync s.syncFrame) s).modCad fun c => { c with seqSync := c.seqSync + 1 } :=
  if_pos (by rw [hc, hs, hd, hm]; rfl)

/-- The oldest exchange without a launch is launched, and keeps its time and its SEQ. -/
theorem cadDelayDue_sends {x : Exchange} (hx : s.cad.xs.find? (fun x => x.t3.isNone) = some x) (hc : s.coreUp = true)
    (hs : s.cadSync = true) (ht : tbLe x.due s.tb0 = true) (hm : s.timedMay PU = true) : cadDelayDue s =
      (timedStart PU .delayReq (mkFrame 0x02 8 s.cad.seqReq.toNat s.upRoute (s.rd F.CAD_SRC_ADDR) 0 0 []) s).modCad fun c =>
        { c with seqReq := c.seqReq + 1,
                 xs := c.xs.map fun e => if e = x then { x with t3 := some x.due, seq := s.cad.seqReq } else e } := by
  rw [cadDelayDue, hx]
  exact (if_neg (by rw [hc, hs, ht]; decide)).trans (if_pos hm)

/-- The oldest exchange launched is given up, and counted. -/
theorem cadDelayMiss_drops {x : Exchange} (hx : s.cad.xs.find? (fun x => x.t3.isSome) = some x) : cadDelayMiss s =
    (s.modCad fun c => { c with xs := c.xs.filter (· ≠ x) }).bump F.CL_XS_STAT_MISS := by
  rw [cadDelayMiss, hx]
  rfl

theorem cadNoSync_synced (h : s.cadSync = true) :
    cadNoSync s = s.modCad fun c => { c with syncAbsent := true } := if_pos h

/-! ### The exchange record (R353) -/

/-- A read of CL_XS_STAT latches the sixteen words of the record on its path. -/
theorem readAt_CL_XS_STAT {path : Path} (h : s.reaches path R.CL_XS_STAT = true) :
    readAt path R.CL_XS_STAT s = (xsRead path (touchDomain R.CL_XS_STAT (leaveIdle s))).2 := by
  rw [readAt, if_pos h, regRead]
  dsimp only
  rw [if_neg (by decide), if_neg (by decide), if_neg (by decide), if_neg (by decide), if_pos rfl, gotWord]

/-- Settles O54: what the wire held chooses the end of a frame, and the mode, the time and a free wire a timed frame. That a
SYNC or a DELAY_REQ is not sent on a wire that carries a frame of class 1 or 2 is the model's choice (log 58). -/
theorem timedFramesAndTheirEndsAct : Obligations.TimedFramesAndTheirEndsAct := by
  unfold Obligations.TimedFramesAndTheirEndsAct
  intro s
  refine ⟨?_, ?_, ?_, ?_, ?_, ?_, ?_, ?_⟩
  · exact fun p f hw hk => congrArg fin (cadTxDone_other hw hk)
  · exact fun p f q hw hk => congrArg fin (cadTxDone_launch hw hk)
  · exact fun p f hw hk hp hl => congrArg fin (cadTxDone_trained hw hk hp hl)
  · exact fun hc hs hd hm => congrArg fin (cadSyncDue_sends hc hs hd hm)
  · exact fun x hx hc hs ht hm => congrArg fin (cadDelayDue_sends hx hc hs ht hm)
  · exact fun x hx => congrArg fin (cadDelayMiss_drops hx)
  · exact fun h => congrArg fin (cadNoSync_synced h)
  · rintro path _ rfl hr
    exact congrArg fin (readAt_CL_XS_STAT hr)

end Sys2Proof.Machine
end

section
/-! PROOFS. The power states: entry, wake sources, the wake and its failures, the sentinels and the DPHY domains (R381 to R390,
R392 to R395, R401, R403). -/

namespace Sys2Proof.Machine

variable {s : State} {p : PortId}

/-! ### Entry (R381 to R385) -/

theorem idleEnter_run (hu : s.isUp = true) (hs : s.pwr.st = .run) (he : s.rdB F.PWR_CTRL_IDLE_EN = true) :
    idleEnter s = s.modPwr fun x => { x with st := .idle } := if_pos (by rw [hu, hs, he]; rfl)

theorem autoSleep_due (ha : s.awake = true) (he : s.rdB F.PWR_CTRL_SLEEP_EN = true) (hc : s.entryAll 8 = true) :
    autoSleep s = entryStart .sleep s := if_pos (by rw [ha, he, hc]; rfl)

theorem autoDeep_due (ha : s.awake = true) (he : s.rdB F.PWR_CTRL_DEEP_EN = true) (hc : s.entryAll 11 = true) :
    autoDeep s = entryStart .deep s := if_pos (by rw [ha, he, hc]; rfl)

theorem bitOf_and (v w : Word) (k : Nat) : bitOf (v &&& w) k = (bitOf v k && bitOf w k) := by
  simp only [bitOf_eq_getLsbD, BitVec.getLsbD_and]

/-- The unkeyed field of PWR_CMD. -/
theorem pwrCmd_deep (v : Word) (h : s.isUp = true) :
    pwrCmd (setBit v 0 &&& 1) s = s.modPwr fun x => { x with request := some .deep } := by
  have hoff : bitOf (setBit v 0 &&& 1) 1 = false := by rw [bitOf_and, show bitOf 1 1 = false by decide, Bool.and_false]
  have hdeep : bitOf (setBit v 0 &&& 1) 0 = true := by
    rw [bitOf_and, bitOf_setBit_self v (by decide)]
    decide
  simp only [pwrCmd, hoff, hdeep, h, Bool.false_eq_true, if_false, if_true, Option.isSome_some, Bool.and_self]

/-- The keyed field of PWR_CMD. -/
theorem pwrCmd_off (v : Word) (h : s.isUp = true) :
    pwrCmd (setBit v 1 &&& 2) s = s.modPwr fun x => { x with request := some .off } := by
  have hoff : bitOf (setBit v 1 &&& 2) 1 = true := by
    rw [bitOf_and, bitOf_setBit_self v (by decide)]
    decide
  simp only [pwrCmd, hoff, h, if_true, Option.isSome_some, Bool.and_self]

/-- A write of PWR_CMD changes the request, if anything. -/
theorem pwrCmd_eq_modPwr (v : Word) (s : State) : ∃ r, pwrCmd v s = s.modPwr fun x => { x with request := r } := by
  simp only [pwrCmd]
  generalize (if bitOf v 1 then some EntryTarget.off else if bitOf v 0 then some .deep else none) = r
  split
  · exact ⟨r, rfl⟩
  · exact ⟨s.pwr.request, rfl⟩

theorem pwrCmd_isUp (v : Word) : (pwrCmd v s).isUp = s.isUp := by
  obtain ⟨r, hr⟩ := pwrCmd_eq_modPwr v s
  rw [hr]
  rfl

/-- A later request takes the place of the one a write of PWR_CMD makes. -/
theorem modPwr_request_pwrCmd (v : Word) (r : Option EntryTarget) :
    (pwrCmd v s).modPwr (fun x => { x with request := r }) = s.modPwr fun x => { x with request := r } := by
  obtain ⟨r', hr⟩ := pwrCmd_eq_modPwr v s
  rw [hr]
  rfl

theorem cmdBlocked_requested (h : s.pwr.request ≠ none) : cmdBlocked s = pwrEvt 4 0
    (((s.wr F.PWR_STATUS_BLOCK s.blockMask).wr F.PWR_STATUS_RESULT 2).modPwr fun x => { x with request := none }) :=
  if_neg (by simpa using h)

/-- Entry completes by its target, where no source of a wake was seen meanwhile. -/
theorem entryDone_sleep (hs : s.pwr.st = .entering) (ht : s.pwr.target = .sleep) (hw : s.pwr.wakePend = false) :
    entryDone s = s.modPwr fun x => { x with st := .sleep } := by
  rw [entryDone, if_neg (by rw [hs]; decide), ht]
  exact if_neg (by simp [hw])

theorem entryDone_deep (hs : s.pwr.st = .entering) (ht : s.pwr.target = .deep) (hw : (powerOff s).pwr.wakePend = false) :
    entryDone s = (powerOff s).modPwr fun x => { x with st := .deep, rc8Run := false } := by
  rw [entryDone, if_neg (by rw [hs]; decide), ht]
  exact if_neg (by rw [State.modPwr, hw]; decide)

theorem entryDone_off (hs : s.pwr.st = .entering) (ht : s.pwr.target = .off) : entryDone s = offState s := by
  rw [entryDone, if_neg (by rw [hs]; decide), ht]

/-- Settles O56: what the hub is in, what is enabled and what its conditions say choose the entry; OFF of a write of PWR_CMD takes
the place of its DEEP. That condition USB_STATE is judged without its one second is the model's choice (log 61). -/
theorem powerStatesAreEnteredAndLeft : Obligations.PowerStatesAreEnteredAndLeft := by
  unfold Obligations.PowerStatesAreEnteredAndLeft
  intro s
  refine ⟨?_, ?_, ?_, ?_, ?_, ?_, ?_, ?_, ?_, ?_⟩
  · exact fun hu hs he => congrArg fin (idleEnter_run hu hs he)
  · exact fun ha he hc => congrArg fin (autoSleep_due ha he hc)
  · exact fun ha he hc => congrArg fin (autoDeep_due ha he hc)
  · exact fun path v hr ho hu => congrArg fin ((write_PWR_CMD hr ho).trans (pwrCmd_deep v hu))
  · exact fun path v hr ho hu => congrArg fin ((write_PWR_CMD_open hr ho).trans
      ((pwrCmd_off v ((pwrCmd_isUp _).trans hu)).trans (modPwr_request_pwrCmd _ _)))
  · exact fun h => congrArg fin (cmdBlocked_requested h)
  · exact fun hs ht hw => congrArg (fun u => fin (resume u)) (entryDone_sleep hs ht hw)
  · exact fun hs ht hw => congrArg (fun u => fin (resume u)) (entryDone_deep hs ht hw)
  · exact fun hs ht => congrArg (fun u => fin (resume u)) (entryDone_off hs ht)
  · exact fun h => congrArg fin (if_pos (by rw [h]; rfl))

/-! ### Wake sources (R386, R389, R392) -/

/-- The source's bit is recorded. -/
def sourceNoted (w : WakeSrc) (s : State) : State :=
  s.setReg R.PWR_WAKE_SRC (setBit (s.reg R.PWR_WAKE_SRC) (WakeSrcCode w - 1))

theorem wakeAny_up (w : WakeSrc) (p : Option PortId) (hx : s.glb.phase ≠ .x24) (hu : s.isUp = true) :
    wakeAny w p s = wakeSeen w p s :=
  (if_neg (by simp [hx])).trans (if_pos hu)

theorem wakeSeen_sleep {w : WakeSrc} (p : Option PortId) (hs : s.pwr.st = .sleep) (hw : s.wakes w = true) :
    wakeSeen w p s = wakeStart .sleep (wakeRecord w p (sourceNoted w s)) := by
  unfold wakeSeen
  rw [hs]
  exact if_pos hw

theorem wakeSeen_deep {w : WakeSrc} (p : Option PortId) (hs : s.pwr.st = .deep) (hw : s.wakes w = true) :
    wakeSeen w p s = wakeStart .deep (wakeRecord w p (sourceNoted w s)) := by
  unfold wakeSeen
  rw [hs]
  exact if_pos hw

theorem wakeSeen_masked {w : WakeSrc} (p : Option PortId) (hs : s.pwr.st = .sleep) (hw : s.wakes w = false) :
    wakeSeen w p s = sourceNoted w s := by
  unfold wakeSeen
  rw [hs]
  exact if_neg (by simp [hw])

/-! ### The wake and its failures (R393, R401) -/

/-- The wake rebuilds what lost its power, queues the events that waited and WAKE, and hands over from the sentinels. -/
theorem wakeDone_first {bad : BitVec 4} {t u : State} (hs : s.pwr.st = .waking) (hr : s.pwr.retryDue = false)
    (ht : evqFlushAon (if !s.pwr.vddcOn || s.pwr.from_ == .deep then wakeDeep bad s else wakeSleep s) = t)
    (hu : forEach allPorts sentinelHand
      ((pwrEvt 0 (t.reg R.PWR_WAKE_REC) t).modPwr fun x => { x with wakePend := false, srcSeen := false }) = u)
    (hh : u.flt.wakeHold = false) : wakeDone bad s = u := by
  rw [wakeDone, if_neg (by rw [hs, hr]; decide)]
  dsimp only
  rw [ht, hu, if_neg (by rw [hh]; decide)]

/-- A failed attempt of a wake from DEEP, its cause recorded and its supplies off. -/
def attemptEnded (c : WakeFailCause) (s : State) : State :=
  (s.wr F.PWR_WAKE_REC_FAIL_CAUSE (WakeFailCode c)).modPwr fun x =>
    { x with pmbCtrl := false, x24Run := false, x24Ready := false }

theorem attemptFail_deep (c : WakeFailCause) (hs : s.pwr.st = .waking) (hr : s.pwr.retryDue = false)
    (hf : s.pwr.from_ = .deep) : attemptFail c s = if 3 ≤ s.pwr.attempts.val then
      (((attemptEnded c s).wr F.PWR_WAKE_REC_WAKEFAIL 1).modPwr fun x => { x with st := .wakeFail }).modFlt
        fun f => { f with wakeHold := true }
    else (attemptEnded c s).modPwr fun x => { x with retryDue := true } := by
  have hkept : ¬ (s.pwr.from_ == .sleep && s.pwr.vddcOn) = true := by rw [hf]; simp
  rw [attemptFail, if_neg (by rw [hs, hr]; decide), if_neg hkept]
  rfl

theorem retryDue_waking (hs : s.pwr.st = .waking) (hr : s.pwr.retryDue = true) :
    retryDue s = (wakeAttempt s).modPwr fun x => { x with pmbCtrl := true } := if_pos (by rw [hs, hr]; rfl)

/-! ### Sentinels, the I²C match, DPHY (R387, R390, R395) -/

/-- A sentinel with room takes the message; an Attention does not wake. -/
theorem sentinelRx_takes {m : List Byte} (hs : s.pwr.st = .sleep) (hc : (s.port p).pd.contract ≠ none)
    (he : (s.port p).pd.sentinel = none) (hm : m.length ≤ 32) : sentinelRx p m s =
      if isAttention m then s.modPd p fun x => { x with sentinel := some m }
      else wakeSeen .pd (some p) (s.modPd p fun x => { x with sentinel := some m }) := by
  have hnone : (s.port p).pd.contract.isNone = false := by
    rw [← Bool.not_eq_true, Option.isNone_iff_eq_none]
    exact hc
  refine if_neg ?_
  rw [hs, hnone, he, decide_eq_false (Nat.not_lt.2 hm)]
  decide

theorem i2cMatched_live (ha : s.aonUp = true) (hs : s.pwr.st ≠ .wakeFail) : i2cMatched s =
    (s.modI2c fun i => { i with matched := true }).modPwr fun x => { x with rc8Run := true } := by
  have hno : ¬ (s.pwr.st == .wakeFail) = true := by simpa using hs
  rw [i2cMatched, if_neg (by simp [hs]), i2cMatch, if_neg (by simp [ha])]
  exact if_neg hno

theorem dphyDown_gated {b : Bool} (ha : s.awake = true) (hg : s.rdB F.PWR_CTRL_DPHY_GATE = true)
    (hq : (quadPorts b).any s.gateOpen = false) : dphyDown b s = setDphy b false s :=
  if_pos (by rw [ha, hg, hq]; rfl)

theorem dphyUp_up (b : Bool) (hc : s.coreUp = true) (hu : s.isUp = true) : dphyUp b s = setDphy b true s :=
  if_pos (by rw [hc, hu]; rfl)

/-- Settles O57: the state the hub is in and PWR_WAKE_EN choose what a source does, and the count of the attempts what a failure
does. That a command which is a wake source wakes the hub, and that a keep-alive leaves the state, is the model's choice
(log 61). -/
theorem wakeSourcesStartTheWake : Obligations.WakeSourcesStartTheWake := by
  unfold Obligations.WakeSourcesStartTheWake
  intro s
  refine ⟨?_, ?_, ?_, ?_, ?_, ?_, ?_, ?_, ?_, fun _ => rfl, ?_, ?_, ?_⟩
  · exact fun w p hu hs hw hx => congrArg fin ((wakeAny_up w p hx hu).trans (wakeSeen_sleep p hs hw))
  · exact fun w p hu hs hw hx => congrArg fin ((wakeAny_up w p hx hu).trans (wakeSeen_deep p hs hw))
  · exact fun w p hu hs hw hx => congrArg fin ((wakeAny_up w p hx hu).trans (wakeSeen_masked p hs hw))
  · exact fun bad t hs hr ht u hu hh => congrArg (fun u => fin (resume u)) (wakeDone_first hs hr ht hu hh)
  · exact fun c hs hr hf hn => congrArg fin ((attemptFail_deep c hs hr hf).trans (if_neg (Nat.not_le.2 hn)))
  · exact fun c hs hr hf hn => ⟨_, congrArg fin ((attemptFail_deep c hs hr hf).trans (if_pos hn)), rfl, rfl⟩
  · exact fun hx hs hr => congrArg fin ((if_neg (by simp [hx])).trans (retryDue_waking hs hr))
  · exact fun p m hs hc he hm ha => congrArg fin ((sentinelRx_takes hs hc he hm).trans (if_neg (by simp [ha])))
  · exact fun p m hs hc he hm ha => congrArg fin ((sentinelRx_takes hs hc he hm).trans (if_pos ha))
  · exact fun a ha hup hs => congrArg fin ((if_pos (by simp [ha, hup])).trans (i2cMatched_live hup hs))
  · exact fun b ha hg hq => congrArg fin (dphyDown_gated ha hg hq)
  · exact fun b hc hu => congrArg fin (dphyUp_up b hc hu)

end Sys2Proof.Machine
end

section
/-! PROOFS. The fault collector's commands: temperatures, the end of a condition, recovery and its release, the capture (R404,
R405, R407, R408, R410 to R412). -/

namespace Sys2Proof.Machine

variable {s : State}

theorem tempCritAt_raised {c : Int} (hc : 150 ≤ c) (ha : s.aonUp = true) (hf : s.flt.tempCrit = false) :
    tempCritAt c s = raiseAt .tempCrit none ((dieTemp c s).modFlt fun f => { f with tempCrit := true }) :=
  (if_neg (by simp [ha, hc])).trans (if_neg (by simp [hf]))

theorem tempHighAt_raised {c : Int} (hc : 135 ≤ c) (ha : s.aonUp = true) (hf : s.flt.tempHigh = false) :
    tempHighAt c s = raiseAt .tempHigh none ((dieTemp c s).modFlt fun f => { f with tempHigh := true }) :=
  (if_neg (by simp [ha, hc])).trans (if_neg (by simp [hf]))

theorem endRecovery_recovering (hr : s.flt.recovery = true) (hn : s.flt.releasing = false) (hc : s.classA = false) :
    endRecovery s = recoveryEnd s := if_pos (by rw [hr, hn, hc]; rfl)

/-- A write that sets VALID clears the six words of the capture. -/
theorem capClear_set (v : Word) : capClear (setBit v 31) s = (((((s.setReg R.FLT_CAP_INFO 0).setReg R.FLT_CAP_ADDR 0).setReg
    R.FLT_CAP_T0S 0).setReg R.FLT_CAP_T0NS 0).setReg R.FLT_CAP_T1LO 0).setReg R.FLT_CAP_T1HI 0 :=
  if_pos (bitOf_setBit_self v (by decide))

/-- Settles O58: a fault is raised where its condition was not there yet, and recovery ends where no class A condition is. That
a temperature is raised once while it lasts, and that the end of a condition selects a feed again, is the model's choice (logs
52 and 41). -/
theorem faultCollectorCommandsAct : Obligations.FaultCollectorCommandsAct := by
  unfold Obligations.FaultCollectorCommandsAct
  intro s
  refine ⟨?_, ?_, rfl, rfl, rfl, rfl, ?_, ?_, ?_, ?_⟩
  · exact fun c hc ha hf => congrArg fin (tempCritAt_raised hc ha hf)
  · exact fun c hc ha hf => congrArg fin (tempHighAt_raised hc ha hf)
  · exact fun hr hn hc ha => congrArg fin (if_pos (by rw [hr, hn, hc, ha]; rfl))
  · rintro path v t hreach ho rfl hr hn hc
    exact congrArg fin ((write_FLT_CMD hreach ho).trans
      ((if_pos (bitOf_setBit_self v (by decide))).trans (endRecovery_recovering hr hn hc)))
  · exact fun h => congrArg fin (if_pos h)
  · rintro path v t hreach rfl
    exact congrArg fin ((write_FLT_CAP_INFO hreach).trans (capClear_set v))

end Sys2Proof.Machine
end

section
/-! PROOFS. Transactions on the management bus (R422 to R429): a transaction at the hub's address, its end at the STOP, and what
clock stretching holds. -/

namespace Sys2Proof.Machine

variable {s t u : State} {a : BitVec 7} {bytes : List Byte}

/-- The answers of the hub to a transaction's bytes leave what it may name. -/
theorem i2cReach_i2cAcks (l : List Bool) : (i2cAcks l t).i2cReach bytes = t.i2cReach bytes := rfl

/-! ### Transactions at the hub's address (R424 to R427) -/

/-- A write of N words and a PEC comes to what its PEC says. -/
theorem i2cFinish_pec {ab : Byte} (h4 : 4 ≤ bytes.length) (hl : bytes.length = 4 + 4 * i2cN bytes + 1) :
    i2cFinish ab bytes u =
      if some (pec (ab :: bytes.take (4 + 4 * i2cN bytes))) == bytes[4 + 4 * i2cN bytes]? then
        i2cWriteRun (i2cReg bytes) (bytesWords (i2cN bytes) (bytes.drop 4)) (i2cWakes bytes u)
      else i2cBadPec u := by
  have hdata : (bytes.drop 4).length = 4 * i2cN bytes + 1 := by rw [List.length_drop]; omega
  rw [i2cFinish, if_neg (by omega), if_pos hdata]

section addressed

variable (hup : s.aonUp = true) (ha : a.toNat = s.i2cAddr) (ht : i2cMatched s = t) (hb : t.i2cBusy = false)
include hup ha ht hb

/-- A write transaction at the hub's address ends at its STOP, where N and the registers it names are good. -/
theorem i2cWrite_good
    (hu : i2cAcks (true :: (List.range bytes.length).map (t.i2cAck (BitVec.ofNat 8 (2 * a.toNat)) bytes)) t = u)
    (h4 : 4 ≤ bytes.length) (hn : i2cNOk bytes = true) (hr : t.i2cReach bytes = true) :
    i2cWrite a bytes true s = i2cFinish (BitVec.ofNat 8 (2 * a.toNat)) bytes u := by
  have hreach : u.i2cReach bytes = true := by rw [← hu, i2cReach_i2cAcks, hr]
  rw [i2cWrite, if_neg (by simp [hup]), if_neg (not_not.2 ha)]
  dsimp only
  rw [ht, if_neg (by simp [hb]), hu, if_neg (by omega), if_neg (by simp [hn]), if_pos (by simp [hreach])]

theorem i2cWrite_short
    (hu : i2cAcks (true :: (List.range bytes.length).map (t.i2cAck (BitVec.ofNat 8 (2 * a.toNat)) bytes)) t = u)
    (h4 : bytes.length < 4) : i2cWrite a bytes true s = i2cFormat u := by
  rw [i2cWrite, if_neg (by simp [hup]), if_neg (not_not.2 ha)]
  dsimp only
  rw [ht, if_neg (by simp [hb]), hu, if_pos h4, if_pos rfl]

theorem i2cRead_taken {n : Nat} (hl : bytes.length = 4) (hk : t.i2cTaken bytes = true)
    (hu : i2cAcks (true :: (List.range bytes.length).map (t.i2cAck (BitVec.ofNat 8 (2 * a.toNat)) bytes) ++ [true]) t = u) :
    i2cRead a bytes n s = i2cReadRun (BitVec.ofNat 8 (2 * a.toNat) :: bytes ++ [BitVec.ofNat 8 (2 * a.toNat + 1)]) n
      (i2cDue (i2cN bytes) n) (i2cReg bytes) [] false (i2cWakes bytes u) := by
  have hok : (decide (bytes.length = 4) && t.i2cTaken bytes) = true := by rw [hk, decide_eq_true hl]; rfl
  rw [i2cRead, if_neg (by simp [hup]), if_neg (not_not.2 ha)]
  dsimp only
  rw [ht, if_neg (by simp [hb]), hok, hu, if_pos rfl]

end addressed

/-! ### What is held (R428) -/

/-- A read that is held ends with 0xFF for its words and a wrong PEC. -/
theorem i2cTimeout_read {h : HeldRead} (hh : s.i2c.heldRead = some h) (hp : s.i2cP.popWait = false) : i2cTimeout s =
    raiseFault { src := .regTimeout, addr := i2cAt h.addr 0, req := 1, acc := 1 } (s.modI2c fun i =>
      { i with heldRead := none, reply := i2cReply h.hdr (h.got ++ List.replicate (4 * h.left) 0xFF) true h.nread }) := by
  rw [i2cTimeout, hh]
  exact if_neg (by rw [hp]; decide)

/-- Settles O59: a transaction is judged by its address, its N, the registers it names and its PEC, in that order. That fewer
than four bytes and a STOP are a format error, and what a read answers after 10 ms, is the model's choice (log 51). -/
theorem managementBusServesTransactions : Obligations.ManagementBusServesTransactions := by
  unfold Obligations.ManagementBusServesTransactions
  intro s t a hup ha ht hb
  refine ⟨?_, ?_, ?_, ?_, ?_, rfl⟩
  · exact fun bytes u h4 hn hr hl hpec hu => congrArg fin ((i2cWrite_good hup ha ht hb hu h4 hn hr).trans
      ((i2cFinish_pec h4 hl).trans (if_pos (beq_iff_eq.2 hpec))))
  · exact fun bytes u h4 hn hr hl hpec hu => congrArg fin ((i2cWrite_good hup ha ht hb hu h4 hn hr).trans
      ((i2cFinish_pec h4 hl).trans (if_neg fun heq => hpec (beq_iff_eq.1 heq))))
  · exact fun bytes u h4 hu => congrArg fin (i2cWrite_short hup ha ht hb hu h4)
  · exact fun bytes n u hl hk hu => congrArg fin (i2cRead_taken hup ha ht hb hl hk hu)
  · exact fun h hh hp => congrArg fin (i2cTimeout_read hh hp)

end Sys2Proof.Machine
end
